-- ==== Sys2Proof/Word.lean ====
section
/-!
DEFINITION. The word types of Gyold (00_scope.md R1 to R3) and the plainest arithmetic on them.
-/

namespace Sys2Proof

/-- A 32-bit register value (R46). -/
abbrev Word := BitVec 32
/-- A 64-bit register value, a pair of 32-bit registers (R46). -/
abbrev DWord := BitVec 64
/-- One byte of memory. -/
abbrev Byte := BitVec 8
/-- A code address: the PC holds 48 bits (R118). -/
abbrev CodeAddr := BitVec 48

/-- The bits `[hi:lo]` of a natural number (R2). -/
def bits (x hi lo : Nat) : Nat := (x >>> lo) % 2 ^ (hi + 1 - lo)

/-- Bit `n` of a natural number. -/
def bit (x n : Nat) : Bool := x.testBit n

/-- The two's-complement value of the low `n` bits of `x`. -/
def sextNat (x n : Nat) : Int :=
  let v := x % 2 ^ n
  if v.testBit (n - 1) then (v : Int) - (2 ^ n : Nat) else v

/-- An x register from its two halves: `wk` holds bits [31:0], `w(k+1)` bits [63:32] (R46). -/
def joinWords (lo hi : Word) : DWord := hi ++ lo

/-- Bits [31:0] of a 64-bit value. -/
def loWord (x : DWord) : Word := x.extractLsb' 0 32

/-- Bits [63:32] of a 64-bit value. -/
def hiWord (x : DWord) : Word := x.extractLsb' 32 32

end Sys2Proof
end

