-- ==== Sys2Proof/Config.lean ====
section
/-!
DEFINITION. What an implementation of Gyold fixes and the manual leaves open: free values. Each is a constant with no body, so that nothing
can be proved of its value; the assumption log names each one. A free value is applied to the operands it depends on, or to the counter
`freeCtr` of the state for a fresh value each time.
-/

namespace Sys2Proof.Config

/-- The part of a variable latency above the unloaded figure of R90, in ns (log 12). -/
opaque extraLatency : Nat → Nat
/-- The carry vector of an accumulator element after an addition; the sum vector is the rest (R61, log 11). -/
opaque carrySplit : Nat → BitVec 128
/-- Whether an access still uses a cached translation whose tables have changed (R297, log 13). -/
opaque useCached : Nat → Nat → Bool
/-- Which of the results within the stated bound an approximated special function returns: a fixed function of the opcode and the operands (R369, log 10). -/
opaque approxChoice : Nat → Nat → Nat → Nat
/-- The energy charged to an event, in the unit of CTXEN (R163, log 14). -/
opaque energy : Nat → Nat
/-- A sensor reading of a cluster: temperature, voltage, power (R477, log 14). -/
opaque sensor : Nat → Nat → Nat
/-- The configuration words the boot ROM measures and the signature the attestation unit returns (R489, R490, log 15). -/
opaque attest : Nat → BitVec 64
/-- Whether the boot ROM's verification of a part of the configuration succeeds (R489, log 15). -/
opaque bootVerified : Nat → Bool
/-- The stepping and ROM version in DEVID, and the calibration words (R456, log 15). -/
opaque maker : Nat → BitVec 64
/-- The set of an L2 slice in which a line lies (R25, log 50). -/
opaque l2Set : Nat → Nat
/-- Size in bytes of the opaque block state of a block record beside its map entries (06 R162, log 43). -/
opaque blockStateSize : Nat
/-- Bytes of the opaque parts of a context image, by a fresh number and a place (06 R160, R162, log 43). -/
opaque imageByte : Nat → Nat → BitVec 8
/-- A choice that the manual leaves to the implementation, by a kind and a fresh number (log 16). -/
opaque choice : Nat → Nat → Nat

end Sys2Proof.Config
end

