-- ==== Sys2Proof/Machine/Tab.lean ====
section
/-!
DEFINITION. Tables of plain data by a numeric key: the sparse storage of registers, lanes, groups, blocks, contexts and device registers.
-/

namespace Sys2Proof.Machine

/-- A table: the first entry of a key counts, and an absent key holds the reader's default. -/
abbrev Tab (α : Type) := List (Nat × α)

/-- The entry of a key, if there is one. -/
def tfind {α : Type} (t : Tab α) (k : Nat) : Option α :=
  match t with
  | [] => none
  | (i, v) :: t => if i = k then some v else tfind t k

/-- The entry of a key, or a default. -/
def tget {α : Type} (d : α) (t : Tab α) (k : Nat) : α :=
  match tfind t k with
  | some v => v
  | none => d

/-- Replaces the entry of a key, or appends one. -/
def tset {α : Type} (t : Tab α) (k : Nat) (v : α) : Tab α :=
  match t with
  | [] => [(k, v)]
  | (i, u) :: t => if i = k then (k, v) :: t else (i, u) :: tset t k v

/-- Removes every entry of a key. -/
def tdel {α : Type} (t : Tab α) (k : Nat) : Tab α := t.filter (fun e => e.1 ≠ k)

/-- Whether a key is present. -/
def thas {α : Type} (t : Tab α) (k : Nat) : Bool := (tfind t k).isSome

/-- Changes every entry. -/
def tmap {α : Type} (f : Nat → α → α) (t : Tab α) : Tab α := t.map (fun e => (e.1, f e.1 e.2))

/-- Inserts a number into an ascending list without repeats. -/
def insertNat (k : Nat) (l : List Nat) : List Nat :=
  match l with
  | [] => [k]
  | a :: l => if k < a then k :: a :: l else if k = a then a :: l else a :: insertNat k l

/-- The numbers of a list, ascending and without repeats. -/
def sortNat (l : List Nat) : List Nat := l.foldr insertNat []

/-- The keys, ascending. -/
def tkeys {α : Type} (t : Tab α) : List Nat := sortNat (t.map Prod.fst)

/-- Inserts into a list kept in the order of a comparison; equal elements keep their order of arrival. -/
def insertBy {α : Type} (le : α → α → Bool) (x : α) (l : List α) : List α :=
  match l with
  | [] => [x]
  | a :: l => if le x a then x :: a :: l else a :: insertBy le x l

/-- Sorts a list by a comparison, stably. -/
def sortBy {α : Type} (le : α → α → Bool) (l : List α) : List α := l.foldr (insertBy le) []

/-- The numbers below `n`, ascending. -/
def upto (n : Nat) : List Nat := List.range n

end Sys2Proof.Machine
end

