-- ==== Sys2Proof/Syntax.lean ====
section
/-!
DEFINITION. The instruction set of Gyold: the eight word formats of 05_encoding.md (R125) and one constructor for every row of the
opcode table. A word instruction carries every field of its format, the ignored ones too, so that no bit of an encoding is lost;
a subfield of the opcode (R133) is an argument of its own. An event or command has no encoding and names the
objects it acts on: its operands stand in the operand field of the state (`State.arg`), under the names its docstring gives.
-/

namespace Sys2Proof

/-- Format A, three registers (R125). -/
structure WA where
  /-- Chain bit. -/
  c : Bool
  /-- Switch marker. -/
  s : Bool
  /-- Execution scope. -/
  sc : BitVec 2
  /-- Guard. -/
  pr : BitVec 2
  /-- Hold bit. -/
  h : Bool
  /-- Field D. -/
  d : BitVec 5
  /-- Field A. -/
  a : BitVec 5
  /-- Field B. -/
  b : BitVec 5
deriving DecidableEq, Repr

/-- Format I, register and 6-bit constant (R125). -/
structure WI where
  c : Bool
  s : Bool
  sc : BitVec 2
  pr : BitVec 2
  d : BitVec 5
  a : BitVec 5
  k : BitVec 6
deriving DecidableEq, Repr

/-- Format K, 13-bit constant, lane scope (R125). -/
structure WK where
  c : Bool
  s : Bool
  pr : BitVec 2
  d : BitVec 5
  k : BitVec 13
deriving DecidableEq, Repr

/-- Format J, branch, lane scope (R125). -/
structure WJ where
  c : Bool
  s : Bool
  pr : BitVec 2
  off : BitVec 18
deriving DecidableEq, Repr

/-- Format M, load and store (R125). -/
structure WM where
  c : Bool
  s : Bool
  sc : BitVec 2
  pr : BitVec 2
  d : BitVec 5
  a : BitVec 5
  off : BitVec 6
deriving DecidableEq, Repr

/-- Format MA, atomic, lane scope (R125, R112). -/
structure WMA where
  c : Bool
  s : Bool
  /-- Ordering modifier. -/
  mo : BitVec 2
  pr : BitVec 2
  h : Bool
  d : BitVec 5
  a : BitVec 5
  b : BitVec 5
deriving DecidableEq, Repr

/-- Format S, system register (R125). -/
structure WS where
  c : Bool
  s : Bool
  sc : BitVec 2
  pr : BitVec 2
  d : BitVec 5
  /-- Index of the system register. -/
  sreg : BitVec 11
deriving DecidableEq, Repr

/-- Format P, REP prefix (R125, R131). -/
structure WP where
  c : Bool
  s : Bool
  cnt : BitVec 4
  sd : BitVec 2
  sa : BitVec 2
  sb : BitVec 2
  zero : BitVec 10
deriving DecidableEq, Repr

/-- The instructions, commands and events of Gyold, one constructor for each row of the opcode table. -/
inductive Instr where
  /-- NOP (R354). Has no effect whatever its guard. -/
  | nop (f : WK)
  /-- BRA (R347). Each guarded thread transfers to PC plus four times the signed word offset. -/
  | bra (f : WJ)
  /-- BRX (R348). Each guarded thread transfers to the address in its x register, after whole-issue PROT then ALIGN checks. -/
  | brx (f : WA)
  /-- CALL (R349). Writes the return address into w14 and transfers to PC plus the word offset. -/
  | call (f : WJ)
  /-- CALLX (R349). Writes the return address into w14 and transfers to the address in an x register. -/
  | callx (f : WA)
  /-- RET (R350). Transfers each guarded thread to {PC[47:32], w14}. -/
  | ret (f : WA)
  /-- EXIT (R353). Parks at an implicit switch marker, then ends the guarded threads, or terminates handler groups at wide scope in a handler. -/
  | exit (f : WA)
  /-- YIELD (R355). Makes the group ineligible for max(k,1) fc and clears WAITC. -/
  | yield (f : WK)
  /-- SLEEP (R355). Puts the whole group into SLEEP until GTS reaches the issue GTS plus 16k ns. -/
  | sleep (f : WK)
  /-- PAND (R342). Per guarded lane, pd := pa AND pb. -/
  | pand (f : WA)
  /-- POR (R342). Per guarded lane, pd := pa OR pb. -/
  | por (f : WA)
  /-- PXOR (R342). Per guarded lane, pd := pa XOR pb. -/
  | pxor (f : WA)
  /-- PNOT (R342). Per guarded lane, pd := NOT pa. -/
  | pnot (f : WA)
  /-- VOTE_ANY (R344). Writes the OR of a predicate over the guarded lanes or members to each of them. -/
  | voteAny (f : WA)
  /-- VOTE_ALL (R344). Writes the AND of a predicate over the guarded lanes or members to each of them. -/
  | voteAll (f : WA)
  /-- VOTE_BAL (R344). Writes the ballot mask of a predicate over the guarded lanes to a w register. -/
  | voteBal (f : WA)
  /-- PSET (R341). Sets a predicate to an integer comparison of two w registers. -/
  | pset (cond : BitVec 4) (f : WA)
  /-- PSETK (R341). Sets a predicate to an integer comparison of a w register with a 6-bit constant. -/
  | psetk (cond : BitVec 4) (f : WI)
  /-- PRD (R343). Writes all ones or zero to a w register from a predicate. -/
  | prd (f : WA)
  /-- PWR (R343). Sets a predicate to whether a w register is non-zero. -/
  | pwr (f : WA)
  /-- REP (R131). Repeats the next word n times with stepped register fields, one repetition per lc. -/
  | rep (f : WP)
  /-- ADD (R336). 32-bit wrapping addition per guarded lane. -/
  | add (f : WA)
  /-- SUB (R336). 32-bit wrapping subtraction per guarded lane. -/
  | sub (f : WA)
  /-- ADDK (R340). Adds a sign-extended 6-bit constant to a w register modulo 2^32. -/
  | addk (f : WI)
  /-- ADDS (R336). Signed saturating 32-bit addition. -/
  | adds (f : WA)
  /-- SUBS (R336). Signed saturating 32-bit subtraction. -/
  | subs (f : WA)
  /-- MUL (R336). Low 32 bits of the product. -/
  | mul (f : WA)
  /-- MULH (R336). High 32 bits of the signed product. -/
  | mulh (f : WA)
  /-- MULHU (R336). High 32 bits of the unsigned product. -/
  | mulhu (f : WA)
  /-- MAD (R336). Low 32 bits of A times B plus D. -/
  | mad (f : WA)
  /-- MIN (R336). Signed minimum. -/
  | min (f : WA)
  /-- MAX (R336). Signed maximum. -/
  | max (f : WA)
  /-- MINU (R336). Unsigned minimum. -/
  | minu (f : WA)
  /-- MAXU (R336). Unsigned maximum. -/
  | maxu (f : WA)
  /-- AND (R336). Bitwise AND. -/
  | and (f : WA)
  /-- OR (R336). Bitwise OR. -/
  | or (f : WA)
  /-- XOR (R336). Bitwise exclusive or. -/
  | xor (f : WA)
  /-- ANDN (R336). A AND NOT B. -/
  | andn (f : WA)
  /-- SHL (R337). Left shift by B[7:0], zero at 32 or more. -/
  | shl (f : WA)
  /-- SHR (R337). Logical right shift by B[7:0]. -/
  | shr (f : WA)
  /-- SAR (R337). Arithmetic right shift by B[7:0]. -/
  | sar (f : WA)
  /-- SHLI (R337). Left shift by a 6-bit constant. -/
  | shli (f : WI)
  /-- SHRI (R337). Logical right shift by a 6-bit constant. -/
  | shri (f : WI)
  /-- SARI (R337). Arithmetic right shift by a 6-bit constant. -/
  | sari (f : WI)
  /-- SEL (R336). Bitwise selection of A or B under the mask in D. -/
  | sel (f : WA)
  /-- POPC (R336). Counts the 1 bits of A. -/
  | popc (f : WA)
  /-- CLZ (R336). Counts leading zero bits of A. -/
  | clz (f : WA)
  /-- BREV (R336). Reverses the bits of A. -/
  | brev (f : WA)
  /-- BFX (R338). Extracts a zero-extended bit field described by B. -/
  | bfx (f : WA)
  /-- BFXS (R338). Extracts a sign-extended bit field described by B. -/
  | bfxs (f : WA)
  /-- BFI (R338). Inserts A into the bit field of D described by B. -/
  | bfi (f : WA)
  /-- MOV (R336). Copies A to D. -/
  | mov (f : WA)
  /-- MOVK (R339). Writes a sign-extended 13-bit constant. -/
  | movk (f : WK)
  /-- SHLK (R339). Shifts D left 13 bits and ORs in a 13-bit constant. -/
  | shlk (f : WK)
  /-- MOVG (R345). Writes a group register from the lowest guarded lane, under the divergent-write rule. -/
  | movg (f : WA)
  /-- MOVW (R346). Copies a group register of the lane's own group into a w register. -/
  | movw (f : WA)
  /-- ADD64 (R340). 64-bit addition of x registers. -/
  | add64 (f : WA)
  /-- SUB64 (R340). 64-bit subtraction of x registers. -/
  | sub64 (f : WA)
  /-- ADDK64 (R340). Adds a sign-extended 6-bit constant to an x register. -/
  | addk64 (f : WI)
  /-- SHL64 (R340). 64-bit left shift. -/
  | shl64 (f : WA)
  /-- SHR64 (R340). 64-bit logical right shift. -/
  | shr64 (f : WA)
  /-- SEXT64 (R340). Sign-extends a w register into an x register. -/
  | sext64 (f : WA)
  /-- ZEXT64 (R340). Zero-extends a w register into an x register. -/
  | zext64 (f : WA)
  /-- LEA (R340). Adds a sign-extended w register shifted by s to an x register. -/
  | lea (sh : BitVec 3) (f : WA)
  /-- FADD (R359). FP32 addition rounded once in the opcode's mode. -/
  | fadd (rm : BitVec 2) (f : WA)
  /-- FSUB (R359). FP32 subtraction rounded once. -/
  | fsub (rm : BitVec 2) (f : WA)
  /-- FMUL (R359). FP32 multiplication rounded once. -/
  | fmul (rm : BitVec 2) (f : WA)
  /-- FFMA (R359). FP32 fused A times B plus D, one rounding. -/
  | ffma (rm : BitVec 2) (f : WA)
  /-- FMIN (R360). FP32 minimum with -0 below +0 and NaN handling. -/
  | fmin (f : WA)
  /-- FMAX (R360). FP32 maximum. -/
  | fmax (f : WA)
  /-- FABS (R360). Clears the sign bit of an FP32 value. -/
  | fabs (f : WA)
  /-- FNEG (R360). Inverts the sign bit of an FP32 value. -/
  | fneg (f : WA)
  /-- FSET_EQ_TO_LE (R361). Sets a predicate to an FP32 comparison EQ, NE, LT or LE. -/
  | fsetEqToLe (cond : BitVec 2) (f : WA)
  /-- FSET_GT_TO_OR (R361). Sets a predicate to an FP32 comparison GT, GE, UN or OR. -/
  | fsetGtToOr (cond : BitVec 2) (f : WA)
  /-- HADD2 (R362). Packed BF16 addition per element. -/
  | hadd2 (rm : BitVec 2) (f : WA)
  /-- HSUB2 (R362). Packed BF16 subtraction. -/
  | hsub2 (rm : BitVec 2) (f : WA)
  /-- HMUL2 (R362). Packed BF16 multiplication. -/
  | hmul2 (rm : BitVec 2) (f : WA)
  /-- HFMA2 (R362). Packed BF16 fused multiply-add. -/
  | hfma2 (rm : BitVec 2) (f : WA)
  /-- HMIN2 (R362). Packed BF16 minimum. -/
  | hmin2 (f : WA)
  /-- HMAX2 (R362). Packed BF16 maximum. -/
  | hmax2 (f : WA)
  /-- HABS2 (R362). Clears the sign of both BF16 elements. -/
  | habs2 (f : WA)
  /-- HNEG2 (R362). Inverts the sign of both BF16 elements. -/
  | hneg2 (f : WA)
  /-- HDOT2 (R363). Two-term BF16 dot product plus FP32 D, one rounding. -/
  | hdot2 (rm : BitVec 2) (f : WA)
  /-- CVT_BF16_F32 (R364). Narrows two FP32 values into packed BF16. -/
  | cvtBf16F32 (rm : BitVec 2) (f : WA)
  /-- CVT_F32_BF16L (R364). Widens the low BF16 element to FP32. -/
  | cvtF32Bf16l (f : WA)
  /-- CVT_F32_BF16H (R364). Widens the high BF16 element to FP32. -/
  | cvtF32Bf16h (f : WA)
  /-- CVT_E4M3_BF16 (R365). Converts four BF16 elements to E4M3 under R44. -/
  | cvtE4m3Bf16 (rm : BitVec 2) (f : WA)
  /-- CVT_E5M2_BF16 (R365). Converts four BF16 elements to E5M2 under R44. -/
  | cvtE5m2Bf16 (rm : BitVec 2) (f : WA)
  /-- CVT_BF16_E4M3L (R366). Widens E4M3 elements 0 and 1 to BF16. -/
  | cvtBf16E4m3l (f : WA)
  /-- CVT_BF16_E4M3H (R366). Widens E4M3 elements 2 and 3 to BF16. -/
  | cvtBf16E4m3h (f : WA)
  /-- CVT_BF16_E5M2L (R366). Widens E5M2 elements 0 and 1 to BF16. -/
  | cvtBf16E5m2l (f : WA)
  /-- CVT_BF16_E5M2H (R366). Widens E5M2 elements 2 and 3 to BF16. -/
  | cvtBf16E5m2h (f : WA)
  /-- CVT_S32_F32 (R367). FP32 to INT32 by R48. -/
  | cvtS32F32 (rm : BitVec 2) (f : WA)
  /-- CVT_U32_F32 (R367). FP32 to UINT32 by R48. -/
  | cvtU32F32 (rm : BitVec 2) (f : WA)
  /-- CVT_F32_S32 (R367). INT32 to FP32. -/
  | cvtF32S32 (rm : BitVec 2) (f : WA)
  /-- CVT_F32_U32 (R367). UINT32 to FP32. -/
  | cvtF32U32 (rm : BitVec 2) (f : WA)
  /-- CVT_S4_S8 (R368). Packs eight saturated INT8 elements into INT4. -/
  | cvtS4S8 (f : WA)
  /-- CVT_S8_S4L (R368). Sign-extends INT4 elements 0-3 to INT8. -/
  | cvtS8S4l (f : WA)
  /-- CVT_S8_S4H (R368). Sign-extends INT4 elements 4-7 to INT8. -/
  | cvtS8S4h (f : WA)
  /-- FRRED (R370). Reduces A modulo pi/2 into r and a quadrant in an x pair. -/
  | frred (f : WA)
  /-- FSINR (R371). Sine of r plus quadrant times pi/2. -/
  | fsinr (f : WA)
  /-- FCOSR (R371). Cosine of r plus quadrant times pi/2. -/
  | fcosr (f : WA)
  /-- FEXP2 (R372). 2^A within 1 ulp. -/
  | fexp2 (f : WA)
  /-- FLOG2 (R372). log2 A within 1 ulp. -/
  | flog2 (f : WA)
  /-- FRCP (R372). Correctly rounded reciprocal. -/
  | frcp (f : WA)
  /-- FRSQ (R372). Reciprocal square root within 1 ulp. -/
  | frsq (f : WA)
  /-- FSQRT (R372). Correctly rounded square root. -/
  | fsqrt (f : WA)
  /-- LSWP_P (R374). Each lane takes w A of lane l XOR 1. -/
  | lswpP (f : WA)
  /-- LSHF (R374). Each lane takes w A of lane l minus k, or its own when out of range. -/
  | lshf (f : WI)
  /-- LBCAST (R374). Each lane takes w A of lane k. -/
  | lbcast (f : WI)
  /-- LXOR (R374). Each lane takes w A of lane l XOR k. -/
  | lxor (f : WI)
  /-- LIDX (R374). Each lane takes w A of the lane named by its own w B. -/
  | lidx (f : WA)
  /-- LROT (R374). Each lane takes w A of lane (l minus k) mod N. -/
  | lrot (f : WI)
  /-- LD_G (R379). Global load of the size sz per guarded lane, with an operand log entry. -/
  | ldG (sz : BitVec 3) (f : WM)
  /-- LD_S (R379). Scratchpad load of the size sz per guarded lane. -/
  | ldS (sz : BitVec 3) (f : WM)
  /-- LD_E (R379). Eaves load of the size sz per guarded lane. -/
  | ldE (sz : BitVec 3) (f : WM)
  /-- ST_G (R382). Global store of the size sz, entered in the store queue. -/
  | stG (sz : BitVec 3) (f : WM)
  /-- ST_S (R382). Scratchpad store of the size sz, entered in the store queue. -/
  | stS (sz : BitVec 3) (f : WM)
  /-- ST_E (R382). Eaves store of the size sz, entered in the store queue. -/
  | stE (sz : BitVec 3) (f : WM)
  /-- PREF_L1 (R383). Requests a line into the issuing core's L1; dropped on any obstacle. -/
  | prefL1 (f : WM)
  /-- PREF_L2 (R383). Requests a line into its home L2 slice only. -/
  | prefL2 (f : WM)
  /-- ATOM_ADD (R385). Atomic 32-bit add returning the old value. -/
  | atomAdd (ms : BitVec 2) (f : WMA)
  /-- ATOM_MIN (R385). Atomic signed minimum. -/
  | atomMin (ms : BitVec 2) (f : WMA)
  /-- ATOM_MAX (R385). Atomic signed maximum. -/
  | atomMax (ms : BitVec 2) (f : WMA)
  /-- ATOM_MINU (R385). Atomic unsigned minimum. -/
  | atomMinu (ms : BitVec 2) (f : WMA)
  /-- ATOM_MAXU (R385). Atomic unsigned maximum. -/
  | atomMaxu (ms : BitVec 2) (f : WMA)
  /-- ATOM_AND (R385). Atomic bitwise AND. -/
  | atomAnd (ms : BitVec 2) (f : WMA)
  /-- ATOM_OR (R385). Atomic bitwise OR. -/
  | atomOr (ms : BitVec 2) (f : WMA)
  /-- ATOM_XOR (R385). Atomic bitwise XOR. -/
  | atomXor (ms : BitVec 2) (f : WMA)
  /-- ATOM_EXCH (R385). Atomic exchange. -/
  | atomExch (ms : BitVec 2) (f : WMA)
  /-- ATOM_CAS (R385). Atomic compare-and-swap with the expected and new values in an even w pair. -/
  | atomCas (ms : BitVec 2) (f : WMA)
  /-- ATOM_LD (R385). Atomic load; .REL raises ILL. -/
  | atomLd (ms : BitVec 2) (f : WMA)
  /-- ATOM_ST (R385). Atomic store; .ACQ raises ILL. -/
  | atomSt (ms : BitVec 2) (f : WMA)
  /-- ATOM_FADD (R385). Atomic FP32 add rounded RNE, ignoring FPC. -/
  | atomFadd (ms : BitVec 2) (f : WMA)
  /-- ATOM_ADD64 (R385). Atomic 64-bit add. -/
  | atomAdd64 (ms : BitVec 2) (f : WMA)
  /-- FENCE_E (R111). Holds the thread's next engine command until its earlier accesses are performed. -/
  | fenceE (f : WA)
  /-- DFENCE (R111). Orders all earlier accesses before later ones, waiting for peer store acknowledgements; a report point. -/
  | dfence (f : WA)
  /-- DRAINST (R105). Waits until older stores and atomics are performed or faulted, taking any pending store fault trap. -/
  | drainst (f : WA)
  /-- SFRD (R392). In a fault handler, reads word k of the head store-fault record. -/
  | sfrd (f : WA)
  /-- SFPOP (R392). In a fault handler, removes the head record and discards its entry. -/
  | sfpop (f : WA)
  /-- SFCNT (R392). In a fault handler, returns the number of store-fault records. -/
  | sfcnt (f : WA)
  /-- SMAP (R389). Creates a scratchpad map entry with all lines INVALID. -/
  | smap (f : WA)
  /-- SUNMAP (R390). Queues a write-back of the entry's dirty lines, then invalidates the entry. -/
  | sunmap (f : WA)
  /-- SWB (R390). Queues a write-back of the dirty lines of a range of an entry. -/
  | swb (f : WA)
  /-- SINV (R390). Makes a range of mapped lines INVALID at once, discarding dirty bytes. -/
  | sinv (f : WA)
  /-- XACQ (R261). Acquires an extended register granule, waiting in WAIT-XREG if none is free. -/
  | xacq (f : WA)
  /-- XREL (R261). Waits as at a switch marker and releases the extended granule. -/
  | xrel (f : WA)
  /-- XTRY (R261). Acquires a free granule if one is free and the queue is empty, and returns whether held. -/
  | xtry (f : WA)
  /-- SDECL (R262). Declares the group into the set with a tag and waits until k declarers arrive. -/
  | sdecl (f : WA)
  /-- SLEAVE (R262). Removes the group from its set and renumbers the rest. -/
  | sleave (f : WA)
  /-- SINFO (R262). Returns the group's set state. -/
  | sinfo (f : WA)
  /-- BINIT (R274). Sets a barrier's expected engine arrivals and clears a FAULT. -/
  | binit (f : WA)
  /-- BARV (R275). Arrives each guarded thread on a barrier with a membership, returning the generation. -/
  | barv (f : WA)
  /-- BWAIT (R276). Makes the group wait until the named barrier generation completes. -/
  | bwait (f : WA)
  /-- BSYNC (R277). Arrives on a barrier and waits for the generation arrived in. -/
  | bsync (f : WA)
  /-- BGEN (R278). Returns a barrier's state. -/
  | bgen (f : WA)
  /-- REDB (R285). Arrives the block on its bridle channel and waits for the generation. -/
  | redb (f : WA)
  /-- REDW (R285). Contributes a vector to a bridle reduction and waits for its result. -/
  | redw (f : WA)
  /-- REDQ (R287). Returns the bridle channel state. -/
  | redq (f : WA)
  /-- TMMA (R401). Checks a parameter block and enters a matrix multiply-accumulate in the tile queue, returning its ticket. -/
  | tmma (f : WA)
  /-- TZERO (R398). Enters a tile zeroing command in the tile queue. -/
  | tzero (f : WA)
  /-- TRES (R398). Enters a tile resolve command in the tile queue. -/
  | tres (f : WA)
  /-- TCMP (R398). Enters a tile sign comparison in the tile queue. -/
  | tcmp (f : WA)
  /-- TDRAIN (R401). Checks a parameter block and enters a drain of a tile in the tile queue. -/
  | tdrain (rm : BitVec 2) (f : WA)
  /-- TCMP_X (R398). Enters a resolving tile sign comparison in the tile queue. -/
  | tcmpX (f : WA)
  /-- TSAVE (R409). Enters a save of a tile as a redundant image. -/
  | tsave (f : WA)
  /-- TSAVE_C (R409). Enters a save of a tile as a canonical image. -/
  | tsaveC (f : WA)
  /-- TLOAD (R410). Enters a load of a tile image into a tile. -/
  | tload (f : WA)
  /-- TPLANE (R411). Enters a conversion of a BF16 tile to plane form. -/
  | tplane (f : WA)
  /-- TWAIT (R413). Completes when the named ticket and all earlier ones have finished. -/
  | twait (f : WA)
  /-- TWAIT_ALL (R413). Completes when every earlier tile command of the block has finished. -/
  | twaitAll (f : WA)
  /-- TSTAT (R412). Returns a tile's state and the block's tile progress without queuing. -/
  | tstat (f : WA)
  /-- TMOV (R398). Enters a copy of one tile into another. -/
  | tmov (f : WA)
  /-- CPY (R418). Issues one copy operation per guarded lane into copy queue n and returns its promise. -/
  | cpy (q : BitVec 2) (f : WA)
  /-- CPY_N (R431). Issues a UET Send, Write or Read through a network send queue. -/
  | cpyN (f : WA)
  /-- GATH (R420). Issues a gather of rows through an index list. -/
  | gath (f : WA)
  /-- CSEAL (R426). Seals the thread's open batch and returns its number. -/
  | cseal (f : WA)
  /-- CWAIT (R427). Holds the group until at most n sealed batches are unfinished. -/
  | cwait (f : WI)
  /-- SLEEP_P (R428). Sleeps the group until the promise of the named batches. -/
  | sleepP (f : WA)
  /-- QFENCE (R430). Enters a fence into two or more named engine queues. -/
  | qfence (f : WI)
  /-- COLL (R432). Issues a collective operation across member contexts. -/
  | coll (f : WA)
  /-- LEADER (R429). Sets a predicate true in exactly the lowest guarded lane. -/
  | leader (f : WA)
  /-- WPOP (R438). Pops one record from a feed into g8-g15 or returns empty or closed. -/
  | wpop (f : WA)
  /-- WPOP_SLEEP (R438). Pops a record from a feed, sleeping while the feed is empty and open. -/
  | wpopSleep (f : WA)
  /-- WPUSH (R439). Appends g8-g15 as one record to a feed after earlier stores are performed. -/
  | wpush (f : WA)
  /-- WLEN (R439). Returns a feed's record count and closed bit. -/
  | wlen (f : WA)
  /-- AMSG (R322). Sends an active message per guarded lane and returns its ticket. -/
  | amsg (f : WA)
  /-- AMPOLL (R327). Returns the status and reply of a message ticket. -/
  | ampoll (f : WA)
  /-- AMEND (R328). Sends a handler's reply as HANDLED once its stores are performed and exits it. -/
  | amend (f : WA)
  /-- BIDSET (R176). Writes a bid register of a class and returns a status. -/
  | bidset (f : WA)
  /-- PRICE (R178). Returns a published clearing price of this device or of a peer. -/
  | price (f : WA)
  /-- BIDGET (R177). Returns the context's own bid, grant or balance state. -/
  | bidget (f : WA)
  /-- MFS (R445). Reads a system register into a w or x register. -/
  | mfs (f : WS)
  /-- MTS (R445). Writes a system register, with the register's own rules. -/
  | mts (f : WS)
  /-- TRAP (R453). Raises the USER trap with detail k. -/
  | trap (f : WK)
  /-- RETT (R450). Ends a handler after rendezvous, resuming threads at TEPC and performing the cause's return effect. -/
  | rett (f : WA)
  /-- BRK (R453). Raises BRK or stops for the debugger when armed. -/
  | brk (f : WK)
  /-- DTLOAD (R137). Loads and checks a decode table and installs it into a slot indivisibly. -/
  | dtload (f : WI)
  /-- DTSEL (R138). Selects a decode table slot and refetches the following words. -/
  | dtsel (f : WI)
  /-- KCHK (R247). Returns the issuer's cancel flags at each level. -/
  | kchk (f : WA)
  /-- KCANC (R245). Sets the cancel flag of a work node, drops undispatched blocks and optionally marks resident blocks for termination. -/
  | kcanc (hard : Bool) (lv : BitVec 2) (f : WA)
  /-- PROBE (R308). Walks each lane's VA without faulting and returns its translation state. -/
  | probe (f : WA)
  /-- TLBI (R309). Invalidates translations of an address, context or VF and re-walks waiting accesses. -/
  | tlbi (f : WA)
  /-- ICINV (R455). Makes stored code in a range fetchable by discarding decoded packets. -/
  | icinv (f : WA)
  /-- MCFGR (R456). Reads a maker configuration register. -/
  | mcfgr (f : WS)
  /-- MCFGW (R456). Writes a maker configuration register. -/
  | mcfgw (f : WS)
  /-- CREATE (R150). Reads and checks a context record and moves the context from FREE to CREATED. Operands x: vf. -/
  | create
  /-- ACTIVATE (R152). Moves a CREATED context to RUNNABLE so its bids enter clearing. Operands x: vf. -/
  | activate
  /-- SUSPEND (R153). Performs a full save and moves the context to SUSPENDED. Operands x: vf. -/
  | suspend
  /-- RESUME (R152). Returns a SUSPENDED context, or one held FAULTED by an image fault, to RUNNABLE. Operands x: vf. -/
  | resume
  /-- DESTROY (R154). Terminates every group and engine operation and moves the context to DESTROYED. Operands x: vf. -/
  | destroy
  /-- MIGRATE (R153). Saves the context fully and ships its image to a destination device. Operands x: vf. -/
  | migrate
  /-- CONTEXT_COMMAND_COMPLETE (R148). Clears GO, sets STATUS and sends MSI-X vector 0 when a context command finishes. Operands x: vf, y: status. -/
  | contextCommandComplete
  /-- MIGRATION_COMPLETE (R152). The image is received, the destination restores the context and the source becomes DESTROYED. Operands x: ctx. -/
  | migrationComplete
  /-- MIGRATION_ABORTED (R152). Returns a MIGRATING context to its previous state with the image on the source. Operands x: ctx; y: 1 at the destination, for context x of device z. -/
  | migrationAborted
  /-- VFCFG_WRITE (R146). Configures a VF's id range, page-table root and energy period, refusing conflicting writes. Operands x: vf, y: word, v: v. -/
  | vfcfgWrite
  /-- WATCHDOG_EXPIRY (R226). At a 1 ms check with no progress for MS ms, faults the context and starts partition reset. Operands x: ctx. -/
  | watchdogExpiry
  /-- RESET_COMPLETE (R227). Event 11 returns the context to RUNNING or RUNNABLE and starts queue replay. Operands x: ctx. -/
  | resetComplete
  /-- NOTICE_APPEND (R158). Writes a notice record to the ring and advances HEAD, or drops it. Operands x: ctx, y: code, z: arg, u: src, l[0]: gts. -/
  | noticeAppend
  /-- ENERGY_PERIOD_BOUNDARY (R163). Advances CTXEN and VFEN at the VF's energy period boundary. Operands x: vf. -/
  | energyPeriodBoundary
  /-- SEALING (R179). At T-40 us seals bids, clears each class and places the units. -/
  | sealing
  /-- PUBLICATION (R179). At T-20 us publishes results, posts GRANT and LAPSE notices and stops dispatch to lapsing clusters. Operands x: 1 to go on with the background clean of block y. -/
  | publication
  /-- INTERVAL_BOUNDARY (R180). At T settles purses and stops the work of lapsing units. -/
  | intervalBoundary
  /-- HANDOVER_END (R181). A changed unit's handover ends and its incoming holder may dispatch to it. Operands x: cls, y: unit, z: 25 µs after T; x: 5 for the image of context y, 6 for its end. -/
  | handoverEnd
  /-- PRICE_EXCHANGE_RECEIVED (R192). Stores a peer's stamped prices and masks in the peer price table if newer. Operands x: dev, y: stamp, l: five prices and five FREE counts, data: EVAV0 and EVAV1. -/
  | priceExchangeReceived
  /-- PEER_PRICE_ENTRY_EXPIRY (R192). Clears a peer price entry not updated for 64 intervals. Operands x: dev. -/
  | peerPriceEntryExpiry
  /-- DOORBELL (R199). A QTAIL write is accepted or refused and may post a queue event. Operands x: ctx, y: q, v: v. -/
  | doorbell
  /-- QCFG_WRITE (R198). Configures, enables or disables a queue. Operands x: ctx, y: q, v: v. -/
  | qcfgWrite
  /-- RETRY (R223). QCTL RETRY clears the error of a STOPPED queue and retakes or re-executes the failing packet. Operands x: ctx, y: q. -/
  | retry
  /-- SKIP (R223). QCTL SKIP clears the error and moves past or abandons the failing packet. Operands x: ctx, y: q. -/
  | skip
  /-- RAFTER_EVENT_TAKE (R201). An idle rafter takes the oldest event, acquires the queue's ordering lock and serves the queue. Operands x: rafter; y: 1 for another turn of queue z % 16 of context z / 16. -/
  | rafterEventTake
  /-- LAUNCH_PACKET (R205). Activates work-record entries and starts a launch. Operands x: ctx, y: q, z: idx, u: 1 at its completion. -/
  | launchPacket
  /-- FEED_PACKET (R206). Appends work records to a launch's feed. Operands x: ctx, y: q, z: idx. -/
  | feedPacket
  /-- FENCE_PACKET (R207). Writes a fence record and advances the checkpoint. Operands x: ctx, y: q, z: idx, u: 4 to write again, 5 with the packet (v: its GTS, data) where the queue has begun anew. -/
  | fencePacket
  /-- WAIT_PACKET (R208). Blocks the queue until a masked memory comparison holds. Operands x: ctx, y: q, z: idx. -/
  | waitPacket
  /-- WAIT_REEVALUATION (R208). Re-reads a WAIT's address at least every 2 us or on a SIGNAL to it. Operands x: ctx, y: q, z: idx. -/
  | waitReevaluation
  /-- WAIT_TIMEOUT (R208). Stops the queue with WAITTMO when TMO ms pass with the condition false. Operands x: ctx, y: q, z: idx. -/
  | waitTimeout
  /-- INDIRECT_PACKET (R209). Executes packet slots taken from an indirect buffer. Operands x: ctx, y: q, z: idx. -/
  | indirectPacket
  /-- COPY_PACKET (R210). Copies bytes through copy queue cq3 of the context's lowest core. Operands x: ctx, y: q, z: idx, u: 1 done, 2 an engine error. -/
  | copyPacket
  /-- SIGNAL_PACKET (R211). Performs one release store, add or max at an address. Operands x: ctx, y: q, z: idx, u: 4 to write again, 5 with the packet (v: its GTS, data) where the queue has begun anew. -/
  | signalPacket
  /-- CANCEL_PACKET (R212). Performs kcanc on a work-record entry. Operands x: ctx, y: q, z: idx. -/
  | cancelPacket
  /-- MARK_PACKET (R213). Emits a trace mark and optionally stores the take GTS. Operands x: ctx, y: q, z: idx, u: 4 to write again, 5 with the packet (v: its GTS, data) where the queue has begun anew. -/
  | markPacket
  /-- DTLOAD_PACKET (R214). Loads a decode table from a privileged queue. Operands x: ctx, y: q, z: idx. -/
  | dtloadPacket
  /-- DISPATCH_DECISION (R241). Chooses a launch by priority and places one block on the best core. Operands x: ctx. -/
  | dispatchDecision
  /-- POWER_GATING_BEGIN (R243). A core idle for 10 us begins a 32-fc gating window. Operands x: core. -/
  | powerGatingBegin
  /-- GATING_COMMIT (R243). Gating commits at the end of the window unless a reservation cancelled it. Operands x: core. -/
  | gatingCommit
  /-- CORE_WAKE (R243). A gated core powers up in eight steps and the block's first group then issues. Operands x: core. -/
  | coreWake
  /-- BLOCK_EXIT (R244). When every group has exited, writes back maps, releases resources and counts the block. Operands x: blk. -/
  | blockExit
  /-- BLOCK_RESUME (R267). A saved block resumes whole on a core where it fits. Operands x: blk. -/
  | blockResume
  /-- TRAP_ENTRY (R446). Reads the vector entry and starts the handler in the trapping threads. Operands x: blk, y: j. -/
  | trapEntry
  /-- SWITCH_MARKER_COMPLETE (R121). A PARKED group becomes READY once its results have returned and its loads are final. Operands x: blk, y: j. -/
  | switchMarkerComplete
  /-- LOAD_RESULT_RETURN (R381). A variable-latency load result is written to its destination. Operands x: blk, y: j, z: id, u: lane. -/
  | loadResultReturn
  /-- SLEEP_WAKE (R355). A sleeping group becomes READY when GTS reaches its wake time. Operands x: blk, y: j. -/
  | sleepWake
  /-- YIELD_END (R355). A yielding group becomes eligible again after its period. Operands x: blk, y: j. -/
  | yieldEnd
  /-- STORE_QUEUE_PERFORM (R99). The head entry of a group's store queue is translated and performed or faults. Operands x: blk, y: j. -/
  | storeQueuePerform
  /-- MAP_FILL_COMPLETE (R73). A mapped line's fill arrives, the line becomes VALID and the triggering access is performed. Operands x: blk, y: entry, z: line. -/
  | mapFillComplete
  /-- ENGINE_OPERATION_TURN (R107). An engine operation begins when the operations before it in its queue allow. Operands x: core, y: queue. -/
  | engineOperationTurn
  /-- ENGINE_OPERATION_COMPLETE (R434). An engine operation's accesses are performed or it fails, completing it for batches and barriers. Operands x: core, y: queue. -/
  | engineOperationComplete
  /-- PROMISE_WAKE (R428). A SLEEP.P group wakes at the promise and proceeds, waits or takes PROMISE. Operands x: blk, y: j. -/
  | promiseWake
  /-- TMMA_TURN (R402). Adds the product terms of each slice into the tile in ascending k. Operands x: core. -/
  | tmmaTurn
  /-- TZERO_TURN (R406). Sets every element of the tile to the TZERO state. Operands x: core. -/
  | tzeroTurn
  /-- TRES_TURN (R406). Rewrites every element of the tile in canonical form. Operands x: core. -/
  | tresTurn
  /-- TCMP_TURN (R407). Decides each element's sign and writes GT and LT masks per row. Operands x: core. -/
  | tcmpTurn
  /-- TCMP_X_TURN (R407). Resolves the tile and decides every element's sign. Operands x: core. -/
  | tcmpXTurn
  /-- TDRAIN_TURN (R408). Drains the shape's elements with scales to the destination format. Operands x: core. -/
  | tdrainTurn
  /-- TSAVE_TURN (R409). Writes the tile as a redundant image with header. Operands x: core. -/
  | tsaveTurn
  /-- TSAVE_C_TURN (R409). Resolves the tile and writes it as a canonical image. Operands x: core. -/
  | tsaveCTurn
  /-- TLOAD_TURN (R410). Reads and checks an image and replaces the tile, or fails with IMAGE. Operands x: core. -/
  | tloadTurn
  /-- TPLANE_TURN (R411). Reads a BF16 tile and writes its plane form. Operands x: core. -/
  | tplaneTurn
  /-- TMOV_TURN (R406). Copies a tile's elements and state to another tile. Operands x: core. -/
  | tmovTurn
  /-- BRIDLE_GENERATION_COMPLETE (R285). When every block has arrived, writes REDW results, releases the blocks and advances the generation. Operands x: chan. -/
  | bridleGenerationComplete
  /-- PAGE_RE_WALK (R299). Walks a waiting access again on TLBI, PRQDONE or every 100 us. Operands x: id, y: 1 for a walk besides those every 100 us. -/
  | pageReWalk
  /-- PAGE_REQUEST (R300). Posts a page request record to the VF or device ring at the first wait on a page. Operands x: ctx, y: va, z: acc, u: 1 for a soft error, l[0]: GTS of the first wait; u: 2 tries the records again that wait for a page of the ring. -/
  | pageRequest
  /-- PRQDONE_WRITE (R300). A write to PRQDONE triggers re-walks of waiting accesses. Operands x: ring. -/
  | prqdoneWrite
  /-- GUTTER_DRAIN (R302). Rafters write a page's gutter slots in landing order when it first becomes RESIDENT. Operands x: ctx, y: va. -/
  | gutterDrain
  /-- PAGE_MOVE (R306). PMOV GO marks a hypervisor leaf MIGRATING and starts moving the page. -/
  | pageMove
  /-- PAGE_MOVE_COMPLETE (R306). After old accesses finish the page is copied, the leaf rewritten RESIDENT and waiters re-walked. Operands x: where the leaf lies, y: the leaf, z: level, u: gpa, v: bytes copied, l[0]: vf, l[1]: destination. -/
  | pageMoveComplete
  /-- TLBIH (R310). Host-side invalidation of translations started by GO. -/
  | tlbih
  /-- TLBI_COMPLETION (R309). An invalidation completes when every access using a removed entry is settled. Operands x: id. -/
  | tlbiCompletion
  /-- FRR_COMMIT (R85). A write of word 0 of a format range register commits all four words or is refused. Operands x: n, v: v. -/
  | frrCommit
  /-- PORT_ENABLE (R313). EN := 1 moves a DOWN port to TRAINING. Operands x: p. -/
  | portEnable
  /-- PORT_DISABLE (R313). EN := 0 moves a port to DRAINING or DOWN. Operands x: p. -/
  | portDisable
  /-- RETRAIN (R313). PCTL CMD RETRAIN moves a DEGRADED or FAILED port to TRAINING. Operands x: p. -/
  | retrain
  /-- PORT_DRAIN (R313). PCTL CMD DRAIN moves an up port to DRAINING. Operands x: p. -/
  | portDrain
  /-- TRAINING_ATTEMPT_END (R313). A training attempt ends with both lanes, one lane or failure. Operands x: p, y: l0 (0 or 1), z: l1 (0 or 1), u: partner, l[0]: sw. -/
  | trainingAttemptEnd
  /-- LANE_FAILURE (R313). A lane loses lock or has 16 uncorrectable flits in 1 ms and the port degrades or retrains. Operands x: p, y: lane. -/
  | laneFailure
  /-- DRAINING_END (R313). A DRAINING port goes DOWN or TRAINING when traffic ends or 1 ms passes. Operands x: p. -/
  | drainingEnd
  /-- FLIT_RECEIVED (R315). A scale-up flit is corrected, checked and delivered in sequence or requested again. Operands x: p, y: seq, z: corrected, u: good (0 or 1), l[0]: lane, data: payload. -/
  | flitReceived
  /-- LINK_RETRY_REQUEST (R315). The sender resends a flit from its retry buffer. Operands x: p, y: seq. -/
  | linkRetryRequest
  /-- DEVICE_UNREACHABLE (R314). A device with no usable port for 2 ms becomes unreachable. Operands x: dev. -/
  | deviceUnreachable
  /-- PEER_REQUEST_ARRIVAL (R319). The home performs a peer request in order, discards duplicates or refuses it. Operands x: dev, y: core, z: seq, u: kind, l[0]: pa, l[1]: size, data: data. -/
  | peerRequestArrival
  /-- PEER_RESPONSE_ARRIVAL (R318). Peer load data or a store acknowledgement arrives at the issuer. Operands x: home, y: core, z: seq, u: refused (0 or 1), data: data. -/
  | peerResponseArrival
  /-- MESSAGE_ARRIVAL (R323). The destination checks an active message and spawns, queues or answers it. Operands x: dev, y: srcCtx, z: srcCore, u: srcBlk, l[0]: srcGroup, l[1]: seq, l[2]: ctx, l[3]: hidx, v: key, data: payload. -/
  | messageArrival
  /-- MESSAGE_ANSWER_ARRIVAL (R323). A message status is written into the sender's status ring. Operands x: blk, y: j, z: seq, u: status, v: reply. -/
  | messageAnswerArrival
  /-- COLL_FRAGMENT_ARRIVAL (R330). A collective fragment is combined once at the receiving slice. Operands x: core, y: cid, z: member, u: off, data: data. -/
  | collFragmentArrival
  /-- ETHERNET_FRAME_RECEIVED (R332). Accepts acknowledgements, NACKs and read responses of own requests and discards others. Operands x: p, y: nsq, z: kind, u: req, l[0]: off, data: data. -/
  | ethernetFrameReceived
  /-- PERR_READ (R311). Reading PERR returns and clears the port error counts. Operands x: p, y: 0 for the physical function, n + 1 for virtual function n. -/
  | perrRead
  /-- PDISC_READ (R311). Reading PDISC returns and clears the discarded frame count. Operands x: p, y: 0 for the physical function, n + 1 for virtual function n. -/
  | pdiscRead
  /-- NSQ_NDISC_READ (R333). Reading a send queue's NDISC returns and clears it. Operands x: n, y: 0 for the physical function, n + 1 for virtual function n. -/
  | nsqNdiscRead
  /-- HOST_LINK_WRITE (R200). A host-link write is performed in arrival order. Operands x: fn (64 the physical function), y: pa, data: data; u: 1 for a read of z bytes. -/
  | hostLinkWrite
  /-- L2_REQUEST_ACCEPT (R492). An L2 slice accepts a request into its queue and starts its lookup. Operands x: slice, y: line, z: requesting core, u: 1 or 2 for the line of a prefetch to the L2 or the L1, l[0]: context, l[1]: va. -/
  | l2RequestAccept
  /-- L2_LINE_RETURN (R492). A slice sends a hit line's two flits and frees its queue entry. Operands x: slice, y: line, z: requesting core, u, l: those of the request. -/
  | l2LineReturn
  /-- DBGCTL_WRITE (R460). Arms breakpoints, halts or releases groups, or enables stepping. Operands x: ctx, y: priv, v: v. -/
  | dbgctlWrite
  /-- DREL_RUN (R463). Releases the held threads of the oldest stop. Operands x: ctx. -/
  | drelRun
  /-- DREL_STEP (R463). Lets the oldest stopped group perform one issue and stop again. Operands x: ctx. -/
  | drelStep
  /-- DACC_READ (R465). Reads a register of a held group into DDATA. Operands x: ctx, y: priv. -/
  | daccRead
  /-- DACC_WRITE (R465). Writes DDATA to a register of a held group. Operands x: ctx, y: priv. -/
  | daccWrite
  /-- TRACE_RECORD_WRITE (R468). Writes a selected event's record to the trace ring in GTS order or marked LATE. Operands x: ctx, y: code, z: src, u: gts, l[0]: a1, l[1]: a2, l[2]: a3. -/
  | traceRecordWrite
  /-- SAMPLE_TAKE (R495). When the countdown expires, samples the next resident group and writes a record. Operands x: core, y: 1 to write the record once the choice of the fc is known (z: block, u: group, l: slot, lane, PC, kernel id). -/
  | sampleTake
  /-- SENSOR_SAMPLE (R477). Samples each cluster's sensors every 1 us. -/
  | sensorSample
  /-- SUPPLY_UPDATE (R480). Sets each cluster's supply to its leakage-aware point every 10 us. -/
  | supplyUpdate
  /-- THROTTLE_EVALUATION (R481). Moves each cluster's throttle level by at most one step every 10 us. -/
  | throttleEvaluation
  /-- POWER_EXCURSION (R483). Forces every cluster to level 2 or higher when power exceeds its limits. -/
  | powerExcursion
  /-- EXCURSION_HOLD_END (R483). Normal throttle evaluation resumes 1 ms after an excursion. -/
  | excursionHoldEnd
  /-- TELEMETRY_SNAPSHOT (R479). Writes PWRSTAT and every CLTH to host memory at each period. -/
  | telemetrySnapshot
  /-- THERMAL_TRIP (R488). At 120 C or flow loss gates every cluster and holds the device in reset. -/
  | thermalTrip
  /-- FUNCTION_LEVEL_RESET (R488). A function-level reset of the physical function after a trip. -/
  | functionLevelReset
  /-- POWER_UP (R485). Powers the clusters in ascending order 4 us apart. Operands x: cluster. -/
  | powerUp
  /-- BOOT (R489). The boot ROM verifies configuration and modules and records measurements. -/
  | boot
  /-- ATTESTATION_REQUEST (R490). ATTREQ GO writes a signed attestation report. -/
  | attestationRequest
  /-- CORRECTED_SOFT_ERROR (R486). A corrected soft error increments SERCNT.CORR. -/
  | correctedSoftError
  /-- UNCORRECTABLE_SOFT_ERROR (R487). An uncorrectable error is counted and handled by where it lies. Operands x: 0 a register (y: block, z: group, l: lane, register), 1 a tile (y: block, z: tile), 2 a memory line (y: its address), 3 state of a context (y: the context); u: the unit it lies in plus one, as 4096 × class + number, or 0. -/
  | uncorrectableSoftError
  /-- SERCNT_READ (R478). Reading SERCNT returns and clears the soft error counts. Operands y: 0 for the physical function, n + 1 for virtual function n. -/
  | sercntRead
  /-- REGISTER_WRITE (R6). A write to a control-space register without behaviour of its own. Operands x: pa (plus 1 for the half written by a 4-byte write), y: priv, z: vf (64 none), v: v. -/
  | registerWrite
  /-- ENGINE_OPERATION_STOP (R180). At T + 20 us a begun engine operation of a lapsing block stops at its next step boundary and its remainder is saved. Operands x: core, y: queue. -/
  | engineOperationStop
  /-- ICINV_COMPLETION (R455). ICINV completes, within 2 us, once the decode barriers on every held core have discarded the overlapping packets. Operands x: id. -/
  | icinvCompletion
  /-- ATTESTATION_REPORT_WRITTEN (R490). The attestation unit writes the signed report, within 20 ms, and GO clears. -/
  | attestationReportWritten
  /-- HOST_LINK_TRAINING (R29). The PCI Express host link trains, or retrains down in rate or width, when the link partner or lanes are lost or regained. Operands x: rate in 0.1 GT/s, y: width. -/
  | hostLinkTraining
  /-- GTS_SYNCHRONISATION (R33). A device synchronises its GTS to the domain's time master, and then corrects it by slewing. Operands x: master. -/
  | gtsSynchronisation
  /-- PACKET_RETRANSMISSION (R431). A UET packet not acknowledged in time is retransmitted, and after eight retransmissions the CPY.N fails with cause NET. Operands x: core. -/
  | packetRetransmission
deriving DecidableEq, Repr

end Sys2Proof
end

