-- ==== Sys2Proof/Machine/Parts.lean ====
section
/-!
DEFINITION. The parts of the state below a context: threads, groups, blocks, their queues, barriers, tiles and engine operations, and the
state of a core. Each structure is plain data; a docstring names the rule of spec/ that gives a field.
-/

namespace Sys2Proof.Machine

/-- The state of a thread (10 R248). -/
inductive TMode where
  | active
  /-- PARKED-AT-SCOPE. -/
  | parked
  | trapped
  | exited
deriving DecidableEq, Repr

/-- A sealed batch of engine operations of a thread (18 R425): its number, operations unfinished, promise. -/
structure Batch where
  num : Nat
  left : Nat
  prom : Nat
deriving DecidableEq, Repr

/-- A thread (10 R248): PC, state, registers, trap registers (19 R447) and engine batches (18 R425). -/
structure Thread where
  pc : CodeAddr := 0
  mode : TMode := .exited
  /-- The state before the trap, restored by RETT (19 R450). -/
  before : TMode := .active
  /-- Scope at which the thread is parked (R254); 4 for the rendezvous of RETT, whose members are the handler threads (19 R450). -/
  psc : Nat := 0
  /-- One of the handler threads while the group's HM = 1 (19 R446). -/
  handler : Bool := false
  /-- Held by the debugger (20 R462). -/
  held : Bool := false
  /-- w0 to w31; w16 and above lie in the extended granule (10 R261). -/
  w : Tab Word := []
  /-- w registers that hold an uncorrectable soft error (21 R487). -/
  bad : List Nat := []
  /-- p0 to p2 (14). -/
  p : Tab Bool := []
  tpc : DWord := 0
  tepc : DWord := 0
  taddr : DWord := 0
  tsyn : DWord := 0
  /-- Batch counter, 16 bits. -/
  bseq : Nat := 0
  /-- Unfinished operations of the open batch. -/
  openLeft : Nat := 0
  /-- Largest promise of the open batch. -/
  openProm : Nat := 0
  /-- Promise of the batch sealed last (18 R425). -/
  sealProm : Option Nat := none
  /-- Sealed batches that are not finished, oldest first. -/
  sealed : List Batch := []
  /-- Unfinished engine operations of the thread by identity, in issue order, for release atomics (04 R113). -/
  engOps : List Nat := []
  /-- Engine commands wait for the accesses below this sequence number (FENCE.E, R111; an acquire atomic, R113). -/
  fenceAt : Nat := 0
  /-- Arrivals by BARV in a generation that later failed: barriers at which MASK is due (11 R280). -/
  maskDue : List Nat := []
deriving DecidableEq, Repr

/-- One lane's access within a queue or log entry (04 R99, R100). -/
structure Acc where
  j : Nat := 0
  lane : Nat
  /-- A global VA, or a scratchpad or eaves offset. -/
  addr : Nat
  /-- 0 global, 1 scratchpad, 2 eaves; the lanes of an atomic may differ (05 R127). -/
  sp : Nat := 0
  /-- Store data bytes 0 to 7, or an atomic's operands. -/
  lo : DWord := 0
  /-- Store data bytes 8 to 15; for CAS the new value. -/
  hi : DWord := 0
  /-- 0 waiting, 1 returned or performed, 2 faulted, 3 sent to a peer, 5 due to return as soon as it is final. -/
  st : Nat := 0
  /-- A load's position in the order is fixed and its value known (R102). -/
  cap : Bool := false
  /-- Syndrome of a fault (12 R303). -/
  syn : Nat := 0
  /-- 0x0B or 0x0D for a control-space or peer failure, else 0 (16 R378). -/
  det : Nat := 0
  /-- The value the lane last received. -/
  val : List Byte := []
deriving DecidableEq, Repr

/-- What a pending variable-latency result is (05 R121). -/
inductive PendKind where
  /-- A load, replayed until it is final (04 R102). -/
  | load
  /-- An atomic's old value; the store queue entry of the same id performs it. -/
  | atom
  /-- A value already determined: SFRD, PROBE, promises, TCMP. -/
  | value
  /-- A completion without a register: TLBI, ICINV. -/
  | completion
  /-- TWAIT: it completes when the command of its ticket and every earlier one has finished (17 R413). -/
  | twait
deriving DecidableEq, Repr

/-- A pending result; a logged one occupies the operand log (04 R100). -/
structure Pend where
  id : Nat
  kind : PendKind
  logged : Bool := false
  /-- Position in the group's issue order. -/
  seq : Nat
  /-- Size in bytes of each access. -/
  size : Nat := 4
  signed : Bool := false
  /-- Destination w register. -/
  d : Nat := 0
  /-- Registers whose write a younger write has cancelled (10 R265). -/
  cancel : List Nat := []
  accs : List Acc := []
  /-- The ticket of a TWAIT. -/
  tick : Nat := 0
  pc : CodeAddr := 0
  /-- Scope of the word that issued it. -/
  sc : Nat := 0
  /-- Sequence numbers of handlers that count as older: the load was replayed at their RETT (04 R103, 16 R391). -/
  after : List (Nat × Nat) := []
  /-- A switch marker has followed the load: later writes no longer cancel its own (10 R265). -/
  marked : Bool := false
  /-- The issue at set or block scope that it belongs to with those of the other member groups; 0 for none (16 R380). -/
  iss : Nat := 0
deriving DecidableEq, Repr

/-- What a store queue entry performs (04 R99). -/
inductive SqKind where
  | store
  | atom (op ms : Nat)
  /-- SWB of lines `first` to `first + nm1` of a map entry. -/
  | swb (entry first nm1 : Nat)
  | sunmap (entry : Nat)
deriving DecidableEq, Repr

/-- A store queue entry; one that faulted is its own store-fault record (04 R101, 16 R393). -/
structure SqEntry where
  id : Nat
  kind : SqKind
  seq : Nat
  size : Nat := 4
  /-- Opcode as fetched, modifier, repetition index and PC for the record (16 R393). -/
  op : Nat := 0
  mo : Nat := 0
  repi : Nat := 0
  pc : CodeAddr := 0
  d : Nat := 0
  /-- Scope of the word that issued it. -/
  sc : Nat := 0
  accs : List Acc := []
  /-- CAUSE of the record once the entry has faulted. -/
  fault : Option Nat := none
  /-- Waiting for an acknowledgement of a peer home. -/
  sent : Bool := false
  /-- For an entry that re-entered the queue at a RETT: the sequence numbers of handlers, which count as older (16 R391). -/
  after : List (Nat × Nat) := []
  /-- The issue at set or block scope that it belongs to with those of the other member groups; 0 for none (16 R380). -/
  iss : Nat := 0
deriving DecidableEq, Repr

/-- The wait a group is in (10 R249). -/
inductive GWait where
  | none
  /-- SLEEP until a GTS. -/
  | sleep (wake : Nat)
  /-- WPOP.SLEEP on a feed: destination, guarded lanes. -/
  | feed (f d : Nat) (lanes : List Nat)
  /-- SLEEP.P until a GTS: its scope, the lanes of its issue, and the batches that lanes name. -/
  | promise (wake sc : Nat) (lanes : List Nat) (named : List (Nat × Nat))
  /-- SLEEP.P awake, waiting charged to ENGINE. -/
  | promiseWait (named : List (Nat × Nat))
  /-- BWAIT or BSYNC: lane, barrier, generation, whether its condition is met. -/
  | barrier (who : List (Nat × Nat × Nat × Bool))
  /-- REDB or REDW. -/
  | bridle
  /-- XACQ, or XTRY never waits. -/
  | xacq
  /-- SDECL: tag, count, destination, guarded lanes. -/
  | sdecl (tag k d : Nat) (lanes : List Nat)
deriving DecidableEq, Repr

/-- The kind of report point a group is parked at (04 R101, 19 R446). -/
inductive MarkKind where
  | switch
  | exit
deriving DecidableEq, Repr

/-- A pending switch marker (05 R121): the PC and lanes of its issue. -/
structure Marker where
  kind : MarkKind
  pc : CodeAddr
  sc : Nat
  lanes : List Nat
  /-- Lanes that exit when the marker completes: an EXIT chained behind a word whose result is outstanding (05 R121, 14 R353). -/
  ends : List Nat := []
  /-- The marker of an EXIT, which waits for the store queue too (22 R491). -/
  drain : Bool := false
  /-- The group's extended granule returns when the marker completes: an XREL chained in the same way (10 R261). -/
  rel : Bool := false
deriving DecidableEq, Repr

/-- A trap raised and not yet entered (19 R446). -/
structure Pending where
  cause : Nat
  prec : Bool
  sc : Nat
  det : Nat
  arg : Nat
  repi : Nat
  /-- Per trapping lane: TPC, TEPC, TADDR, TSYN. -/
  lanes : List (Nat × Nat × Nat × Nat × Nat)
  /-- A fault of a set-scope access, which suspends every group of the set (10 R257). -/
  setf : Bool := false
  /-- An LFAULT or SFAULT that the store-fault record queue causes (16 R391). -/
  recq : Bool := false
deriving DecidableEq, Repr

/-- A REP issue in progress (05 R131): the issue, and the repetitions not yet executed as they were decoded (R137). -/
structure RepRun where
  head : Nat
  pc : Nat
  next : Nat
  sc : Nat
  members : List (Nat × Nat)
  groups : List Nat
  marker : Bool
  op : Nat
  iop : Nat
  /-- Count and steps. -/
  rep : Nat × Nat × Nat × Nat
  /-- Index of the next repetition, and the words from it on. -/
  i : Nat
  words : List Instr
deriving DecidableEq, Repr

/-- An engine error record (18 R436): words 0 to 3. -/
structure ErrRec where
  w0 : DWord
  w1 : DWord
  w2 : DWord
  w3 : DWord
deriving DecidableEq, Repr

/-- A group (10 R249 to R266). -/
structure Group where
  slot : Nat := 0
  /-- Base granule and, when XH = 1, the extended granule. -/
  gran : Nat := 0
  xgran : Option Nat := none
  thr : Tab Thread := []
  g : Tab Word := []
  /-- Divergent-write flags (R259). -/
  gflag : Tab Bool := []
  udt : Bool := false
  udiv : Bool := false
  fpc : Word := 0
  sel : Nat := 0
  /-- GROUP.REPI (05 R132), and its value for the code that a running handler has interrupted. -/
  repi : Nat := 0
  repSave : Nat := 0
  /-- The REP issue in progress, and the group whose REP issue this group takes part in. -/
  rep : Option RepRun := none
  inRep : Option Nat := none
  wait : GWait := .none
  /-- PC of the waiting word's issue (R251). -/
  waitPc : Nat := 0
  marker : Option Marker := none
  waitc : Nat := 0
  /-- GTS of the block's first dispatch (R252). -/
  age : Nat := 0
  /-- The first fc at which the group may issue again. -/
  notBefore : Nat := 0
  /-- Stall reason charged meanwhile (20 R471). -/
  stall : Nat := 0
  nextSeq : Nat := 0
  sq : List SqEntry := []
  /-- The set-aside area (16 R391). -/
  aside : List SqEntry := []
  pend : List Pend := []
  hm : Bool := false
  tcause : Word := 0
  tinfo : DWord := 0
  trap : Option Pending := none
  /-- First sequence number of the running handler, whether store-fault records caused it (16 R391), and the marker at which it was taken (04 R103). -/
  hseq : Nat := 0
  sfh : Bool := false
  tmark : Option Marker := none
  /-- The LAPSE traps due at the next markers: the ARG of each notice, oldest first (06 R159). -/
  lapse : List Nat := []
  /-- A SOFTERR due at the next report point: detail, argument. -/
  softErr : Option (Nat × Nat) := none
  /-- ENGINE due for a tile command: code, ticket (17 R415). -/
  tileErr : Option (Nat × Nat) := none
  engErr : List ErrRec := []
  engDrop : Nat := 0
  /-- Message sequence counter and status ring (13 R322). -/
  amseq : Nat := 0
  amst : Tab Nat := []
  priv : Nat := 0
  /-- Debugger stop in progress, stepping, and the breakpoint to ignore at the next issue (20 R462 to R464). -/
  dbgStop : Bool := false
  dbgStep : Bool := false
  dbgPass : Bool := false
  /-- A STEP trap due after the last issue: its PC and lanes (20 R464). -/
  stepDue : Option (Nat × List Nat) := none
  /-- Set of the group: tag and position, when it is a member of a complete set (R262). -/
  inSet : Option Nat := none
  /-- The group has taken, and not returned from, a set-scope fault (R257). -/
  setFault : Bool := false
  /-- The rendezvous of a set-scope word became complete when the group's set dissolved (R255, R262). -/
  joined : Bool := false
  /-- CANCEL was taken in WAIT-BARRIER: the threads count as EXITED for every barrier (11 R282). -/
  outBar : Bool := false
  done : Bool := false
deriving DecidableEq, Repr

/-- A map entry with its line states (03 R72). -/
structure MapEntry where
  v : Bool := false
  ro : Bool := false
  sline : Nat := 0
  nlm1 : Nat := 0
  vline : Nat := 0
  /-- VALID lines, by index within the entry. -/
  valid : List Nat := []
  /-- Byte-dirty masks, 128 bits each, by index within the entry. -/
  dirty : Tab Nat := []
  /-- Lines that an SINV makes INVALID once their fill in progress has completed (16 R394). -/
  inval : List Nat := []
deriving DecidableEq, Repr

/-- The state of a barrier (11 R268). -/
structure Barrier where
  gen : Nat := 0
  /-- 0 IDLE, 1 FILLING, 2 FAULT. -/
  st : Nat := 0
  member : DWord := 0
  arr : Nat := 0
  eng : Nat := 0
  enga : Nat := 0
  ecarry : Nat := 0
  /-- Threads arrived in the current generation, as (j, lane). -/
  who : List (Nat × Nat) := []
deriving DecidableEq, Repr

/-- A set under a tag: its size, its declarers, and its members by position once complete (10 R262). -/
structure GSet where
  k : Nat := 0
  declarers : List Nat := []
  members : List Nat := []
deriving DecidableEq, Repr

/-- CLASS of an accumulator element (02 R56). -/
inductive ECls where
  | fin
  | nan
  | pinf
  | ninf
deriving DecidableEq, Repr

/-- An accumulator element in redundant form (02 R56, R61). -/
structure Elem where
  cls : ECls := .fin
  e : Int := -2048
  sum : BitVec 128 := 0
  carry : BitVec 128 := 0
deriving DecidableEq, Repr

/-- A tile (17 R399): state code, UND flag, saved step, elements in row-major order. -/
structure Tile where
  st : Nat := 0
  und : Bool := false
  stepNo : Nat := 0
  el : Tab Elem := []
deriving DecidableEq, Repr

/-- What a tile command does at its turn (17 R398). -/
inductive TileOp where
  | tmma (pb : List Byte) (c0 c1 : Nat)
  | tzero (z : Nat)
  | tres (z : Nat)
  | tcmp (d z : Nat)
  | tcmpX (d z : Nat)
  | tdrain (rm : Nat) (pb : List Byte) (c0 c1 : Nat) (fpc : Nat)
  | tsave (addr z : Nat)
  | tsaveC (addr z : Nat)
  | tload (addr z : Nat)
  | tplane (sp addr off : Nat)
  | tmov (d a : Nat)
deriving DecidableEq, Repr

/-- An entry of a core's tile queue (17 R395, R396). -/
structure TileCmd where
  blk : Nat
  j : Nat
  ticket : Nat
  op : TileOp
  /-- Threads counted as issuing the command: (j, lane). -/
  who : List (Nat × Nat)
  /-- The pending results a TCMP returns to: group, id. -/
  pend : List (Nat × Nat) := []
  begun : Bool := false
  /-- Accesses of a group below a sequence number that the command waits for (04 R109, R113). -/
  fence : List (Nat × Nat) := []
  /-- Identity of the command among its threads' engine operations (04 R113). -/
  id : Nat := 0
  /-- The longer time of a redundant image has been counted (17 R398). -/
  wide : Bool := false
  /-- Discarded at its next slice boundary: its block was marked for termination (17 R416). -/
  stop : Bool := false
  /-- An MTS to FPC has replaced the flags that the command would set (02 R43). -/
  stale : Bool := false
deriving DecidableEq, Repr

/-- The kinds of engine operation (18 R417, 08 R210). -/
inductive EngKind where
  | cpy
  | gath
  | cpyN
  | coll
  /-- QFENCE: the queues it names (04 R108). -/
  | fence (qs : List Nat)
  /-- A COPY packet of a queue (08 R210). -/
  | packet (ctx q idx : Nat)
deriving DecidableEq, Repr

/-- An engine operation in a slice queue. -/
structure EngOp where
  id : Nat
  kind : EngKind
  ctx : Nat := 0
  blk : Nat := 0
  j : Nat := 0
  lane : Nat := 0
  /-- The layout record as read at issue. -/
  lrec : List Byte := []
  c0 : Nat := 0
  c1 : Nat := 0
  prom : Nat := 0
  /-- Sealed batch number, or none while the batch is open. -/
  batch : Option Nat := none
  begun : Bool := false
  /-- Bytes already performed, for a saved remainder (07 R180), and the index of the row in progress, as a gather has read it. -/
  pos : Nat := 0
  idx : Option Nat := none
  /-- GTS at issue, class and bytes for its promise (18 R424), and the pending result its promise returns to. -/
  gts0 : Nat := 0
  cls : Nat := 0
  len : Nat := 0
  pend : Nat := 0
  /-- Network packets not yet acknowledged, or bytes not yet returned: offset and contents (18 R431). -/
  pkts : List (Nat × List Byte) := []
  /-- The thread's group is gone: errors and arrivals are discarded (18 R434). -/
  orphan : Bool := false
  /-- Retransmissions of the current packet (18 R431). -/
  tries : Nat := 0
  /-- Awaiting the network, a peer or the other members. -/
  away : Bool := false
  /-- Accesses of the group below this sequence number that the operation waits for (04 R109, R113). -/
  fence : Nat := 0
deriving DecidableEq, Repr

/-- A block (09 R237 to R246). -/
structure Block where
  ctx : Nat := 0
  /-- The launch it belongs to; none for a message block (13 R324). -/
  launch : Option Nat := none
  index : Nat := 0
  grps : Nat := 0
  /-- The core it is resident on; none while it is saved in the image. -/
  core : Option Nat := none
  slot : Nat := 0
  /-- Waiting for its core to wake (09 R243). -/
  waking : Bool := false
  groups : Tab Group := []
  /-- Scratchpad units and eaves units, as unit numbers (03 R70, R80). -/
  units : List Nat := []
  eunits : List Nat := []
  /-- Extra units that hold the shadow bytes (11 R289). -/
  xunits : List Nat := []
  /-- The saved scratchpad and eaves contents of a saved block, on their way to and from its record (03 R78). -/
  saved : Tab Byte := []
  /-- The 64 KiB unit of the image, from 0x10_0000 on, at which the record of a saved block begins, once it is written (06 R162). -/
  recAt : Option Nat := none
  /-- The number of the free bytes of its record's opaque parts (06 R162). -/
  recNo : Nat := 0
  maps : Tab MapEntry := []
  bars : Tab Barrier := []
  bgc : Nat := 0
  sets : Tab GSet := []
  acc : Nat := 0
  tiles : Tab Tile := []
  /-- TKT, DONE, ERR and ERRC (17 R396, R412). -/
  tkt : Nat := 0
  done : Nat := 0
  err : Bool := false
  errc : Nat := 0
  /-- The group that takes the trap of the failure. -/
  errJ : Nat := 0
  checked : Bool := false
  /-- Shadow bytes by scratchpad word (11 R289). -/
  shadow : Tab Nat := []
  /-- Marked for termination (09 R245). -/
  marked : Bool := false
  /-- Bridle arrival in the current generation: kind and control, offset, destination, lanes (11 R285). -/
  bridle : Option (Nat × Nat × Nat × List (Nat × Nat)) := none
  bridleData : List DWord := []
  /-- Sender of a message block: device, context, core, block, group, sequence (13 R324). -/
  sender : Option (List Nat) := none
  /-- Engine operations of a saved block, in queue order, with their queue (06 R153). -/
  engSaved : List (Nat × EngOp) := []
  tileSaved : List TileCmd := []
  priv : Nat := 0
  /-- Kernel id, extended registers allowed, SETK, heat class (09 R235). -/
  kid : Nat := 0
  xreg : Bool := false
  setk : Nat := 0
  heat : Nat := 0
  age : Nat := 0
  /-- Kept from issuing: pre-emption or exit in progress. -/
  stopped : Bool := false
deriving DecidableEq, Repr

/-- A fragment of a collective that the slice holds: CID, sending member, offset, bytes, and the parameters its sender issued with: COP, CTYP, RLEN
and the member list (18 R433). -/
structure Frag where
  cid : Nat
  frm : Nat
  off : Nat
  data : List Byte := []
  params : List Nat := []
  /-- The context whose collective it belongs to. -/
  ctx : Nat := 0
deriving DecidableEq, Repr

/-- A core (09 R243, 17 R395, 18 R417, 20 R469, 22 R492). -/
structure CoreSt where
  idleSince : Nat := 0
  /-- 0 powered, 1 in the gating window, 2 gated, 3 waking. -/
  gate : Nat := 0
  dark : Bool := false
  tileQ : List TileCmd := []
  /-- Slice queues 0 to 6. -/
  engQ : Tab (List EngOp) := []
  /-- Promise of the last operation of each queue (18 R424). -/
  lastProm : Tab Nat := []
  /-- Issues whose operations are still entering a queue (18 R418). -/
  entering : List (Nat × EngOp) := []
  /-- Message send queue: destination and contents (13 R322). -/
  sendQ : List (List Nat) := []
  /-- Groups waiting in XACQ, oldest first: block, group (10 R261). -/
  xacqQ : List (Nat × Nat) := []
  /-- The group chosen last: GTS, block, group (20 R469, R470). -/
  chosen : Option (Nat × Nat × Nat) := none
  /-- The groups that were eligible at the last choice: GTS, and block and group of each. -/
  elig : Nat × List (Nat × Nat) := (0, [])
  /-- Sampler: one past the slot sampled last, and samples dropped (20 R469); the end of its countdown stands on the agenda (22 R495). -/
  smpSlot : Nat := 0
  smpDrop : Nat := 0
  /-- Requests accepted by the L2 slice under the core: line address and requester, at most 16 (03 R83, 22 R492). -/
  l2Q : List (Nat × Nat) := []
  /-- Requests that wait ahead of that slice, oldest first (03 R83): line address, requester, purpose, context, address. -/
  l2Wait : List (List Nat) := []
  /-- The half nanosecond in which the core may send its next request to the L2 (22 R493). -/
  l2Next : Nat := 0
  /-- Held COLL fragments (18 R433). -/
  frags : List Frag := []
deriving DecidableEq, Repr

end Sys2Proof.Machine
end

