-- ==== Sys2Proof/Machine/Context.lean ====
section
/-!
DEFINITION. The parts of the state that a context holds: its registers, queues, launches, work-record nodes, notices, debug window, trace
rings and profiling sessions (06_context.md, 08_queue.md, 09_kernel.md, 13_link.md, 20_observe.md).
-/

namespace Sys2Proof.Machine

/-- The states of a context (06 R147), with their codes 0 to 7. -/
inductive CtxState where
  | free
  | created
  | runnable
  | running
  | suspended
  | migrating
  | faulted
  | destroyed
deriving DecidableEq, Repr

/-- A feed of a launch (08 R217): its depth, its records oldest first, whether it is closed, and its sleepers oldest first. -/
structure Feed where
  depth : Nat := 0
  recs : List (List Byte) := []
  closed : Bool := false
  /-- Groups asleep in WPOP.SLEEP: block, group. -/
  sleepers : List (Nat × Nat) := []
deriving DecidableEq, Repr

/-- A bridle channel (11 R283): the launch that holds it, and its generation. -/
structure Chan where
  holder : Option (Nat × Nat) := none
  gen : Nat := 0
  /-- Contributions of blocks that arrived in this generation and have been terminated since: index, kind, data (R286). -/
  past : List (Nat × Nat × List DWord) := []
deriving DecidableEq, Repr

/-- An active launch (09 R230 to R239): Gyold's own copy of its entry, descriptor and record. -/
structure Launch where
  entry : Nat := 0
  /-- PARENT of the launch entry, and the queue and packet it came from. -/
  parent : Nat := 0xFFFF
  queue : Nat := 0
  pidx : Nat := 0
  priv : Nat := 0
  /-- Descriptor fields (R235). -/
  kid : Nat := 0
  setk : Nat := 0
  feedsN : Nat := 0
  bco : Bool := false
  xreg : Bool := false
  heat : Nat := 0
  acc : Nat := 0
  eaves : Nat := 0
  scratch : Nat := 0
  code : Nat := 0
  /-- Record fields (R236). -/
  recVa : Nat := 0
  args : Nat := 0
  gx : Nat := 1
  gy : Nat := 1
  gz : Nat := 1
  grps : Nat := 1
  next : Nat := 0
  count : Nat := 0
  target : Nat := 0
  dropped : Nat := 0
  cnc : Bool := false
  hard : Bool := false
  feeds : Tab Feed := []
  chan : Option Nat := none
  /-- The state of the channel of a gang that has migrated, until the gang fits with a channel here (11 R283). -/
  chanSaved : Option Chan := none
  /-- GTS of the take, for the order of launches (08 R220). -/
  takeGts : Nat := 0
  /-- Held off by a priority stop or a refusal to fit (08 R221). -/
  held : Bool := false
deriving DecidableEq, Repr

/-- An active graph, phase or job node: Gyold's own copy (09 R231). -/
structure Node where
  level : Nat := 1
  parent : Nat := 0xFFFF
  count : Nat := 0
  target : Nat := 0
  cnc : Bool := false
  hard : Bool := false
  /-- 1 ACTIVE, 2 COMPLETE, 3 CANCELLED. -/
  st : Nat := 1
deriving DecidableEq, Repr

/-- A packet taken and not complete (08 R198, R205): its slot index, its bytes and, for a WAIT, its deadline (0 for none). -/
structure Taken where
  idx : Nat
  /-- Index within an indirect buffer plus one, or 0 for a ring packet. -/
  ib : Nat := 0
  bytes : List Byte := []
  deadline : Nat := 0
  /-- GTS of the take. -/
  gts : Nat := 0
  /-- For a FENCE: the checkpoint it makes, and the GTS in a record that stands unanswered at a peer home. -/
  ck : Nat × Nat := (0, 0)
  wgts : Option Nat := none
deriving DecidableEq, Repr

/-- A queue of a context (08 R194 to R201). -/
structure Queue where
  /-- QCFG bits [63:0] as written (R195). -/
  cfg : DWord := 0
  tail : Nat := 0
  head : Nat := 0
  ckpt : Nat := 0
  iboff : Nat := 0
  eidx : Nat := 0
  /-- Where the failing packet lies: 0 in the ring, else its offset in the buffer plus one. -/
  eib : Nat := 0
  ecode : Nat := 0
  /-- Continuation slots of the packet that failed at its take (R223). -/
  econt : Nat := 0
  reason : Nat := 0
  /-- State code (R197). -/
  st : Nat := 0
  locked : Bool := false
  pending : Bool := false
  /-- Packets taken and incomplete, in order. -/
  taken : List Taken := []
  /-- Packets taken before the queue was enabled anew, which run on (R198); an index from 2^64 on stands for theirs. -/
  old : List Taken := []
  /-- The position inside the indirect buffer of the packet at HEAD: address, count, offset. -/
  ibuf : Option (Nat × Nat × Nat) := none
  /-- The fetch block last read: its address and bytes (R215). -/
  ibBlk : Option (Nat × List Byte) := none
  /-- Offset at which a replay enters the buffer at HEAD (R227, R228). -/
  startOff : Nat := 0
  /-- Packets to execute once more, by place (R223). -/
  again : List (Nat × Nat) := []
  /-- Failures held behind an older incomplete packet (R223). -/
  fails : List (Nat × Nat × Nat) := []
deriving DecidableEq, Repr

/-- A record waiting to be written to a ring: bytes, with the ring's code (06 R158). -/
structure RingRec where
  /-- 0 notices, 2 trace records, 3 samples; 4 a write of Gyold's own, its address in the first 8 bytes (09 R231). -/
  ring : Nat
  bytes : List Byte
  /-- Its source number. -/
  src : Nat
deriving DecidableEq, Repr

/-- A stop held for the debugger (20 R462). -/
structure Stop where
  kind : Nat
  blk : Nat
  j : Nat
  lane : Nat
  num : Nat
  pc : Nat
  gts : Nat
  /-- For a BRK stop: the PC of the word after the BRK. -/
  next : Nat := 0
deriving DecidableEq, Repr

/-- A profiling session (20 R472). -/
structure Session where
  pl : Nat := 0
  frozen : Bool := false
  force : Bool := false
  isOpen : Bool := false
  run : Bool := false
  sel : Tab Nat := []
  cnt : Tab Nat := []
  inval : Tab Bool := []
deriving DecidableEq, Repr

/-- A bid register (07 R173). -/
structure Bid where
  lo : DWord := 0
  wgts : Nat := 0
  /-- GTS of the last accepted write, and the register's value and WGTS before the writes of that GTS, for the sealing (07 R179). -/
  last : Nat := 0
  was : DWord × Nat := (0, 0)
deriving DecidableEq, Repr

/-- A queued active message of the feed (13 R325). -/
structure QMsg where
  sender : List Nat
  pc : Nat
  xreg : Bool
  payload : List Byte
  /-- Where its record stands in the ring, and the number of the record's free bytes (13 R321, log 43). -/
  va : Nat := 0
  no : Nat := 0
deriving DecidableEq, Repr

/-- A context (06). -/
structure Ctx where
  st : CtxState := .free
  /-- Held by an image fault (06 R152 event 12), met by a save or by a restore, and the state to return to from MIGRATING. -/
  held : Bool := false
  heldSave : Bool := false
  before : CtxState := .runnable
  vf : Nat := 0
  groot : Nat := 0
  imgva : Nat := 0
  imgsz : Nat := 0
  maxclu : Nat := 0
  tvec : DWord := 0
  nbase : DWord := 0
  /-- NPTR: HEAD, TAIL, NDROP (06 R157). -/
  nhead : Nat := 0
  ntail : Nat := 0
  ndrop : Nat := 0
  nmask : Word := 0
  ctxen : Nat := 0
  wrtb : DWord := 0
  raceEn : Bool := false
  raceSkip : Bool := false
  amht : DWord := 0
  amfeed : DWord := 0
  amkey : Word := 0
  amFull : Nat := 0
  msgs : List QMsg := []
  /-- The ring place of the next message, and whether the ring has stood enabled under one base since the feed was last empty (13 R321). -/
  amNext : Nat := 0
  amKept : Bool := false
  bids : Tab Bid := []
  /-- Decode table slots 1 to 4; a slot that has been loaded is present (05 R136). -/
  slots : Tab (Tab Nat) := []
  queues : Tab Queue := []
  launches : Tab Launch := []
  nodes : Tab Node := []
  /-- GTS of the last progress, for the watchdog (08 R226). -/
  progress : Nat := 0
  /-- Partition reset in progress (08 R227). -/
  resetting : Bool := false
  rings : List RingRec := []
  /-- Debug window (20 R460). -/
  dbgctl : DWord := 0
  dbp : Tab DWord := []
  stops : List Stop := []
  dacc : DWord := 0
  ddata : DWord := 0
  trbase : DWord := 0
  trhead : Nat := 0
  trtail : Nat := 0
  trdrop : Nat := 0
  trmask : Word := 0
  /-- The place, in the order of R5, of the last trace record written: GTS, source. -/
  trlast : Nat × Nat := (0, 0)
  smpbase : DWord := 0
  smphead : Nat := 0
  smptail : Nat := 0
  smpdrop : Nat := 0
  smpctl : Word := 0
  sessions : Tab Session := []
  /-- Migration history: the interval of the last one, and the interval until which a destination is barred (07 R193). -/
  migLast : Option Nat := none
  migBar : Tab Nat := []
  migDest : Nat := 0
  /-- One past the queue served last at a dispatch decision (08 R220). -/
  lastQ : Nat := 0
  /-- Dispatch stopped (06 R153, 07 R180). -/
  noDispatch : Bool := false
  /-- A save waits for its parts (06 R153): pages or engine operations. -/
  saving : Bool := false
  /-- GTS at which step 2 of the save in progress began (06 R153). -/
  saveAt : Option Nat := none
  /-- Blocks were saved at a lapse, and the image is not written yet. -/
  imgDue : Bool := false
  /-- The image holds the registers and sections of a save that has completed. -/
  imgOk : Bool := false
  /-- While a write of the image waits: the number of its opaque bytes, and the SAVEGTS of a header that stands unanswered at a peer home. -/
  imgNo : Option Nat := none
  imgGts : Option Nat := none
  /-- The blocks whose restore has failed (06 R152 event 12). -/
  heldBlks : List Nat := []
  /-- The VFs whose command windows await the end of the save. -/
  cmd : List Nat := []
  /-- COPY packets stopped at a lapse or a save (08 R229). -/
  packets : List EngOp := []
  /-- Since the last period boundary of the VF: requests served by shared units, and whether the context held a leased unit (R163). -/
  served : Nat := 0
  leased : Bool := false
  /-- Where a context that has migrated came from: the source device, its id there and the stamp of that migration (R154). -/
  from_ : Option (Nat × Nat × Nat) := none
  /-- GTS at which the image was last shipped, the stamp of that migration. -/
  migGts : Nat := 0
deriving DecidableEq, Repr

/-- A context shipped to this device and not yet restored (06 R152, R164): the source device, the VF here, its id there, the stamp of
the migration and its image. -/
structure Incoming where
  dev : Nat
  vf : Nat
  id : Nat
  stamp : Nat := 0
  ctx : Ctx
  blks : List Block
  /-- The states of the bridle channels that its launches hold (11 R283). -/
  chans : Tab Chan := []
deriving DecidableEq, Repr

end Sys2Proof.Machine
end

