-- ==== Sys2Proof/Machine/Device.lean ====
section
/-!
DEFINITION. The parts of the state that belong to the device: virtual functions and purses, the market, the page unit, the links, the power
controller, and the MODEL's own bookkeeping (the agenda and the issue in progress).
-/

namespace Sys2Proof.Machine

/-- A virtual function: VFCFG, the command window, the purse and the page-request ring (06 R145 to R148, 07 R169, 08 R226, 12 R300). -/
structure Vf where
  en : Bool := false
  err : Bool := false
  idbase : Nat := 0
  idcnt : Nat := 0
  eper : Nat := 100
  hroot : Nat := 0
  /-- CCMD: GO, STATUS, CTX, OP. -/
  go : Bool := false
  status : Nat := 0
  cctx : Nat := 0
  cop : Nat := 0
  carg : Nat := 0
  vfen : Nat := 0
  wdog : Nat := 500
  prqBase : DWord := 0
  prqHead : Nat := 0
  prqTail : Nat := 0
  prqDrop : Nat := 0
  bal : Nat := 0
  rate : Nat := 0
  cap : Nat := 0
  migok : Bool := false
  /-- Refund owed at the next settlement (07 R191). -/
  refund : Nat := 0
  /-- Energy of contexts that have returned to FREE since the last period boundary (06 R163). -/
  freed : Nat := 0
  /-- Requests that shared units served since then for contexts that have returned to FREE, and what the shared units had drawn and served for all
  contexts at that boundary. -/
  freedServed : Nat := 0
  sharedAt : Nat := 0
  servedAt : Nat := 0
  /-- PRQDROP and the consumer's write are in prqDrop and prqTail; records that wait for their page. -/
  prqWait : List (Nat × Nat × List Byte) := []
deriving DecidableEq, Repr

/-- The shared units (06 R163): the energy they have drawn up to a GTS, and the requests they have served for contexts. -/
structure SharedUse where
  drawn : Nat := 0
  gts : Nat := 0
  served : Nat := 0
deriving DecidableEq, Repr

/-- A leased unit (07 R167, R180 to R186). -/
structure LUnit where
  holder : Option Nat := none
  incoming : Option Nat := none
  /-- The holder whose handover is under way: the energy of the handover is its (07 R181). -/
  outgoing : Option Nat := none
  cfg : Nat := 0
  handover : Bool := false
  withdrawn : Bool := false
  paid : Nat := 0
deriving DecidableEq, Repr

/-- A clearing result of a class (07 R178, R185): price, FREE and the GTS of publication. -/
structure Spot where
  price : Nat
  free : Nat
  gts : Nat
deriving DecidableEq, Repr

/-- A grant of the coming interval: class, unit, context, price, configuration. -/
structure Grant where
  cls : Nat
  unit : Nat
  ctx : Nat
  price : Nat
  cfg : Nat
deriving DecidableEq, Repr

/-- An entry of the peer price table (07 R192); `received` is the interval's number. -/
structure PeerPrice where
  stamp : Nat
  received : Nat
  prices : List Nat
  free : List Nat
  evav0 : DWord
  evav1 : DWord
deriving DecidableEq, Repr

/-- The market (07). -/
structure Market where
  ilen : Nat := 3
  migen : Bool := false
  migthr : Nat := 0xFFFF_FFFF
  mcost : Nat := 0
  /-- Reserve prices of the five classes. -/
  res : Tab Nat := []
  /-- Length of the interval in force and its end, ns. -/
  len : Nat := 1000000
  t : Nat := 1000000
  /-- Units by class * 4096 + unit. -/
  units : Tab LUnit := []
  spots : Tab Spot := []
  grants : List Grant := []
  published : Bool := false
  /-- Bids as sealed: context, class, low word, WGTS. -/
  sealedBids : List (Nat × Nat × DWord × Nat) := []
  /-- Price and FREE of each class as cleared, published at T − 20 µs. -/
  results : List (Nat × Nat) := []
  peers : Tab PeerPrice := []
  /-- Migrations chosen at this sealing: context, destination. -/
  moves : List (Nat × Nat) := []
  /-- Number of intervals since reset, for the limits counted in intervals (R192, R193). -/
  count : Nat := 0
deriving DecidableEq, Repr

/-- A cached translation (12 R295): the two leaves with their levels. -/
structure TlbEntry where
  ctx : Nat
  vf : Nat
  va : Nat
  gleaf : Nat
  glvl : Nat
  gpa : Nat
  hleaf : Nat
  hlvl : Nat
deriving DecidableEq, Repr

/-- The operands of an event, under the names its docstring in Syntax.lean gives. The MODEL's own. -/
structure Arg where
  x : Nat := 0
  y : Nat := 0
  z : Nat := 0
  u : Nat := 0
  l : List Nat := []
  v : DWord := 0
  data : List Byte := []
deriving DecidableEq, Repr

/-- A pointer entry of a die's walker cache (12 R295): whose walk met it, the address it covers, where it lies and what it held. -/
structure PtrEntry where
  ctx : Nat
  vf : Nat
  /-- 1 guest, 2 hypervisor. -/
  stage : Nat
  lvl : Nat
  va : Nat
  place : Nat
  entry : Nat
deriving DecidableEq, Repr

/-- A line of an L1 (03 R68): its physical line, its way, and whether the core owns it and has written it. -/
structure L1Line where
  line : Nat
  way : Nat
  excl : Bool
  dirty : Bool
deriving DecidableEq, Repr

/-- A line of an L2 slice (01 R25, 07 R189): its physical line, its way, the context that filled it, and whether it is newer than the HBM. -/
structure L2Line where
  line : Nat
  way : Nat
  ctx : Option Nat
  dirty : Bool
deriving DecidableEq, Repr

/-- What a waiting access of an engine, a rafter or the front end lacks: a page of a guest-physical address (12 R298), or the answer of a
peer home to a load, a store or an atomic there (13 R318). -/
inductive Lack where
  | page (gpa : Nat)
  | load (home pa n : Nat)
  | store (home pa : Nat) (bs : List Byte)
  | atom (home pa op v : Nat)
deriving DecidableEq, Repr

/-- The answer of a peer home for an access that waits: whose it is, what was asked, and the data. -/
structure PeerGot where
  retry : Option (Instr × Arg)
  grp : Option (Nat × Nat)
  need : Lack
  refused : Bool
  data : List Byte
deriving DecidableEq, Repr

/-- An access that waits for a page (12 R298, R299): what retries it when it is walked again. -/
structure Waiter where
  id : Nat
  ctx : Nat
  va : Nat
  acc : Nat
  stage : Nat
  gpa : Nat
  src : Nat
  /-- What is done when the walk succeeds; none: the group of `grp` may try its issue again. -/
  retry : Option (Instr × Arg)
  /-- The group whose issue is held. -/
  grp : Option (Nat × Nat) := none
  /-- GTS at which the wait began. -/
  since : Nat := 0
  /-- The peer access whose answer it waits for, instead of a page. -/
  peer : Option Lack := none
deriving DecidableEq, Repr

/-- A line in the gutter (12 R301): its address, its 128 bytes and the mask of those that were written, and, where a thread's store landed, its
privilege (03 R67, R86). -/
structure GutterSlot where
  ctx : Nat
  va : Nat
  bytes : List Byte
  mask : Nat
  gts : Nat
  store : Option Nat := none
deriving DecidableEq, Repr

/-- The page unit (12). -/
structure PageUnit where
  prqBase : DWord := 0
  prqHead : Nat := 0
  prqTail : Nat := 0
  prqDrop : Nat := 0
  gutEn : Bool := false
  gutBase : Nat := 0
  slots : List GutterSlot := []
  pmov : Tab DWord := []
  pmovGo : Bool := false
  pmovStatus : Nat := 0
  tlbihA : DWord := 0
  tlbihC : DWord := 0
  tlbihGo : Bool := false
  /-- The cores' translation caches, and the pointer entries of the dies' walkers (12 R295). -/
  tlb : Tab (List TlbEntry) := []
  ptrs : Tab (List PtrEntry) := []
  waiters : List Waiter := []
  /-- Pages already requested: context, page VA. -/
  requested : List (Nat × Nat) := []
deriving DecidableEq, Repr

/-- A format range register (03 R84): the committed word values and the staged words 1 to 3. -/
structure Frr where
  w0 : DWord := 0
  w1 : DWord := 0
  w2 : DWord := 0
  w3 : DWord := 0
  s1 : DWord := 0
  s2 : DWord := 0
  s3 : DWord := 0
  err : Bool := false
deriving DecidableEq, Repr

/-- A port (13 R311 to R315). -/
structure Port where
  en : Bool := false
  /-- 0 Horac scale-up, 1 Ethernet. -/
  mode : Nat := 0
  st : Nat := 0
  l0 : Bool := false
  l1 : Bool := false
  valid : Bool := false
  sw : Bool := false
  dev : Nat := 0
  mac : Nat := 0
  fecc : Nat := 0
  fecu : Nat := 0
  rtry : Nat := 0
  ndisc : Nat := 0
  /-- Consecutive failed training attempts. -/
  fails : Nat := 0
  /-- The cause of DRAINING was CMD DRAIN. -/
  drain : Bool := false
  /-- GTS at which DRAINING began. -/
  since : Nat := 0
  /-- Uncorrectable flits of the last millisecond: lane, GTS. -/
  bad : List (Nat × Nat) := []
  /-- Next link sequence expected and next to send, 12 bits. -/
  rx : Nat := 0
  tx : Nat := 0
  /-- The retry buffer, 128 flits: sequence, the 256 bytes. -/
  buf : List (Nat × List Byte) := []
  /-- Payloads delivered to the protocol, oldest first. -/
  got : List (List Byte) := []
deriving DecidableEq, Repr

/-- A network send queue (13 R333): its RW bits [479:0] and its NDISC. -/
structure Nsq where
  cfg : Nat := 0
  ndisc : Nat := 0
deriving DecidableEq, Repr

/-- A peer request sent and not answered (13 R318, R319): home, source core, sequence, kind and place, and who waits for it. -/
structure PeerReq where
  seq : Nat
  home : Nat
  core : Nat
  kind : Nat
  pa : Nat
  size : Nat
  data : List Byte
  /-- Block, group, id of the pending result or queue entry, lane. -/
  blk : Nat
  j : Nat
  id : Nat
  lane : Nat
  /-- The port it left on. -/
  port : Nat
  /-- The context it is counted for, and the waiting access it belongs to; none: an access of a thread. -/
  ctx : Nat := 0
  waiter : Option Nat := none
  /-- What else the request names: for a message, a fragment, a message status and a migration (R319, R329, R330). -/
  info : List Nat := []
deriving DecidableEq, Repr

/-- The requests of one source core at this home (13 R319): the next number, those that came too early, and the first outcomes. -/
structure PeerIn where
  dev : Nat
  core : Nat
  next : Nat := 0
  /-- Sequence number, kind, address and size and what else the request names, data. -/
  early : List (Nat × Nat × List Nat × List Byte) := []
  /-- Sequence number, refused, data. -/
  outs : List (Nat × Bool × List Byte) := []
deriving DecidableEq, Repr

/-- A cluster's power state (21 R478 to R482, R485). -/
structure Cluster where
  powered : Bool := false
  /-- GTS of power-up. -/
  since : Nat := 0
  /-- 1/64 °C, two's complement, 16 bits. -/
  temp : Nat := 0
  vmv : Nat := 0
  pwr : Nat := 0
  ratio : Nat := 2
  pass : Nat := 0
  rcap : Nat := 2
  /-- RCAP as the controller last applied it. -/
  cap : Nat := 2
  level : Nat := 0
deriving DecidableEq, Repr

/-- The power controller, the soft-error counters, boot and attestation (21). -/
structure Power where
  plim : Nat := 1800
  tlim : Nat := 105
  pwr : Nat := 0
  /-- Microseconds in the current 100 ms window in which the power exceeded PLIM (R483). -/
  hot : Nat := 0
  tmax : Nat := 0
  trip : Bool := false
  /-- The device is held in reset after a thermal trip (R488). -/
  tripped : Bool := false
  tsnap : DWord := 0
  corr : Nat := 0
  unc : Nat := 0
  /-- Units fenced (class * 4096 + unit), and errors of each unit in this interval. -/
  fenced : List Nat := []
  errs : Tab Nat := []
  /-- GTS until which normal evaluation is suspended (R483), 0 for never. -/
  hold : Nat := 0
  clusters : Tab Cluster := []
  /-- ATTREQ words 0 to 4; GO apart. -/
  att : Tab DWord := []
  attGo : Bool := false
  /-- BOOTST (19 R456) and whether boot has run. -/
  bootst : Nat := 0
  booted : Bool := false
  /-- A verification failed: the device exposes ATTREQ alone (R489). -/
  shut : Bool := false
  /-- M0 to M2, 256 bits each. -/
  meas : Tab Nat := []
  /-- Rate (0.1 GT/s) and width of the host link (01 R29). -/
  hostRate : Nat := 640
  hostWidth : Nat := 4
deriving DecidableEq, Repr

/-- The issue in progress (05 R120, 10 R253, R254). The MODEL's own. -/
structure Issue where
  blk : Nat := 0
  j : Nat := 0
  /-- PC of the chain head, of the word being executed, and of the word after the issue. -/
  head : CodeAddr := 0
  pc : CodeAddr := 0
  next : CodeAddr := 0
  /-- Widest scope of the issue. -/
  sc : Nat := 0
  /-- The threads the issue acts for, ascending in member lane: (j, lane). -/
  members : List (Nat × Nat) := []
  /-- The groups of the scope by position, for member lane numbers. -/
  groups : List Nat := []
  /-- The block as it stood before a multi-word issue; sources are read there (R120). -/
  src : Option Block := none
  /-- The issue is a set-scope word whose rendezvous the dissolving of the set completed (10 R255, R262). -/
  joined : Bool := false
  /-- The words of a multi-word issue run, after all have been checked together (R120). -/
  go : Bool := false
  /-- FPC flags the issue has raised, by group (15 R357). -/
  raised : Tab Nat := []
  /-- What became of the last word: 0 executed, 1 to 6 the class of R122 that trapped, 7 held. -/
  verdict : Nat := 0
  /-- Repetition set up by a REP: count and steps of D, A and B (R131). -/
  rep : Option (Nat × Nat × Nat × Nat) := none
  /-- Opcode of the word as fetched, for fault records. -/
  op : Nat := 0
  repi : Nat := 0
  /-- The word's own IOP, for DET of PRIV. -/
  iop : Nat := 0
deriving DecidableEq, Repr

/-- A future event: when, from which source (01 R34), and what happens. The MODEL's own. -/
structure Event where
  due : Nat
  src : Nat
  ev : Instr
  arg : Arg
deriving DecidableEq, Repr

end Sys2Proof.Machine
end

