-- ==== Sys2Proof/Machine/State.lean ====
section
/-!
DEFINITION. The state of the machine, its faults and refusals, and the state after reset.
-/

namespace Sys2Proof.Machine

/-- Why the machine stops with a fault. -/
inductive Fault where
  /-- An event names an object that the device does not have (a port, cluster, core, virtual function or register above the last one).
  Raised by the meanings of events alone. Safe: no such event can arise. -/
  | noSuchObject (what : String) (n : Nat)
deriving DecidableEq, Repr

/-- Why an instruction has no meaning. -/
inductive Refusal where
  /-- The instruction has no meaning in this model. Raised by the dispatch alone. Safe. -/
  | notModelled (mnemonic : String)
deriving DecidableEq, Repr

/-- The whole device. -/
structure State where
  /-- The global time stamp (01 R33). -/
  gts : Nat := 0
  /-- The clock has been synchronised, and what is left to slew in ns (01 R33); a tick is being held. -/
  synced : Bool := false
  slew : Int := 0
  slewHeld : Bool := false
  /-- The number of this device in its domain (01 R31). -/
  devNo : Nat := 0
  /-- HBM by domain address, and the bytes of peer homes this device has seen (01 R26, R31). -/
  mem : List Host.Cell := []
  /-- Lines lost to an uncorrectable error (21 R487). -/
  badLines : List Nat := []
  /-- The SPAD and dark register file units, by unit * 65536 + byte (03 R70, R80). -/
  sram : List Host.Cell := []
  frr : Tab Frr := []
  /-- GTS since which no port has been usable for a device (13 R314); 0 when none has been since reset. -/
  noPort : Tab Nat := []
  vfs : Tab Vf := []
  ctxs : Tab Ctx := []
  blks : Tab Block := []
  cores : Tab CoreSt := []
  /-- The lines of the L1s, by core * 1024 + set, and those of the L2 by slice (03 R68, 01 R25); their bytes are those of `mem` (log 50). -/
  l1 : Tab (List L1Line) := []
  l2 : Tab (List L2Line) := []
  mkt : Market := {}
  shared : SharedUse := {}
  page : PageUnit := {}
  ports : Tab Port := []
  /-- The route table: 576 masks (13 R314). -/
  routes : Tab DWord := []
  nsqs : Tab Nsq := []
  /-- Peer requests: next sequence number by core * 1024 + home, those not answered, and those served. -/
  peerSeq : Tab Nat := []
  peerReqs : List PeerReq := []
  peerIns : List PeerIn := []
  /-- Answers to peers that found no port and wait for one: device, source core, header, data (13 R319). -/
  peerHeld : List (Nat × Nat × List Nat × List Byte) := []
  /-- Answers of peer homes for accesses that wait for them. -/
  peerGot : List PeerGot := []
  chans : Tab Chan := []
  power : Power := {}
  /-- Images received from other devices, oldest first (06 R164). -/
  incoming : List Incoming := []
  /-- The device event queue, oldest first, and the rafters that serve (01 R28). -/
  evq : List (Nat × Nat) := []
  rafters : Tab Bool := []
  /-- Outputs: MSI-X messages (function, vector), writes to the host and data returned to its reads (address, bytes), messages to peers and to the network. -/
  msix : List (Nat × Nat) := []
  hostOut : List (Nat × List Byte) := []
  peerOut : List (Nat × List Nat × List Byte) := []
  agenda : List Event := []
  /-- The operands, the source and the kind of the event now performed; no kind for an issue. -/
  arg : Arg := {}
  src : Nat := 0
  doing : Option Instr := none
  turn : Nat := 0
  cur : Issue := {}
  freeCtr : Nat := 0
  nextId : Nat := 1
deriving DecidableEq, Repr

/-- What the device does by itself from a reset on: boot, power-up, the sensors and the controller, and the first interval (21 R477 to R489,
07 R172). The source numbers of boot and power-up are log 101. -/
def bootAgenda (gts t : Nat) : List Event :=
  [⟨gts, 768, .boot, {}⟩, ⟨gts, 782, .powerUp, {}⟩, ⟨gts + 1000, 782, .sensorSample, {}⟩, ⟨gts + 10000, 782, .supplyUpdate, {}⟩,
   ⟨gts + 10000, 782, .throttleEvaluation, {}⟩, ⟨t - 40000, 780, .sealing, {}⟩, ⟨t - 20000, 780, .publication, {}⟩, ⟨t, 780, .intervalBoundary, {}⟩]

/-- The machine right after reset. -/
def State.reset : State := { agenda := bootAgenda 0 1000000 }

end Sys2Proof.Machine
end

