-- ==== Sys2Proof/Machine/Mem.lean ====
section
/-!
DEFINITION. Bytes in memory: the canonical list of cells, little-endian values (00 R3), HBM, and the interleaved scratchpad and eaves
units (03 R70, R71, R80).
-/

namespace Sys2Proof.Machine

/-- What an unlisted address reads as (log 1). -/
def memDefault : Byte := 0

/-- One byte of a memory. -/
def memGet (m : List Host.Cell) (a : Nat) : Byte :=
  match m with
  | [] => memDefault
  | (k, v) :: m => if k = a then v else if a < k then memDefault else memGet m a

/-- Stores one byte, keeping the canonical form: storing what an unlisted address reads as removes the cell. -/
def memSet (m : List Host.Cell) (a : Nat) (v : Byte) : List Host.Cell :=
  match m with
  | [] => if v = memDefault then [] else [(a, v)]
  | (k, u) :: m =>
    if k = a then (if v = memDefault then m else (k, v) :: m)
    else if a < k then (if v = memDefault then (k, u) :: m else (a, v) :: (k, u) :: m)
    else (k, u) :: memSet m a v

/-- The canonical form: addresses strictly rising from a bound, and no cell holding what an unlisted address reads as. -/
def memWfFrom (lo : Nat) : List Host.Cell → Bool
  | [] => true
  | (k, v) :: m => decide (lo ≤ k) && decide (v ≠ memDefault) && memWfFrom (k + 1) m

/-- The canonical form of a whole memory. -/
def Memory.wf (m : List Host.Cell) : Bool := memWfFrom 0 m

/-- The bytes from an address on. -/
def memRead (m : List Host.Cell) (a n : Nat) : List Byte := (upto n).map (fun i => memGet m (a + i))

/-- Stores bytes from an address on. -/
def memWrite (m : List Host.Cell) (a : Nat) : List Byte → List Host.Cell
  | [] => m
  | b :: bs => memWrite (memSet m a b) (a + 1) bs

/-- Copies the cells of one range of addresses to another, which takes nothing else (a page move, 12 R306). -/
def memCopy (m : List Host.Cell) (frm dst len : Nat) : List Host.Cell :=
  (m.filter (fun c => decide (frm ≤ c.1 ∧ c.1 < frm + len))).foldl (fun t c => memSet t (dst + (c.1 - frm)) c.2)
    (m.filter (fun c => !decide (dst ≤ c.1 ∧ c.1 < dst + len)))

/-- The value of bytes, the lowest address least significant (00 R3). -/
def leNat : List Byte → Nat
  | [] => 0
  | b :: bs => b.toNat + 256 * leNat bs

/-- The low `n` bytes of a value, the least significant first (00 R3). -/
def natLe : Nat → Nat → List Byte
  | 0, _ => []
  | n + 1, v => BitVec.ofNat 8 v :: natLe n (v / 256)

/-- One byte of a CRC-32C, in the reflected form with polynomial 0x82F63B78. -/
def crcByte (c : Nat) (b : Byte) : Nat :=
  (upto 8).foldl (fun c _ => if c % 2 = 1 then c / 2 ^^^ 0x82F63B78 else c / 2) (c ^^^ b.toNat)

/-- CRC-32C of bytes: initial value and final inversion all ones (log 17). -/
def crc32c (bs : List Byte) : Nat := bs.foldl crcByte 0xFFFF_FFFF ^^^ 0xFFFF_FFFF

/-- A field of a little-endian record: bits `[hi:lo]` of its value. -/
def recBits (r : List Byte) (hi lo : Nat) : Nat := bits (leNat r) hi lo

/-- The HBM key of a physical address of this device (01 R31). -/
def domAddr (dev pa : Nat) : Nat := dev * 2 ^ 40 + pa

/-- Byte position of an offset in a region of interleaved units: unit index and byte within it (03 R71). -/
def unitPos (k off : Nat) : Nat × Nat :=
  let line := off / 128
  (line % k, (line / k) * 128 + off % 128)

/-- The sram key of an offset in a region. -/
def sramKey (units : List Nat) (off : Nat) : Nat :=
  let p := unitPos units.length off
  units.getD p.1 0 * 65536 + p.2

/-- Reads a region of units; it holds every byte of the region (03 R70, R71). -/
def regionRead (m : List Host.Cell) (units : List Nat) (off n : Nat) : List Byte :=
  (upto n).map (fun i => memGet m (sramKey units (off + i)))

/-- Writes a region of units. -/
def regionWrite (m : List Host.Cell) (units : List Nat) (off : Nat) : List Byte → List Host.Cell
  | [] => m
  | b :: bs => regionWrite (memSet m (sramKey units off) b) units (off + 1) bs

/-- Size of a region in bytes (03 R70, R80). -/
def regionSize (units : List Nat) : Nat := units.length * 65536

end Sys2Proof.Machine
end

