-- ==== Sys2Proof/Machine/Translate.lean ====
section
/-!
DEFINITION. Translation (12_page.md R292 to R298, R303): the two-stage walk over tables in memory, the translation cache, the format range
registers (03_memory.md R84 to R88), and the reading of physical memory.
-/

namespace Sys2Proof.Machine

/-! ### Format range registers -/

def frrEn (f : Frr) : Bool := f.w0.getLsbD 0
def frrVf (f : Frr) : Nat := (f.w0.extractLsb' 10 6).toNat
def frrGs (f : Frr) : Bool := f.w0.getLsbD 9
def frrType (f : Frr) : Nat := (f.w0.extractLsb' 7 2).toNat
/-- The 256-bit value of the committed words. -/
def frrAll (f : Frr) : Nat := f.w0.toNat + 2 ^ 64 * f.w1.toNat + 2 ^ 128 * f.w2.toNat + 2 ^ 192 * f.w3.toNat
def frrD (f : Frr) : Nat := bits (frrAll f) 63 33 * 2 ^ 9
def frrS (f : Frr) : Nat := bits (frrAll f) 103 71 * 2 ^ 7
def frrW (f : Frr) : Nat := bits (frrAll f) 167 140 * 2 ^ 12
def frrNT (f : Frr) : Nat := bits (frrAll f) 227 212 + 1
def frrKT (f : Frr) : Nat := bits (frrAll f) 243 228 + 1
/-- Bytes of one tile of the plane window: 512 for INT3, 640 for INT4 (R84). -/
def frrT (f : Frr) : Nat := if frrType f = 1 then 512 else 640
def frrPlanes (f : Frr) : Nat := if frrType f = 1 then 3 else 4
def frrGroup (f : Frr) : Nat := if frrGs f then 64 else 32
/-- Sizes of the three regions (R84). -/
def frrDSize (f : Frr) : Nat := 512 * frrKT f * frrNT f
def frrSSize (f : Frr) : Nat := (32 * frrNT f) * (32 * frrKT f / frrGroup f)
def frrWSize (f : Frr) : Nat := frrKT f * frrNT f * frrT f

def inRange (a base size : Nat) : Bool := decide (base ≤ a ∧ a < base + size)

/-- Whether a register's TYPE gives it a plane window (R84). -/
def frrSet (f : Frr) : Bool := frrType f == 1 || frrType f == 2

/-- The registers that are enabled, with their numbers. -/
def frrOn (s : State) : List (Nat × Frr) := s.frr.filter (fun e => frrEn e.2)

/-- The enabled register whose plane window holds a physical address. -/
def frrWindow (s : State) (pa : Nat) : Option Frr :=
  ((frrOn s).find? (fun e => inRange pa (frrW e.2) (frrWSize e.2))).map Prod.snd

/-- The enabled register of a VF whose packed data or scale region holds a physical address. -/
def frrPacked (s : State) (vf pa : Nat) : Bool :=
  (frrOn s).any (fun e => frrVf e.2 == vf && (inRange pa (frrD e.2) (frrDSize e.2) || inRange pa (frrS e.2) (frrSSize e.2)))

/-- One nibble of packed data: element (k, n) of a range (R84). -/
def frrNibble (s : State) (f : Frr) (k n : Nat) : Nat :=
  let a := frrD f + (k / 32) * 512 * frrNT f + 16 * n + (k % 32) / 2
  let b := (memGet s.mem (domAddr s.devNo a)).toNat
  if k % 2 = 0 then b % 16 else b / 16

/-- One byte of a plane window, re-laid from the packed data (R52, R84, R87). -/
def frrByte (s : State) (f : Frr) (off : Nat) : Byte :=
  let tile := off / frrT f
  let o := off % frrT f
  let kt := tile / frrNT f
  let nt := tile % frrNT f
  let b := frrPlanes f
  if o < 128 * b then
    let plane := o / 128
    let row := (o % 128) / 4
    let col := 8 * (o % 4)
    BitVec.ofNat 8 ((upto 8).foldl (fun v i =>
      v + (if (frrNibble s f (32 * kt + row) (32 * nt + col + i)).testBit plane then 2 ^ i else 0)) 0)
  else if o < 128 * b + 32 then
    let n := 32 * nt + (o - 128 * b)
    let g := frrGroup f
    memGet s.mem (domAddr s.devNo (frrS f + n * (32 * frrKT f / g) + 32 * kt / g))
  else 0

/-- One byte of physical memory as a core or an engine reads it: plane form in an enabled window (R86). -/
def physByte (s : State) (dev pa : Nat) : Byte :=
  match if dev = s.devNo then frrWindow s pa else none with
  | some f => frrByte s f (pa - frrW f)
  | none => memGet s.mem (domAddr dev pa)

def physRead (s : State) (dev pa n : Nat) : List Byte := (upto n).map (fun i => physByte s dev (pa + i))

/-! ### The walk (R292 to R294) -/

/-- log₂ of the page size at a level. -/
def lvlBits : Nat → Nat
  | 0 => 16
  | 1 => 21
  | 2 => 29
  | 3 => 34
  | _ => 46

/-- The index of an address at a level (R292). -/
def lvlIndex (lvl a : Nat) : Nat :=
  match lvl with
  | 0 => bits a 20 16
  | 1 => bits a 28 21
  | 2 => bits a 33 29
  | 3 => bits a 45 34
  | _ => bits a 56 46

def peV (e : Nat) : Bool := e.testBit 0
def peLeaf (e : Nat) : Bool := e.testBit 1
def peW (e : Nat) : Bool := e.testBit 2
def peX (e : Nat) : Bool := e.testBit 3
def peU (e : Nat) : Bool := e.testBit 4
def peSt (e : Nat) : Nat := bits e 6 5
def peMig (e : Nat) : Bool := e.testBit 7
def peAddr (e : Nat) : Nat := bits e 47 8 * 256
def peDev (e : Nat) : Nat := bits e 63 54

/-- A malformed entry (R293). -/
def peBad (hyp : Bool) (lvl e : Nat) : Bool :=
  bits e 53 48 != 0 ||
  (peDev e != 0 && !(hyp && peLeaf e)) ||
  (peMig e && !(hyp && peLeaf e)) ||
  (peU e && !(!hyp && peLeaf e)) ||
  (!peLeaf e && bits e 7 2 != 0) ||
  (peLeaf e && lvl == 4) ||
  (!peLeaf e && lvl == 0) ||
  (peLeaf e && peAddr e % 2 ^ lvlBits lvl != 0) ||
  (hyp && bits e 47 40 != 0)

/-- The kinds of fault of R303. -/
def kUNMAPPED : Nat := 1
def kWRITE : Nat := 2
def kEXEC : Nat := 3
def kUSER : Nat := 4
def kPOISONED : Nat := 5
def kMALFORMED : Nat := 6
def kWALK : Nat := 7

/-- The outcome of one stage's walk: a leaf with its level, or a fault kind with the level. -/
inductive HRes where
  | leaf (e lvl : Nat)
  | bad (kind lvl : Nat)
deriving DecidableEq, Repr

/-- The die whose walker serves a source of R34: a core's own; the other sources are spread over the dies (log 13). -/
def dieOf (src : Nat) : Nat := if src < 256 then src / 64 else src % 4

/-- The pointer entry of a place that the die's walker still caches, if the walk uses it, as it may until an invalidation removes it (R295, R297,
log 13). -/
def heldEntry (s : State) (a : Nat) : Option Nat :=
  match (tget [] s.page.ptrs (dieOf s.src)).find? (fun p => p.place == a) with
  | some p => if Config.useCached s.freeCtr a then some p.entry else none
  | none => none

/-- A table entry at a place of this device. -/
def tableWord (s : State) (a : Nat) : Nat := (heldEntry s a).getD (leNat (memRead s.mem a 8))

/-- The table entry of an address at a level of the hypervisor stage. -/
def hentry (s : State) (gpa lvl tbl : Nat) : Nat := tableWord s (domAddr s.devNo (tbl + 8 * lvlIndex lvl gpa))

/-- What an entry ends a walk with; `none` when it names the next table. -/
def hsays (lvl e : Nat) : Option HRes :=
  if !peV e then some (.bad kUNMAPPED lvl)
  else if peBad true lvl e then some (.bad kMALFORMED lvl)
  else if peLeaf e then some (.leaf e lvl)
  else none

/-- The hypervisor-stage walk from a table at a level down (R294). -/
def hwalk (s : State) (gpa : Nat) : Nat → Nat → HRes
  | 0, tbl => (hsays 0 (hentry s gpa 0 tbl)).getD (.bad kMALFORMED 0)
  | l + 1, tbl =>
    match hsays (l + 1) (hentry s gpa (l + 1) tbl) with
    | some r => r
    | none => hwalk s gpa l (peAddr (hentry s gpa (l + 1) tbl))

/-- The access kinds of R303. -/
def aLOAD : Nat := 0
def aSTORE : Nat := 1
def aATOM : Nat := 2
def aFETCH : Nat := 3
def aFILL : Nat := 4
def aWB : Nat := 5
def aEREAD : Nat := 6
def aEWRITE : Nat := 7

def accWrites (acc : Nat) : Bool := acc == 1 || acc == 2 || acc == 5 || acc == 7

/-- The outcome of a translation. -/
inductive XRes where
  /-- The domain address, with the leaves used. -/
  | ok (dev pa : Nat) (t : TlbEntry)
  /-- NONRESIDENT (1) or MIGRATING (2), by which stage and at which guest-physical address; 0: a table at a peer home is still to be read. -/
  | wait (st stage lvl : Nat) (need : Lack)
  | fault (kind stage lvl : Nat)
  /-- The home of a table cannot answer (R298). -/
  | remote (kind stage lvl : Nat)
deriving DecidableEq, Repr

def State.port (s : State) (p : Nat) : Port := tget {} s.ports p

/-- Whether a port carries scale-up traffic (13 R312): UP-SCALEUP, or DEGRADED in scale-up mode. -/
def Port.carries (p : Port) : Bool := p.st == 2 || (p.st == 4 && p.mode == 0)

/-- Whether a port carries Ethernet frames: UP-ETHERNET, or DEGRADED in Ethernet mode (13 R312). -/
def Port.carriesFrames (p : Port) : Bool := p.st == 3 || (p.st == 4 && p.mode == 1)

/-- The ports on which traffic for a device may leave (13 R314). -/
def usablePorts (s : State) (dev : Nat) : List Nat :=
  (upto 64).filter (fun p => (tget 0 s.routes dev).getLsbD p && (s.port p).carries)

/-- The ports on which answers for a device may leave: a port that is DRAINING completes what is outstanding (13 R312). -/
def answerPorts (s : State) (dev : Nat) : List Nat :=
  let ps := usablePorts s dev
  if !ps.isEmpty then ps
  else (upto 64).filter (fun p => (tget 0 s.routes dev).getLsbD p && decide ((s.port p).st = 5 ∧ (s.port p).mode = 0))

/-- Whether a peer home can be reached (13 R314): a port is usable, or none has been for less than 2 ms. The device itself always can. -/
def peerUp (s : State) (dev : Nat) : Bool :=
  dev == s.devNo || (decide (dev < 576) && (!(usablePorts s dev).isEmpty || decide (s.gts < tget 0 s.noPort dev + 2000000)))

/-- The check of a leaf (R294): `none` when the access may proceed. -/
def leafCheck (e lvl stage acc priv gpa : Nat) : Option XRes :=
  if peSt e = 1 then some (.wait 1 stage lvl (.page gpa))
  else if peSt e = 2 then some (.wait 2 stage lvl (.page gpa))
  else if peSt e = 3 then some (.fault kPOISONED stage lvl)
  else if accWrites acc && !peW e then some (.fault kWRITE stage lvl)
  else if acc == aFETCH && !peX e then some (.fault kEXEC stage lvl)
  else if stage == 1 && priv == 0 && !peU e then some (.fault kUSER stage lvl)
  else none

/-- The answer of a peer home to what the event or the issue now performed asks for, if it has come (13 R318). -/
def peerGotFor (s : State) (n : Lack) : Option PeerGot :=
  s.peerGot.find? (fun g => decide (g.need = n) && (match s.doing with
    | some ev => decide (g.retry = some (ev, s.arg))
    | none => decide (g.grp = some (s.cur.blk, s.cur.j))))

/-- The domain address of a guest table entry, with the level of the leaf that maps it, or why it cannot be read (R294, R298). -/
def tableAt (s : State) (hroot gpa : Nat) : Except XRes (Nat × Nat) :=
  match hwalk s gpa 4 hroot with
  | .bad _ lvl => .error (.fault kWALK 2 lvl)
  | .leaf h lvl =>
    if peSt h = 1 then .error (.wait 1 2 lvl (.page gpa))
    else if peSt h = 2 then .error (.wait 2 2 lvl (.page gpa))
    else if peSt h = 3 then .error (.fault kWALK 2 lvl)
    else
      let pa := peAddr h + gpa % 2 ^ lvlBits lvl
      if !peerUp s (peDev h) then .error (.remote kWALK 2 lvl)
      else if pa.testBit 39 then .error (.fault kWALK 2 lvl)
      else .ok (domAddr (peDev h) pa, lvl)

/-- A guest table entry: one at a peer home is read by an ordinary load of that home, which may refuse it (R295, R298). -/
def guestEntry (s : State) (hroot gpa : Nat) : Except XRes Nat :=
  match tableAt s hroot gpa with
  | .error r => .error r
  | .ok (a, lvl) =>
    match heldEntry s a with
    | some e => .ok e
    | none =>
      if a / 2 ^ 40 = s.devNo then .ok (leNat (memRead s.mem a 8))
      else
        let n : Lack := .load (a / 2 ^ 40) (a % 2 ^ 40) 8
        match peerGotFor s n with
        | none => .error (.wait 0 2 lvl n)
        | some g => if g.refused then .error (.remote kWALK 2 lvl) else .ok (leNat g.data)

/-- The second stage for the final guest-physical address (R294). -/
def finishWalk (s : State) (ctx vf hroot va acc priv ge glvl : Nat) : XRes :=
  match leafCheck ge glvl 1 acc priv va with
  | some r => r
  | none =>
    let gpa := peAddr ge + va % 2 ^ lvlBits glvl
    match hwalk s gpa 4 hroot with
    | .bad k lvl => .fault k 2 lvl
    | .leaf h lvl =>
      match leafCheck h lvl 2 acc priv gpa with
      | some r => r
      | none => .ok (peDev h) (peAddr h + gpa % 2 ^ lvlBits lvl) ⟨ctx, vf, va, ge, glvl, gpa, h, lvl⟩

/-- What a guest table entry ends a walk with; `none` when it names the next table. -/
def gsays (s : State) (ctx vf hroot va acc priv lvl e : Nat) : Option XRes :=
  if !peV e then some (.fault kUNMAPPED 1 lvl)
  else if peBad false lvl e then some (.fault kMALFORMED 1 lvl)
  else if peLeaf e then some (finishWalk s ctx vf hroot va acc priv e lvl)
  else none

/-- The guest-stage walk from a table at a level down (R294). -/
def gwalk (s : State) (ctx vf hroot va acc priv : Nat) : Nat → Nat → XRes
  | 0, tbl =>
    match guestEntry s hroot (tbl + 8 * lvlIndex 0 va) with
    | .error r => r
    | .ok e => (gsays s ctx vf hroot va acc priv 0 e).getD (.fault kMALFORMED 1 0)
  | l + 1, tbl =>
    match guestEntry s hroot (tbl + 8 * lvlIndex (l + 1) va) with
    | .error r => r
    | .ok e =>
      match gsays s ctx vf hroot va acc priv (l + 1) e with
      | some r => r
      | none => gwalk s ctx vf hroot va acc priv l (peAddr e)

/-! ### The state's parts by name -/

def State.ctx (s : State) (c : Nat) : Ctx := tget {} s.ctxs c
def State.vf (s : State) (n : Nat) : Vf := tget {} s.vfs n
def State.blk (s : State) (b : Nat) : Block := tget {} s.blks b
def Block.grp (b : Block) (j : Nat) : Group := tget {} b.groups j
def Group.th (g : Group) (l : Nat) : Thread := tget {} g.thr l

/-- A fresh walk of a virtual address (R294). -/
def walk (s : State) (ctx va acc priv : Nat) : XRes :=
  let c := s.ctx ctx
  gwalk s ctx c.vf (s.vf c.vf).hroot va acc priv 4 c.groot

/-- The translation of a virtual address that the core of the event now performed caches, if it does; the other sources of R34 have the
walkers alone (R295). -/
def tlbFind (s : State) (ctx va : Nat) : Option TlbEntry :=
  (tget [] s.page.tlb s.src).find? (fun t => t.ctx == ctx && decide (t.va / 2 ^ lvlBits t.glvl = va / 2 ^ lvlBits t.glvl) &&
    decide ((peAddr t.gleaf + va % 2 ^ lvlBits t.glvl) / 2 ^ lvlBits t.hlvl = t.gpa / 2 ^ lvlBits t.hlvl))

/-- What a cached translation gives for an access. -/
def tlbUse (t : TlbEntry) (va acc priv : Nat) : XRes :=
  match leafCheck t.gleaf t.glvl 1 acc priv va with
  | some r => r
  | none =>
    let gpa := peAddr t.gleaf + va % 2 ^ lvlBits t.glvl
    match leafCheck t.hleaf t.hlvl 2 acc priv gpa with
    | some r => r
    | none => .ok (peDev t.hleaf) (peAddr t.hleaf + gpa % 2 ^ lvlBits t.hlvl) t

/-- The translation of an access: an entry still cached may be used or walked afresh (R297, log 13). -/
def cachedWalk (s : State) (ctx va acc priv : Nat) : XRes :=
  match tlbFind s ctx va with
  | none => walk s ctx va acc priv
  | some t => if Config.useCached s.freeCtr va then tlbUse t va acc priv else walk s ctx va acc priv

/-- The base of the page of a level that holds an address. -/
def pageBase (lvl a : Nat) : Nat := a / 2 ^ lvlBits lvl * 2 ^ lvlBits lvl

/-- Whether a line in the gutter belongs to the page that an access has found: by the guest's page, or, under another address or in another
context, by the page of memory behind it (R301, R302, log 93). -/
def slotOn (s : State) (g : GutterSlot) (dev pa : Nat) (t : TlbEntry) (va : Nat) : Bool :=
  (g.ctx == t.ctx && pageBase t.glvl g.va == pageBase t.glvl va) ||
  (match walk s g.ctx g.va aLOAD 1 with
    | .ok d p _ => d == dev && pageBase (min t.glvl t.hlvl) p == pageBase (min t.glvl t.hlvl) pa
    | _ => false)

/-- Whether the gutter holds lines of a page. -/
def gutterHas (s : State) (dev pa : Nat) (t : TlbEntry) (va : Nat) : Bool := s.page.slots.any (fun g => slotOn s g dev pa t va)

/-- The translation of an access; an access to a resident page whose gutter lines are not drained waits (R302). -/
def translate (s : State) (ctx va acc priv : Nat) : XRes :=
  match cachedWalk s ctx va acc priv with
  | .ok dev pa t => if gutterHas s dev pa t va then .wait 2 1 t.glvl (.page va) else .ok dev pa t
  | r => r

/-! ### What the caches keep (R295) -/

/-- A pointer entry that a walk meets at a place, if it is one that may be cached: valid, well-formed, no leaf. -/
def ptrEntry (hyp : Bool) (ctx vf lvl va place e : Nat) : List PtrEntry :=
  if peV e && !peBad hyp lvl e && !peLeaf e then [⟨ctx, vf, if hyp then 2 else 1, lvl, va, place, e⟩] else []

/-- The pointer entries of a hypervisor-stage walk. -/
def hpointers (s : State) (ctx vf gpa : Nat) : Nat → Nat → List PtrEntry
  | 0, _ => []
  | l + 1, tbl =>
    match ptrEntry true ctx vf (l + 1) gpa (domAddr s.devNo (tbl + 8 * lvlIndex (l + 1) gpa)) (hentry s gpa (l + 1) tbl) with
    | [p] => p :: hpointers s ctx vf gpa l (peAddr p.entry)
    | ps => ps

/-- The pointer entries of a guest-stage walk, those of the walks to its tables among them. -/
def gpointers (s : State) (ctx vf hroot va : Nat) : Nat → Nat → List PtrEntry
  | 0, tbl => hpointers s ctx vf (tbl + 8 * lvlIndex 0 va) 4 hroot
  | l + 1, tbl =>
    let gpa := tbl + 8 * lvlIndex (l + 1) va
    hpointers s ctx vf gpa 4 hroot ++
    (match tableAt s hroot gpa, guestEntry s hroot gpa with
    | .ok (a, _), .ok e => (match ptrEntry false ctx vf (l + 1) va a e with
      | [p] => p :: gpointers s ctx vf hroot va l (peAddr p.entry)
      | ps => ps)
    | _, _ => [])

/-- Removes entries chosen freely until `n` are left (log 13). -/
def shrink {α : Type} (ctr : Nat) : Nat → List α → List α
  | n, xs => if n < xs.length then xs.eraseIdx (Config.choice 13 ctr % xs.length) else xs

/-- Keeps what an access's walk met: its pointer entries, those of the walk of the final address among them, in the die's walker, 4096 of them, and its leaves, which are RESIDENT, in the
translation cache of its core, 256 of them (R295). -/
def tlbKeep (s : State) (r : XRes) : State :=
  match r with
  | .ok _ _ t =>
    let mine := tget [] s.page.tlb s.src
    if mine.contains t then s
    else
      let die := dieOf s.src
      let hroot := (s.vf t.vf).hroot
      let met := gpointers s t.ctx t.vf hroot t.va 4 (s.ctx t.ctx).groot ++ hpointers s t.ctx t.vf t.gpa 4 hroot
      let ptrs := met.foldl (fun ps p => p :: shrink s.freeCtr 4095 (ps.filter (fun q => q.place ≠ p.place))) (tget [] s.page.ptrs die)
      let tlb := if 256 ≤ s.src then s.page.tlb else tset s.page.tlb s.src (t :: shrink s.freeCtr 255 mine)
      { s with page := { s.page with tlb := tlb, ptrs := tset s.page.ptrs die ptrs } }
  | _ => s

/-- The syndrome of R303. -/
def syndrome (acc lvl stage kind : Nat) : Nat := acc * 8192 + lvl * 1024 + stage * 256 + kind

/-- Canonical form of a 64-bit global address (03 R66). -/
def canonical (a : Nat) : Bool := a / 2 ^ 56 % 256 == 0 || a / 2 ^ 56 % 256 == 255

/-- The 57-bit address the tables translate. -/
def vaOf (a : Nat) : Nat := a % 2 ^ 57

end Sys2Proof.Machine
end

