-- ==== Sys2Proof/Machine/Cache.lean ====
section
/-!
DEFINITION. The L1s and the L2 (01_device.md R25, R26; 03_memory.md R68, R69, R82, R89; 07_lease.md R180, R188 to R190): which lines they hold,
in which ways, owned by which core and filled by which context, and the events of 20 R470 that accesses to them count. The bytes of every line
are those of the memory: the caches are coherent (04_ordering.md R94), so that no access reads anything else. What the manual leaves open (the
set of an L2 line, the victim among the ways, whether a store is performed at the L1 or at the home slice) is free (log 50).
-/

namespace Sys2Proof.Machine

/-! ### Where a line lies (01 R12, R26; 03 R82) -/

/-- The cluster of a core and the cores of a cluster (01 R12). -/
def clusterOf (core : Nat) : Nat := core / 64 * 16 + core % 64 / 16 * 4 + core % 8 / 2

/-- The slice that caches a physical line (03 R82). -/
def sliceOf (pa : Nat) : Nat :=
  let a := pa / 128
  bits pa 38 37 * 64 + (bits a 5 0 ^^^ bits a 11 6 ^^^ bits a 17 12 ^^^ bits a 23 18 ^^^ bits a 29 24)

/-- The channel of a die that holds an address of its HBM, its stack, its channel in the stack, and the row of its controller (01 R26). -/
def dieChannel (pa : Nat) : Nat := bits pa 13 8 ^^^ bits pa 19 14 ^^^ bits pa 25 20
def hbmStack (pa : Nat) : Nat := 2 * bits pa 38 37 + dieChannel pa / 32
def hbmChannel (pa : Nat) : Nat := dieChannel pa % 32
def hbmRow (pa : Nat) : Nat := dieChannel pa / 8

/-! ### What accesses do -/

/-- The caches, with what an access has counted: events of contexts (20 R470) and requests of contexts that shared units served (06 R163). -/
structure Caches where
  l1 : Tab (List L1Line)
  l2 : Tab (List L2Line)
  /-- The next number of a free choice. -/
  ctr : Nat
  /-- The enabled format range registers, whose windows are filled by re-layout (03 R87). -/
  windows : List Frr := []
  events : List (Nat × Nat) := []
  served : List Nat := []

/-- Counts an event of a context; events of no context are not counted (07 R189). -/
def Caches.note (k : Caches) (ctx : Option Nat) (code : Nat) : Caches :=
  match ctx with
  | some c => { k with events := (c, code) :: k.events }
  | none => k

/-- A shared unit serves a context. -/
def Caches.serve (k : Caches) (ctx : Option Nat) : Caches :=
  match ctx with
  | some c => { k with served := c :: k.served }
  | none => k

/-- A command of the memory controller of a line (01 R26, R27). -/
def Caches.hbm (k : Caches) (ctx : Option Nat) : Caches := (k.note ctx 0x50).serve ctx

/-- Whether a context holds a way of a die (07 R188). -/
def wayHeld (m : Market) (ctx : Option Nat) (die way : Nat) : Bool :=
  decide (way < 12) && ctx.isSome && (tget {} m.units (2 * 4096 + die * 12 + way)).holder == ctx

/-- The ways of a die in which a fill of a context allocates: its leased ones, or the commons (R188). -/
def fillWays (m : Market) (ctx : Option Nat) (die : Nat) : List Nat :=
  let ws := (upto 12).filter (wayHeld m ctx die)
  if ws.isEmpty then [12, 13, 14, 15] else ws

/-- Whether an L1 holds a line dirty. -/
def Caches.dirtyAbove (k : Caches) (line : Nat) : Bool := k.l1.any (fun e => e.2.any (fun x => x.line == line && x.dirty))

/-- Marks a line of the L2 dirty. -/
def Caches.soil (k : Caches) (line : Nat) : Caches :=
  { k with l2 := tmap (fun _ xs => xs.map (fun x => if x.line = line then { x with dirty := true } else x)) k.l2 }

/-- A core that owns a line gives up its ownership; what it has written goes to the L2 (04 R97). -/
def Caches.share (k : Caches) (line : Nat) : Caches :=
  let k := if k.dirtyAbove line then k.soil line else k
  { k with l1 := tmap (fun _ xs => xs.map (fun x => if x.line = line then { x with excl := false, dirty := false } else x)) k.l1 }

/-- A line leaves the L2, and with it the L1s (01 R25: the L2 includes them). A dirty one is written to HBM for the context that filled it
(R189), and another context's fill that evicts it from the commons is counted for its owner (R190). -/
def Caches.evict (k : Caches) (v : L2Line) (filler : Option Nat) : Caches :=
  let dirty := v.dirty || k.dirtyAbove v.line
  let k := { k with l1 := tmap (fun _ xs => xs.filter (fun x => x.line ≠ v.line)) k.l1 }
  let k := if dirty then (k.note v.ctx (if v.way < 12 then 0x34 else 0x37)).hbm v.ctx else k
  if 12 ≤ v.way ∧ v.ctx ≠ filler then k.note v.ctx 0x38 else k

/-- The way a fill takes among those allowed: one that holds no line of the set, or a free choice. -/
def fillWay (k : Caches) (ways : List Nat) (same : List L2Line) : Nat :=
  match ways.find? (fun w => !same.any (fun x => x.way == w)) with
  | some w => w
  | none => ways.getD (Config.choice 50 k.ctr % ways.length) 12

/-- A line enters its slice for a context, in place of a victim (R188). -/
def Caches.fill (k : Caches) (m : Market) (ctx : Option Nat) (pa : Nat) (write : Bool) : Caches :=
  let line := pa / 128
  let slice := sliceOf pa
  let same := (tget [] k.l2 slice).filter (fun x => Config.l2Set x.line % 1024 == Config.l2Set line % 1024)
  let way := fillWay k (fillWays m ctx (slice / 64)) same
  let old := same.filter (fun x => x.way == way)
  let k := old.foldl (fun k v => k.evict v ctx) { k with ctr := k.ctr + 1 }
  let k := if way < 12 then k.note ctx 0x33 else (k.note ctx 0x36).serve ctx
  { k with l2 := tset k.l2 slice (⟨line, way, ctx, write⟩ :: (tget [] k.l2 slice).filter (fun x => !old.contains x)) }

/-- Whether the L2 holds a line. -/
def Caches.has (k : Caches) (pa : Nat) : Bool := (tget [] k.l2 (sliceOf pa)).any (fun x => x.line == pa / 128)

/-- The lines that hold the 32 scale bytes of a tile's columns (03 R84, R87). -/
def scaleLines (f : Frr) (tile : Nat) : List Nat :=
  let row := 32 * frrKT f / frrGroup f
  ((upto 32).map (fun c => (frrS f + (32 * (tile % frrNT f) + c) * row + 32 * (tile / frrNT f) / frrGroup f) / 128)).eraseDups

/-- Fills a line of a plane window (03 R87): the four packed lines of the tile give all of its plane lines together, and the scale bytes of its columns
the exponent line. -/
def Caches.relay (k : Caches) (m : Market) (ctx : Option Nat) (f : Frr) (pa : Nat) : Caches :=
  let o := (pa - frrW f) % frrT f
  if o < 128 * frrPlanes f then
    (upto (frrPlanes f)).foldl (fun k i => let p := pa - o + 128 * i; if k.has p then k else k.fill m ctx p false) ((upto 4).foldl (fun k _ => k.hbm ctx) k)
  else (scaleLines f ((pa - frrW f) / frrT f)).foldl (fun k _ => k.hbm ctx) (k.fill m ctx pa false)

/-- A request to the home slice of a line, for a context (R188 to R190). -/
def Caches.home (k : Caches) (m : Market) (ctx : Option Nat) (pa : Nat) (write : Bool) : Caches :=
  let line := pa / 128
  let slice := sliceOf pa
  let die := slice / 64
  let xs := tget [] k.l2 slice
  let k := k.serve ctx
  match xs.find? (fun x => x.line == line) with
  | some x =>
    let k := if 12 ≤ x.way then
        let k := (k.note ctx 0x35).serve ctx
        if x.ctx ≠ ctx then k.note ctx 0x39 else k
      else if wayHeld m ctx die x.way then k.note ctx 0x32 else k
    if write then k.soil line else k
  | none =>
    match k.windows.find? (fun f => inRange pa (frrW f) (frrWSize f)) with
    | some f => k.relay m ctx f (pa / 128 * 128)
    | none => (k.fill m ctx pa write).hbm ctx

/-- The ways of a core's L1: bank group 0, and the leased bank groups configured as L1 ways (R68). -/
def l1Ways (m : Market) (core : Nat) : List Nat :=
  (upto 8).flatMap (fun g =>
    let u := tget {} m.units (4096 + 7 * core + (g - 1))
    if g = 0 ∨ (u.holder.isSome ∧ u.cfg = 1) then (upto 8).map (fun w => 8 * g + w) else [])

/-- Whether a core's L1 serves a context: the holder of the core's cluster (R68). -/
def l1Serves (m : Market) (core ctx : Nat) : Bool := (tget {} m.units (clusterOf core)).holder == some ctx

/-- Key of the L1 set of an address at a core: VA[16:7] (R68). -/
def l1Key (core va : Nat) : Nat := core * 1024 + va / 128 % 1024

/-- An access through a core's L1 (R68); a store takes exclusive ownership of the line (04 R97). -/
def Caches.viaL1 (k : Caches) (m : Market) (core ctx va pa : Nat) (write : Bool) : Caches :=
  let line := pa / 128
  let key := l1Key core va
  match (tget [] k.l1 key).find? (fun x => x.line == line) with
  | some x =>
    let k := k.note (some ctx) 0x30
    if !write then k
    else
      let k := if x.excl then k else (k.share line).note (some ctx) 0x42
      { k with l1 := tset k.l1 key ((tget [] k.l1 key).map (fun y => if y.line = line then { y with excl := true, dirty := true } else y)) }
  | none =>
    let k := (k.share line).note (some ctx) 0x31
    let k := k.home m (some ctx) pa false
    let k := if write then k.note (some ctx) 0x42 else k
    let ys := tget [] k.l1 key
    let ways := l1Ways m core
    let way := match ways.find? (fun w => !ys.any (fun y => y.way == w)) with
      | some w => w
      | none => ways.getD (Config.choice 51 k.ctr % ways.length) 0
    let k := (ys.filter (fun y => y.way == way && y.dirty)).foldl (fun k y => k.soil y.line) { k with ctr := k.ctr + 1 }
    { k with l1 := tset k.l1 key (⟨line, way, write, write⟩ :: ys.filter (fun y => y.way ≠ way)) }

/-- An access performed at the home slice: a copy that a core owns goes there first. -/
def Caches.atHome (k : Caches) (m : Market) (ctx : Option Nat) (pa : Nat) (write : Bool) : Caches := (k.share (pa / 128)).home m ctx pa write

/-- How a thread's access is performed (R89, 16 R381, R382). -/
inductive CacheUse where
  | load
  | store
  /-- An atomic of block or cluster scope, and of a wider one. -/
  | near
  | far
deriving DecidableEq, Repr

/-- An access of a thread of a context on a core. A store is performed at the L1 of its core or at the home slice (16 R382, log 50). -/
def Caches.ofThread (k : Caches) (m : Market) (core ctx va pa : Nat) (u : CacheUse) : Caches :=
  if !l1Serves m core ctx then k.atHome m (some ctx) pa (u ≠ .load)
  else match u with
    | .load => k.viaL1 m core ctx va pa false
    | .near => k.viaL1 m core ctx va pa true
    | .far => k.atHome m (some ctx) pa true
    | .store =>
      if Config.choice 52 k.ctr % 2 = 0 then { k with ctr := k.ctr + 1 }.viaL1 m core ctx va pa true
      else { k with ctr := k.ctr + 1 }.atHome m (some ctx) pa true

/-! ### Their effect on the state -/

def State.caches (s : State) : Caches := { l1 := s.l1, l2 := s.l2, ctr := s.freeCtr, windows := (frrOn s).map Prod.snd }

/-- Counts events in the sessions of a context (20 R470, R472). -/
def sessionsCount (z : Tab Session) (codes : List Nat) : Tab Session :=
  let add (x : Session) (t : Tab Nat) (k : Nat) : Tab Nat :=
    let n := (codes.filter (fun c => tget 0 x.sel k = c)).length
    if n ≠ 0 ∧ !(tget false x.inval k) then tset t k ((tget 0 t k + n) % 2 ^ 63) else t
  if z.isEmpty then z
  else tmap (fun _ x => if x.isOpen && x.run then { x with cnt := (upto 8).foldl (add x) x.cnt } else x) z

/-- The state after accesses to the caches: nothing but the caches, the counters of sessions and what shared units served changes. -/
def State.withCaches (s : State) (k : Caches) : State :=
  { s with
      l1 := k.l1
      l2 := k.l2
      freeCtr := k.ctr
      shared := { s.shared with served := s.shared.served + k.served.length }
      ctxs := tmap (fun c x => { x with sessions := sessionsCount x.sessions ((k.events.filter (fun e => e.1 = c)).map Prod.snd)
                                        served := x.served + (k.served.filter (· = c)).length }) s.ctxs }

/-- A thread's access to a line of this device's HBM. -/
def touchLine (s : State) (core ctx va pa : Nat) (u : CacheUse) : State := s.withCaches (s.caches.ofThread s.mkt core ctx va pa u)

/-- An access of an engine, a map unit or a rafter to bytes of this device's HBM, line by line at the home slices. -/
def touchHome (s : State) (ctx : Option Nat) (pa n : Nat) (write : Bool) : State :=
  if n = 0 then s
  else s.withCaches ((upto ((pa + n - 1) / 128 + 1 - pa / 128)).foldl (fun k i => k.atHome s.mkt ctx ((pa / 128 + i) * 128) write) s.caches)

/-- The bytes of an enabled register's plane window whose tiles hold a byte of its packed regions, as base and size (03 R84, R86). -/
def planesOf (f : Frr) (a : Nat) : List (Nat × Nat) :=
  let tile (kt nt : Nat) : Nat × Nat := (frrW f + (kt * frrNT f + nt) * frrT f, frrT f)
  if inRange a (frrD f) (frrDSize f) then
    let o := a - frrD f
    [tile (o / (512 * frrNT f)) (o % (512 * frrNT f) / 512)]
  else if inRange a (frrS f) (frrSSize f) then
    let row := 32 * frrKT f / frrGroup f
    let o := a - frrS f
    (upto (frrGroup f / 32)).map (fun i => tile (o % row * (frrGroup f / 32) + i) (o / row / 32))
  else []

/-- Lines leave the caches without being written: those of plane windows, which are never dirty (03 R86, R88). -/
def Caches.forget (k : Caches) (ranges : List (Nat × Nat)) : Caches :=
  let out (line : Nat) : Bool := !ranges.any (fun r => decide (r.1 < line * 128 + 128 ∧ line * 128 < r.1 + r.2))
  { k with l1 := tmap (fun _ xs => xs.filter (fun x => out x.line)) k.l1, l2 := tmap (fun _ xs => xs.filter (fun x => out x.line)) k.l2 }

/-- A write to packed data invalidates the plane lines of the tiles that hold a written byte (03 R86). -/
def dropPlanes (s : State) (pa n : Nat) : State :=
  let rs := (frrOn s).flatMap (fun e => (upto n).flatMap (fun i => planesOf e.2 (pa + i)))
  if rs.isEmpty then s else s.withCaches (s.caches.forget rs)

/-! ### Leases that end (R69, R180) -/

/-- The lines in ways of a core's L1 are written back and invalidated. -/
def Caches.cleanL1 (k : Caches) (core : Nat) (p : Nat → Bool) : Caches :=
  let mine (e : Nat × List L1Line) : Bool := decide (e.1 / 1024 = core)
  let dirty := k.l1.flatMap (fun e => if mine e then (e.2.filter (fun x => p x.way && x.dirty)).map L1Line.line else [])
  let k := dirty.foldl Caches.soil k
  { k with l1 := tmap (fun n xs => if n / 1024 = core then xs.filter (fun x => !p x.way) else xs) k.l1 }

/-- The lines in a way of a die's slices are written back and invalidated. -/
def Caches.cleanWay (k : Caches) (die way : Nat) : Caches :=
  let gone := k.l2.flatMap (fun e => if e.1 / 64 = die then e.2.filter (fun x => x.way == way) else [])
  let k := gone.foldl (fun k v => k.evict v v.ctx) k
  { k with l2 := tmap (fun n xs => if n / 64 = die then xs.filter (fun x => x.way ≠ way) else xs) k.l2 }

/-- The cores of a cluster (01 R12). -/
def clusterCores (cl : Nat) : List Nat :=
  let c := cl / 16 * 64 + cl % 16 / 4 * 16 + cl % 4 * 2
  [c, c + 1, c + 8, c + 9]

/-- What a unit that lapses held in the caches is written back and invalidated: the L1s of a cluster, the ways of a bank group, an L2 way. -/
def cleanUnit (s : State) (cls u : Nat) : State :=
  match cls with
  | 0 => s.withCaches ((clusterCores u).foldl (fun k n => k.cleanL1 n (fun _ => true)) s.caches)
  | 1 => s.withCaches (s.caches.cleanL1 (u / 7) (fun w => decide (w / 8 = u % 7 + 1)))
  | 2 => s.withCaches (s.caches.cleanWay (u / 12) (u % 12))
  | _ => s

end Sys2Proof.Machine
end

