-- ==== Sys2Proof/Machine/Operands.lean ====
section
/-!
DEFINITION. What an instruction word says about its operands, read off its fields alone (05_encoding.md R123, R124, R128, R133): the
execution scope and the scopes it admits, the guard, the pipe, the register classes of its fields, its least privilege, and the field
values that raise ILL whatever the state. The system register map (19_system.md R443, 20_observe.md R459) is here too.
-/

namespace Sys2Proof.Machine

/-- Register classes of R128; `q` is the w quad of a 16-byte access and `pair` the even w pair of CAS (R127). -/
inductive Cls where
  | w
  | x
  | q
  | g
  | p
  | z
  | pair
deriving DecidableEq, Repr

/-- The pipes of R124. -/
inductive Pipe where
  | none
  | v
  | sf
  | me
  | ct
  | en
deriving DecidableEq, Repr

/-- A register that a field names: its class, the field's value, and whether the word writes it. -/
structure RegUse where
  cls : Cls
  n : Nat
  wr : Bool
deriving DecidableEq, Repr

/-- What a word says by itself. `sc` is 0 for a format without the field and for a word that ignores it. -/
structure WordInfo where
  fmt : Nat := 0
  c : Bool := false
  s : Bool := false
  sc : Nat := 0
  pr : Nat := 3
  /-- Bit k set: scope k is admitted (R123). -/
  scopes : Nat := 0xF
  pipe : Pipe := .none
  uses : List RegUse := []
  /-- Least privilege (R133). -/
  priv : Nat := 0
  /-- A reserved subfield value or combination: ILL that the encoding itself decides (R122 item 1). -/
  bad : Bool := false
  /-- A constant operand that the word's own description refuses with ILL (R122 item 6). -/
  late : Bool := false
deriving DecidableEq, Repr

/-- Whether a field value lies in its class (R128). -/
def clsOk (u : RegUse) : Bool :=
  match u.cls with
  | .w => u.n < 32
  | .x | .pair => u.n < 32 && u.n % 2 == 0
  | .q => u.n < 32 && u.n % 4 == 0
  | .g => u.n < 16
  | .p => u.n < 3
  | .z => u.n < 8

/-- The w registers that a register use covers. -/
def useRegs (u : RegUse) : List Nat :=
  match u.cls with
  | .w => [u.n]
  | .x | .pair => [u.n, u.n + 1]
  | .q => [u.n, u.n + 1, u.n + 2, u.n + 3]
  | .g | .p | .z => []

/-- Whether a register use names w16 to w31 (R128, R261). -/
def useExt (u : RegUse) : Bool := (useRegs u).any (fun r => 15 < r)

/-- Classes of a load's and a store's D field (R379). -/
def ldClass (sz : BitVec 3) : Cls := if sz = 5 then .x else if sz = 6 then .q else .w
def stClass (sz : BitVec 3) : Cls := if sz = 3 then .x else if sz = 4 then .q else .w

/-- A QFENCE mask over bits [5:0] with fewer than two bits set (R430). -/
def fewTwo (k : Nat) : Bool := decide (((upToBits k).length) < 2)
where
  upToBits (k : Nat) : List Nat := (List.range 6).filter (fun i => k.testBit i)

/-! ### System registers (R443, R459): width, least privilege to read and to write -/

/-- A system register: 64 bits wide, read privilege, write privilege (4: no privilege may write). -/
structure SregInfo where
  wide : Bool
  read : Nat
  write : Nat
deriving DecidableEq, Repr

/-- The map of R443 and R459. -/
def sregInfo (n : Nat) : Option SregInfo :=
  if n = 0x000 then some ⟨false, 0, 4⟩          -- LOC
  else if n = 0x001 then some ⟨true, 0, 4⟩      -- GTS
  else if n = 0x002 then some ⟨false, 0, 4⟩     -- CTXID
  else if n = 0x003 then some ⟨true, 0, 4⟩      -- CTXEN
  else if n = 0x004 then some ⟨false, 0, 0⟩     -- GSTAT
  else if n = 0x005 then some ⟨false, 0, 0⟩     -- FPC
  else if n = 0x006 then some ⟨false, 0, 4⟩     -- DTS
  else if n = 0x007 then some ⟨false, 0, 4⟩     -- PRIVL
  else if n = 0x010 then some ⟨true, 0, 0⟩      -- TVEC
  else if n = 0x011 then some ⟨true, 0, 0⟩      -- NBASE
  else if n = 0x012 then some ⟨true, 0, 0⟩      -- NPTR
  else if n = 0x013 then some ⟨false, 1, 1⟩     -- NMASK
  else if n = 0x014 then some ⟨true, 0, 1⟩      -- WRTB
  else if n = 0x015 then some ⟨false, 0, 1⟩     -- RACECTL
  else if n = 0x018 then some ⟨true, 0, 1⟩      -- AMHT
  else if n = 0x019 then some ⟨true, 0, 1⟩      -- AMFEED
  else if n = 0x01A then some ⟨false, 1, 2⟩     -- AMKEY
  else if n = 0x01B then some ⟨true, 0, 4⟩      -- AMSTAT
  else if 0x020 ≤ n ∧ n < 0x02A then some ⟨true, 0, if n % 2 = 0 then 0 else 4⟩   -- BIDc and its WGTS
  else if 0x030 ≤ n ∧ n < 0x035 then some ⟨true, 0, 4⟩   -- SPOTc
  else if 0x038 ≤ n ∧ n < 0x03C then some ⟨true, 0, 4⟩   -- ERECk
  else if n = 0x03C then some ⟨false, 0, 4⟩     -- ECNT
  else if n = 0x03D then some ⟨false, 0, 0⟩     -- EPOP
  else if n = 0x040 then some ⟨false, 0, 4⟩     -- TCAUSE
  else if n = 0x041 then some ⟨true, 0, 4⟩      -- TINFO
  else if n = 0x042 then some ⟨true, 0, 4⟩      -- TPC
  else if n = 0x043 then some ⟨true, 0, 0⟩      -- TEPC
  else if n = 0x044 then some ⟨true, 0, 4⟩      -- TADDR
  else if n = 0x045 then some ⟨true, 0, 4⟩      -- TSYN
  else if n = 0x046 then some ⟨false, 0, 0⟩     -- LDROP
  else if n = 0x100 then some ⟨true, 0, 1⟩      -- TRBASE
  else if n = 0x101 then some ⟨true, 0, 0⟩      -- TRPTR
  else if n = 0x102 then some ⟨false, 0, 1⟩     -- TRMASK
  else if n = 0x108 then some ⟨true, 0, 1⟩      -- SMPBASE
  else if n = 0x109 then some ⟨true, 0, 0⟩      -- SMPPTR
  else if n = 0x10A then some ⟨false, 0, 1⟩     -- SMPCTL
  else if n = 0x10C ∨ n = 0x10D then some ⟨true, 0, 4⟩   -- EVAV0, EVAV1
  else if 0x140 ≤ n ∧ n < 0x1C0 then
    let k := n % 32
    if k = 0 then some ⟨true, 0, 0⟩             -- PSCTLn
    else if 8 ≤ k ∧ k < 16 then some ⟨false, 0, 0⟩   -- PSELnk
    else if 16 ≤ k ∧ k < 24 then some ⟨true, 0, 0⟩   -- PCNTnk
    else none
  else none

def sregKnown (n : Nat) : Bool := (sregInfo n).isSome
def sregWide (n : Nat) : Bool := match sregInfo n with | some r => r.wide | none => false
def sregWritable (n : Nat) : Bool := match sregInfo n with | some r => r.write < 4 | none => false

/-- The group registers that a pop writes (18 R438). -/
def popUses : List RegUse := [8, 9, 10, 11, 12, 13, 14, 15].map (fun k => ⟨.g, k, true⟩)

/-- What each instruction says by itself (R123 to R133 and the operand tables of the instruction chapters). -/
def wordInfo : Instr → WordInfo
  | .nop f => { fmt := 2, c := f.c, s := f.s, pr := f.pr.toNat, pipe := .ct, scopes := 0x1 }
  | .bra f => { fmt := 3, c := f.c, s := f.s, pr := f.pr.toNat, pipe := .ct, scopes := 0x1 }
  | .brx f => { fmt := 0, c := f.c, s := f.s, pr := f.pr.toNat, pipe := .ct, sc := f.sc.toNat, uses := [⟨.x, f.a.toNat, false⟩] }
  | .call f => { fmt := 3, c := f.c, s := f.s, pr := f.pr.toNat, pipe := .ct, scopes := 0x1, uses := [⟨.w, 14, true⟩] }
  | .callx f => { fmt := 0, c := f.c, s := f.s, pr := f.pr.toNat, pipe := .ct, sc := f.sc.toNat, uses := [⟨.x, f.a.toNat, false⟩, ⟨.w, 14, true⟩] }
  | .ret f => { fmt := 0, c := f.c, s := f.s, pr := f.pr.toNat, pipe := .ct, sc := f.sc.toNat }
  | .exit f => { fmt := 0, c := f.c, s := f.s, pr := f.pr.toNat, pipe := .ct, sc := f.sc.toNat }
  | .yield f => { fmt := 2, c := f.c, s := f.s, pr := f.pr.toNat, pipe := .ct, scopes := 0x1 }
  | .sleep f => { fmt := 2, c := f.c, s := f.s, pr := f.pr.toNat, pipe := .ct, scopes := 0x1 }
  | .pand f => { fmt := 0, c := f.c, s := f.s, pr := f.pr.toNat, pipe := .ct, sc := f.sc.toNat, uses := [⟨.p, f.d.toNat, true⟩, ⟨.p, f.a.toNat, false⟩, ⟨.p, f.b.toNat, false⟩] }
  | .por f => { fmt := 0, c := f.c, s := f.s, pr := f.pr.toNat, pipe := .ct, sc := f.sc.toNat, uses := [⟨.p, f.d.toNat, true⟩, ⟨.p, f.a.toNat, false⟩, ⟨.p, f.b.toNat, false⟩] }
  | .pxor f => { fmt := 0, c := f.c, s := f.s, pr := f.pr.toNat, pipe := .ct, sc := f.sc.toNat, uses := [⟨.p, f.d.toNat, true⟩, ⟨.p, f.a.toNat, false⟩, ⟨.p, f.b.toNat, false⟩] }
  | .pnot f => { fmt := 0, c := f.c, s := f.s, pr := f.pr.toNat, pipe := .ct, sc := f.sc.toNat, uses := [⟨.p, f.d.toNat, true⟩, ⟨.p, f.a.toNat, false⟩] }
  | .voteAny f => { fmt := 0, c := f.c, s := f.s, pr := f.pr.toNat, pipe := .ct, sc := f.sc.toNat, uses := [⟨.p, f.d.toNat, true⟩, ⟨.p, f.a.toNat, false⟩] }
  | .voteAll f => { fmt := 0, c := f.c, s := f.s, pr := f.pr.toNat, pipe := .ct, sc := f.sc.toNat, uses := [⟨.p, f.d.toNat, true⟩, ⟨.p, f.a.toNat, false⟩] }
  | .voteBal f => { fmt := 0, c := f.c, s := f.s, pr := f.pr.toNat, pipe := .ct, sc := f.sc.toNat, scopes := 0x3, uses := [⟨.w, f.d.toNat, true⟩, ⟨.p, f.a.toNat, false⟩] }
  | .pset cond f => { fmt := 0, c := f.c, s := f.s, pr := f.pr.toNat, pipe := .v, sc := f.sc.toNat, uses := [⟨.p, f.d.toNat, true⟩, ⟨.w, f.a.toNat, false⟩, ⟨.w, f.b.toNat, false⟩], bad := decide (9 < cond.toNat) }
  | .psetk cond f => { fmt := 1, c := f.c, s := f.s, pr := f.pr.toNat, pipe := .v, sc := f.sc.toNat, uses := [⟨.p, f.d.toNat, true⟩, ⟨.w, f.a.toNat, false⟩], bad := decide (9 < cond.toNat) }
  | .prd f => { fmt := 0, c := f.c, s := f.s, pr := f.pr.toNat, pipe := .ct, sc := f.sc.toNat, uses := [⟨.w, f.d.toNat, true⟩, ⟨.p, f.a.toNat, false⟩] }
  | .pwr f => { fmt := 0, c := f.c, s := f.s, pr := f.pr.toNat, pipe := .ct, sc := f.sc.toNat, uses := [⟨.p, f.d.toNat, true⟩, ⟨.w, f.a.toNat, false⟩] }
  | .rep f => { fmt := 7, c := f.c, s := f.s, pr := 3, pipe := .none, scopes := 0x1, bad := decide (f.cnt = 0) }
  | .add f => { fmt := 0, c := f.c, s := f.s, pr := f.pr.toNat, pipe := .v, sc := f.sc.toNat, uses := [⟨.w, f.d.toNat, true⟩, ⟨.w, f.a.toNat, false⟩, ⟨.w, f.b.toNat, false⟩] }
  | .sub f => { fmt := 0, c := f.c, s := f.s, pr := f.pr.toNat, pipe := .v, sc := f.sc.toNat, uses := [⟨.w, f.d.toNat, true⟩, ⟨.w, f.a.toNat, false⟩, ⟨.w, f.b.toNat, false⟩] }
  | .addk f => { fmt := 1, c := f.c, s := f.s, pr := f.pr.toNat, pipe := .v, sc := f.sc.toNat, uses := [⟨.w, f.d.toNat, true⟩, ⟨.w, f.a.toNat, false⟩] }
  | .adds f => { fmt := 0, c := f.c, s := f.s, pr := f.pr.toNat, pipe := .v, sc := f.sc.toNat, uses := [⟨.w, f.d.toNat, true⟩, ⟨.w, f.a.toNat, false⟩, ⟨.w, f.b.toNat, false⟩] }
  | .subs f => { fmt := 0, c := f.c, s := f.s, pr := f.pr.toNat, pipe := .v, sc := f.sc.toNat, uses := [⟨.w, f.d.toNat, true⟩, ⟨.w, f.a.toNat, false⟩, ⟨.w, f.b.toNat, false⟩] }
  | .mul f => { fmt := 0, c := f.c, s := f.s, pr := f.pr.toNat, pipe := .v, sc := f.sc.toNat, uses := [⟨.w, f.d.toNat, true⟩, ⟨.w, f.a.toNat, false⟩, ⟨.w, f.b.toNat, false⟩] }
  | .mulh f => { fmt := 0, c := f.c, s := f.s, pr := f.pr.toNat, pipe := .v, sc := f.sc.toNat, uses := [⟨.w, f.d.toNat, true⟩, ⟨.w, f.a.toNat, false⟩, ⟨.w, f.b.toNat, false⟩] }
  | .mulhu f => { fmt := 0, c := f.c, s := f.s, pr := f.pr.toNat, pipe := .v, sc := f.sc.toNat, uses := [⟨.w, f.d.toNat, true⟩, ⟨.w, f.a.toNat, false⟩, ⟨.w, f.b.toNat, false⟩] }
  | .mad f => { fmt := 0, c := f.c, s := f.s, pr := f.pr.toNat, pipe := .v, sc := f.sc.toNat, uses := [⟨.w, f.d.toNat, true⟩, ⟨.w, f.a.toNat, false⟩, ⟨.w, f.b.toNat, false⟩] }
  | .min f => { fmt := 0, c := f.c, s := f.s, pr := f.pr.toNat, pipe := .v, sc := f.sc.toNat, uses := [⟨.w, f.d.toNat, true⟩, ⟨.w, f.a.toNat, false⟩, ⟨.w, f.b.toNat, false⟩] }
  | .max f => { fmt := 0, c := f.c, s := f.s, pr := f.pr.toNat, pipe := .v, sc := f.sc.toNat, uses := [⟨.w, f.d.toNat, true⟩, ⟨.w, f.a.toNat, false⟩, ⟨.w, f.b.toNat, false⟩] }
  | .minu f => { fmt := 0, c := f.c, s := f.s, pr := f.pr.toNat, pipe := .v, sc := f.sc.toNat, uses := [⟨.w, f.d.toNat, true⟩, ⟨.w, f.a.toNat, false⟩, ⟨.w, f.b.toNat, false⟩] }
  | .maxu f => { fmt := 0, c := f.c, s := f.s, pr := f.pr.toNat, pipe := .v, sc := f.sc.toNat, uses := [⟨.w, f.d.toNat, true⟩, ⟨.w, f.a.toNat, false⟩, ⟨.w, f.b.toNat, false⟩] }
  | .and f => { fmt := 0, c := f.c, s := f.s, pr := f.pr.toNat, pipe := .v, sc := f.sc.toNat, uses := [⟨.w, f.d.toNat, true⟩, ⟨.w, f.a.toNat, false⟩, ⟨.w, f.b.toNat, false⟩] }
  | .or f => { fmt := 0, c := f.c, s := f.s, pr := f.pr.toNat, pipe := .v, sc := f.sc.toNat, uses := [⟨.w, f.d.toNat, true⟩, ⟨.w, f.a.toNat, false⟩, ⟨.w, f.b.toNat, false⟩] }
  | .xor f => { fmt := 0, c := f.c, s := f.s, pr := f.pr.toNat, pipe := .v, sc := f.sc.toNat, uses := [⟨.w, f.d.toNat, true⟩, ⟨.w, f.a.toNat, false⟩, ⟨.w, f.b.toNat, false⟩] }
  | .andn f => { fmt := 0, c := f.c, s := f.s, pr := f.pr.toNat, pipe := .v, sc := f.sc.toNat, uses := [⟨.w, f.d.toNat, true⟩, ⟨.w, f.a.toNat, false⟩, ⟨.w, f.b.toNat, false⟩] }
  | .shl f => { fmt := 0, c := f.c, s := f.s, pr := f.pr.toNat, pipe := .v, sc := f.sc.toNat, uses := [⟨.w, f.d.toNat, true⟩, ⟨.w, f.a.toNat, false⟩, ⟨.w, f.b.toNat, false⟩] }
  | .shr f => { fmt := 0, c := f.c, s := f.s, pr := f.pr.toNat, pipe := .v, sc := f.sc.toNat, uses := [⟨.w, f.d.toNat, true⟩, ⟨.w, f.a.toNat, false⟩, ⟨.w, f.b.toNat, false⟩] }
  | .sar f => { fmt := 0, c := f.c, s := f.s, pr := f.pr.toNat, pipe := .v, sc := f.sc.toNat, uses := [⟨.w, f.d.toNat, true⟩, ⟨.w, f.a.toNat, false⟩, ⟨.w, f.b.toNat, false⟩] }
  | .shli f => { fmt := 1, c := f.c, s := f.s, pr := f.pr.toNat, pipe := .v, sc := f.sc.toNat, uses := [⟨.w, f.d.toNat, true⟩, ⟨.w, f.a.toNat, false⟩] }
  | .shri f => { fmt := 1, c := f.c, s := f.s, pr := f.pr.toNat, pipe := .v, sc := f.sc.toNat, uses := [⟨.w, f.d.toNat, true⟩, ⟨.w, f.a.toNat, false⟩] }
  | .sari f => { fmt := 1, c := f.c, s := f.s, pr := f.pr.toNat, pipe := .v, sc := f.sc.toNat, uses := [⟨.w, f.d.toNat, true⟩, ⟨.w, f.a.toNat, false⟩] }
  | .sel f => { fmt := 0, c := f.c, s := f.s, pr := f.pr.toNat, pipe := .v, sc := f.sc.toNat, uses := [⟨.w, f.d.toNat, true⟩, ⟨.w, f.a.toNat, false⟩, ⟨.w, f.b.toNat, false⟩] }
  | .popc f => { fmt := 0, c := f.c, s := f.s, pr := f.pr.toNat, pipe := .v, sc := f.sc.toNat, uses := [⟨.w, f.d.toNat, true⟩, ⟨.w, f.a.toNat, false⟩] }
  | .clz f => { fmt := 0, c := f.c, s := f.s, pr := f.pr.toNat, pipe := .v, sc := f.sc.toNat, uses := [⟨.w, f.d.toNat, true⟩, ⟨.w, f.a.toNat, false⟩] }
  | .brev f => { fmt := 0, c := f.c, s := f.s, pr := f.pr.toNat, pipe := .v, sc := f.sc.toNat, uses := [⟨.w, f.d.toNat, true⟩, ⟨.w, f.a.toNat, false⟩] }
  | .bfx f => { fmt := 0, c := f.c, s := f.s, pr := f.pr.toNat, pipe := .v, sc := f.sc.toNat, uses := [⟨.w, f.d.toNat, true⟩, ⟨.w, f.a.toNat, false⟩, ⟨.w, f.b.toNat, false⟩] }
  | .bfxs f => { fmt := 0, c := f.c, s := f.s, pr := f.pr.toNat, pipe := .v, sc := f.sc.toNat, uses := [⟨.w, f.d.toNat, true⟩, ⟨.w, f.a.toNat, false⟩, ⟨.w, f.b.toNat, false⟩] }
  | .bfi f => { fmt := 0, c := f.c, s := f.s, pr := f.pr.toNat, pipe := .v, sc := f.sc.toNat, uses := [⟨.w, f.d.toNat, true⟩, ⟨.w, f.a.toNat, false⟩, ⟨.w, f.b.toNat, false⟩] }
  | .mov f => { fmt := 0, c := f.c, s := f.s, pr := f.pr.toNat, pipe := .v, sc := f.sc.toNat, uses := [⟨.w, f.d.toNat, true⟩, ⟨.w, f.a.toNat, false⟩] }
  | .movk f => { fmt := 2, c := f.c, s := f.s, pr := f.pr.toNat, pipe := .v, scopes := 0x1, uses := [⟨.w, f.d.toNat, true⟩] }
  | .shlk f => { fmt := 2, c := f.c, s := f.s, pr := f.pr.toNat, pipe := .v, scopes := 0x1, uses := [⟨.w, f.d.toNat, true⟩] }
  | .movg f => { fmt := 0, c := f.c, s := f.s, pr := f.pr.toNat, pipe := .ct, sc := f.sc.toNat, uses := [⟨.g, f.d.toNat, true⟩, ⟨.w, f.a.toNat, false⟩] }
  | .movw f => { fmt := 0, c := f.c, s := f.s, pr := f.pr.toNat, pipe := .ct, sc := f.sc.toNat, uses := [⟨.w, f.d.toNat, true⟩, ⟨.g, f.a.toNat, false⟩] }
  | .add64 f => { fmt := 0, c := f.c, s := f.s, pr := f.pr.toNat, pipe := .v, sc := f.sc.toNat, uses := [⟨.x, f.d.toNat, true⟩, ⟨.x, f.a.toNat, false⟩, ⟨.x, f.b.toNat, false⟩] }
  | .sub64 f => { fmt := 0, c := f.c, s := f.s, pr := f.pr.toNat, pipe := .v, sc := f.sc.toNat, uses := [⟨.x, f.d.toNat, true⟩, ⟨.x, f.a.toNat, false⟩, ⟨.x, f.b.toNat, false⟩] }
  | .addk64 f => { fmt := 1, c := f.c, s := f.s, pr := f.pr.toNat, pipe := .v, sc := f.sc.toNat, uses := [⟨.x, f.d.toNat, true⟩, ⟨.x, f.a.toNat, false⟩] }
  | .shl64 f => { fmt := 0, c := f.c, s := f.s, pr := f.pr.toNat, pipe := .v, sc := f.sc.toNat, uses := [⟨.x, f.d.toNat, true⟩, ⟨.x, f.a.toNat, false⟩, ⟨.w, f.b.toNat, false⟩] }
  | .shr64 f => { fmt := 0, c := f.c, s := f.s, pr := f.pr.toNat, pipe := .v, sc := f.sc.toNat, uses := [⟨.x, f.d.toNat, true⟩, ⟨.x, f.a.toNat, false⟩, ⟨.w, f.b.toNat, false⟩] }
  | .sext64 f => { fmt := 0, c := f.c, s := f.s, pr := f.pr.toNat, pipe := .v, sc := f.sc.toNat, uses := [⟨.x, f.d.toNat, true⟩, ⟨.w, f.a.toNat, false⟩] }
  | .zext64 f => { fmt := 0, c := f.c, s := f.s, pr := f.pr.toNat, pipe := .v, sc := f.sc.toNat, uses := [⟨.x, f.d.toNat, true⟩, ⟨.w, f.a.toNat, false⟩] }
  | .lea _ f => { fmt := 0, c := f.c, s := f.s, pr := f.pr.toNat, pipe := .v, sc := f.sc.toNat, uses := [⟨.x, f.d.toNat, true⟩, ⟨.x, f.a.toNat, false⟩, ⟨.w, f.b.toNat, false⟩] }
  | .fadd _ f => { fmt := 0, c := f.c, s := f.s, pr := f.pr.toNat, pipe := .v, sc := f.sc.toNat, uses := [⟨.w, f.d.toNat, true⟩, ⟨.w, f.a.toNat, false⟩, ⟨.w, f.b.toNat, false⟩] }
  | .fsub _ f => { fmt := 0, c := f.c, s := f.s, pr := f.pr.toNat, pipe := .v, sc := f.sc.toNat, uses := [⟨.w, f.d.toNat, true⟩, ⟨.w, f.a.toNat, false⟩, ⟨.w, f.b.toNat, false⟩] }
  | .fmul _ f => { fmt := 0, c := f.c, s := f.s, pr := f.pr.toNat, pipe := .v, sc := f.sc.toNat, uses := [⟨.w, f.d.toNat, true⟩, ⟨.w, f.a.toNat, false⟩, ⟨.w, f.b.toNat, false⟩] }
  | .ffma _ f => { fmt := 0, c := f.c, s := f.s, pr := f.pr.toNat, pipe := .v, sc := f.sc.toNat, uses := [⟨.w, f.d.toNat, true⟩, ⟨.w, f.a.toNat, false⟩, ⟨.w, f.b.toNat, false⟩] }
  | .fmin f => { fmt := 0, c := f.c, s := f.s, pr := f.pr.toNat, pipe := .v, sc := f.sc.toNat, uses := [⟨.w, f.d.toNat, true⟩, ⟨.w, f.a.toNat, false⟩, ⟨.w, f.b.toNat, false⟩] }
  | .fmax f => { fmt := 0, c := f.c, s := f.s, pr := f.pr.toNat, pipe := .v, sc := f.sc.toNat, uses := [⟨.w, f.d.toNat, true⟩, ⟨.w, f.a.toNat, false⟩, ⟨.w, f.b.toNat, false⟩] }
  | .fabs f => { fmt := 0, c := f.c, s := f.s, pr := f.pr.toNat, pipe := .v, sc := f.sc.toNat, uses := [⟨.w, f.d.toNat, true⟩, ⟨.w, f.a.toNat, false⟩] }
  | .fneg f => { fmt := 0, c := f.c, s := f.s, pr := f.pr.toNat, pipe := .v, sc := f.sc.toNat, uses := [⟨.w, f.d.toNat, true⟩, ⟨.w, f.a.toNat, false⟩] }
  | .fsetEqToLe _ f => { fmt := 0, c := f.c, s := f.s, pr := f.pr.toNat, pipe := .v, sc := f.sc.toNat, uses := [⟨.p, f.d.toNat, true⟩, ⟨.w, f.a.toNat, false⟩, ⟨.w, f.b.toNat, false⟩] }
  | .fsetGtToOr _ f => { fmt := 0, c := f.c, s := f.s, pr := f.pr.toNat, pipe := .v, sc := f.sc.toNat, uses := [⟨.p, f.d.toNat, true⟩, ⟨.w, f.a.toNat, false⟩, ⟨.w, f.b.toNat, false⟩] }
  | .hadd2 _ f => { fmt := 0, c := f.c, s := f.s, pr := f.pr.toNat, pipe := .v, sc := f.sc.toNat, uses := [⟨.w, f.d.toNat, true⟩, ⟨.w, f.a.toNat, false⟩, ⟨.w, f.b.toNat, false⟩] }
  | .hsub2 _ f => { fmt := 0, c := f.c, s := f.s, pr := f.pr.toNat, pipe := .v, sc := f.sc.toNat, uses := [⟨.w, f.d.toNat, true⟩, ⟨.w, f.a.toNat, false⟩, ⟨.w, f.b.toNat, false⟩] }
  | .hmul2 _ f => { fmt := 0, c := f.c, s := f.s, pr := f.pr.toNat, pipe := .v, sc := f.sc.toNat, uses := [⟨.w, f.d.toNat, true⟩, ⟨.w, f.a.toNat, false⟩, ⟨.w, f.b.toNat, false⟩] }
  | .hfma2 _ f => { fmt := 0, c := f.c, s := f.s, pr := f.pr.toNat, pipe := .v, sc := f.sc.toNat, uses := [⟨.w, f.d.toNat, true⟩, ⟨.w, f.a.toNat, false⟩, ⟨.w, f.b.toNat, false⟩] }
  | .hmin2 f => { fmt := 0, c := f.c, s := f.s, pr := f.pr.toNat, pipe := .v, sc := f.sc.toNat, uses := [⟨.w, f.d.toNat, true⟩, ⟨.w, f.a.toNat, false⟩, ⟨.w, f.b.toNat, false⟩] }
  | .hmax2 f => { fmt := 0, c := f.c, s := f.s, pr := f.pr.toNat, pipe := .v, sc := f.sc.toNat, uses := [⟨.w, f.d.toNat, true⟩, ⟨.w, f.a.toNat, false⟩, ⟨.w, f.b.toNat, false⟩] }
  | .habs2 f => { fmt := 0, c := f.c, s := f.s, pr := f.pr.toNat, pipe := .v, sc := f.sc.toNat, uses := [⟨.w, f.d.toNat, true⟩, ⟨.w, f.a.toNat, false⟩] }
  | .hneg2 f => { fmt := 0, c := f.c, s := f.s, pr := f.pr.toNat, pipe := .v, sc := f.sc.toNat, uses := [⟨.w, f.d.toNat, true⟩, ⟨.w, f.a.toNat, false⟩] }
  | .hdot2 _ f => { fmt := 0, c := f.c, s := f.s, pr := f.pr.toNat, pipe := .v, sc := f.sc.toNat, uses := [⟨.w, f.d.toNat, true⟩, ⟨.w, f.a.toNat, false⟩, ⟨.w, f.b.toNat, false⟩] }
  | .cvtBf16F32 _ f => { fmt := 0, c := f.c, s := f.s, pr := f.pr.toNat, pipe := .v, sc := f.sc.toNat, uses := [⟨.w, f.d.toNat, true⟩, ⟨.w, f.a.toNat, false⟩, ⟨.w, f.b.toNat, false⟩] }
  | .cvtF32Bf16l f => { fmt := 0, c := f.c, s := f.s, pr := f.pr.toNat, pipe := .v, sc := f.sc.toNat, uses := [⟨.w, f.d.toNat, true⟩, ⟨.w, f.a.toNat, false⟩] }
  | .cvtF32Bf16h f => { fmt := 0, c := f.c, s := f.s, pr := f.pr.toNat, pipe := .v, sc := f.sc.toNat, uses := [⟨.w, f.d.toNat, true⟩, ⟨.w, f.a.toNat, false⟩] }
  | .cvtE4m3Bf16 _ f => { fmt := 0, c := f.c, s := f.s, pr := f.pr.toNat, pipe := .v, sc := f.sc.toNat, uses := [⟨.w, f.d.toNat, true⟩, ⟨.w, f.a.toNat, false⟩, ⟨.w, f.b.toNat, false⟩] }
  | .cvtE5m2Bf16 _ f => { fmt := 0, c := f.c, s := f.s, pr := f.pr.toNat, pipe := .v, sc := f.sc.toNat, uses := [⟨.w, f.d.toNat, true⟩, ⟨.w, f.a.toNat, false⟩, ⟨.w, f.b.toNat, false⟩] }
  | .cvtBf16E4m3l f => { fmt := 0, c := f.c, s := f.s, pr := f.pr.toNat, pipe := .v, sc := f.sc.toNat, uses := [⟨.w, f.d.toNat, true⟩, ⟨.w, f.a.toNat, false⟩] }
  | .cvtBf16E4m3h f => { fmt := 0, c := f.c, s := f.s, pr := f.pr.toNat, pipe := .v, sc := f.sc.toNat, uses := [⟨.w, f.d.toNat, true⟩, ⟨.w, f.a.toNat, false⟩] }
  | .cvtBf16E5m2l f => { fmt := 0, c := f.c, s := f.s, pr := f.pr.toNat, pipe := .v, sc := f.sc.toNat, uses := [⟨.w, f.d.toNat, true⟩, ⟨.w, f.a.toNat, false⟩] }
  | .cvtBf16E5m2h f => { fmt := 0, c := f.c, s := f.s, pr := f.pr.toNat, pipe := .v, sc := f.sc.toNat, uses := [⟨.w, f.d.toNat, true⟩, ⟨.w, f.a.toNat, false⟩] }
  | .cvtS32F32 _ f => { fmt := 0, c := f.c, s := f.s, pr := f.pr.toNat, pipe := .v, sc := f.sc.toNat, uses := [⟨.w, f.d.toNat, true⟩, ⟨.w, f.a.toNat, false⟩] }
  | .cvtU32F32 _ f => { fmt := 0, c := f.c, s := f.s, pr := f.pr.toNat, pipe := .v, sc := f.sc.toNat, uses := [⟨.w, f.d.toNat, true⟩, ⟨.w, f.a.toNat, false⟩] }
  | .cvtF32S32 _ f => { fmt := 0, c := f.c, s := f.s, pr := f.pr.toNat, pipe := .v, sc := f.sc.toNat, uses := [⟨.w, f.d.toNat, true⟩, ⟨.w, f.a.toNat, false⟩] }
  | .cvtF32U32 _ f => { fmt := 0, c := f.c, s := f.s, pr := f.pr.toNat, pipe := .v, sc := f.sc.toNat, uses := [⟨.w, f.d.toNat, true⟩, ⟨.w, f.a.toNat, false⟩] }
  | .cvtS4S8 f => { fmt := 0, c := f.c, s := f.s, pr := f.pr.toNat, pipe := .v, sc := f.sc.toNat, uses := [⟨.w, f.d.toNat, true⟩, ⟨.w, f.a.toNat, false⟩, ⟨.w, f.b.toNat, false⟩] }
  | .cvtS8S4l f => { fmt := 0, c := f.c, s := f.s, pr := f.pr.toNat, pipe := .v, sc := f.sc.toNat, uses := [⟨.w, f.d.toNat, true⟩, ⟨.w, f.a.toNat, false⟩] }
  | .cvtS8S4h f => { fmt := 0, c := f.c, s := f.s, pr := f.pr.toNat, pipe := .v, sc := f.sc.toNat, uses := [⟨.w, f.d.toNat, true⟩, ⟨.w, f.a.toNat, false⟩] }
  | .frred f => { fmt := 0, c := f.c, s := f.s, pr := f.pr.toNat, pipe := .sf, sc := f.sc.toNat, uses := [⟨.x, f.d.toNat, true⟩, ⟨.w, f.a.toNat, false⟩] }
  | .fsinr f => { fmt := 0, c := f.c, s := f.s, pr := f.pr.toNat, pipe := .sf, sc := f.sc.toNat, uses := [⟨.w, f.d.toNat, true⟩, ⟨.w, f.a.toNat, false⟩, ⟨.w, f.b.toNat, false⟩] }
  | .fcosr f => { fmt := 0, c := f.c, s := f.s, pr := f.pr.toNat, pipe := .sf, sc := f.sc.toNat, uses := [⟨.w, f.d.toNat, true⟩, ⟨.w, f.a.toNat, false⟩, ⟨.w, f.b.toNat, false⟩] }
  | .fexp2 f => { fmt := 0, c := f.c, s := f.s, pr := f.pr.toNat, pipe := .sf, sc := f.sc.toNat, uses := [⟨.w, f.d.toNat, true⟩, ⟨.w, f.a.toNat, false⟩] }
  | .flog2 f => { fmt := 0, c := f.c, s := f.s, pr := f.pr.toNat, pipe := .sf, sc := f.sc.toNat, uses := [⟨.w, f.d.toNat, true⟩, ⟨.w, f.a.toNat, false⟩] }
  | .frcp f => { fmt := 0, c := f.c, s := f.s, pr := f.pr.toNat, pipe := .sf, sc := f.sc.toNat, uses := [⟨.w, f.d.toNat, true⟩, ⟨.w, f.a.toNat, false⟩] }
  | .frsq f => { fmt := 0, c := f.c, s := f.s, pr := f.pr.toNat, pipe := .sf, sc := f.sc.toNat, uses := [⟨.w, f.d.toNat, true⟩, ⟨.w, f.a.toNat, false⟩] }
  | .fsqrt f => { fmt := 0, c := f.c, s := f.s, pr := f.pr.toNat, pipe := .sf, sc := f.sc.toNat, uses := [⟨.w, f.d.toNat, true⟩, ⟨.w, f.a.toNat, false⟩] }
  | .lswpP f => { fmt := 0, c := f.c, s := f.s, pr := f.pr.toNat, pipe := .v, sc := f.sc.toNat, scopes := 0x7, uses := [⟨.w, f.d.toNat, true⟩, ⟨.w, f.a.toNat, false⟩] }
  | .lshf f => { fmt := 1, c := f.c, s := f.s, pr := f.pr.toNat, pipe := .v, sc := f.sc.toNat, scopes := 0x7, uses := [⟨.w, f.d.toNat, true⟩, ⟨.w, f.a.toNat, false⟩] }
  | .lbcast f => { fmt := 1, c := f.c, s := f.s, pr := f.pr.toNat, pipe := .v, sc := f.sc.toNat, scopes := 0x7, uses := [⟨.w, f.d.toNat, true⟩, ⟨.w, f.a.toNat, false⟩], late := decide (f.sc.toNat < 2 ∧ 31 < f.k.toNat) }
  | .lxor f => { fmt := 1, c := f.c, s := f.s, pr := f.pr.toNat, pipe := .v, sc := f.sc.toNat, scopes := 0x7, uses := [⟨.w, f.d.toNat, true⟩, ⟨.w, f.a.toNat, false⟩], late := decide (f.sc.toNat < 2 ∧ 31 < f.k.toNat) }
  | .lidx f => { fmt := 0, c := f.c, s := f.s, pr := f.pr.toNat, pipe := .v, sc := f.sc.toNat, scopes := 0x7, uses := [⟨.w, f.d.toNat, true⟩, ⟨.w, f.a.toNat, false⟩, ⟨.w, f.b.toNat, false⟩] }
  | .lrot f => { fmt := 1, c := f.c, s := f.s, pr := f.pr.toNat, pipe := .v, sc := f.sc.toNat, scopes := 0x7, uses := [⟨.w, f.d.toNat, true⟩, ⟨.w, f.a.toNat, false⟩] }
  | .ldG sz f => { fmt := 4, c := f.c, s := f.s, pr := f.pr.toNat, pipe := .me, sc := f.sc.toNat, uses := [⟨ldClass sz, f.d.toNat, true⟩, ⟨.x, f.a.toNat, false⟩], bad := decide (6 < sz.toNat) }
  | .ldS sz f => { fmt := 4, c := f.c, s := f.s, pr := f.pr.toNat, pipe := .me, sc := f.sc.toNat, uses := [⟨ldClass sz, f.d.toNat, true⟩, ⟨.w, f.a.toNat, false⟩], bad := decide (6 < sz.toNat) }
  | .ldE sz f => { fmt := 4, c := f.c, s := f.s, pr := f.pr.toNat, pipe := .me, sc := f.sc.toNat, uses := [⟨ldClass sz, f.d.toNat, true⟩, ⟨.w, f.a.toNat, false⟩], bad := decide (6 < sz.toNat) }
  | .stG sz f => { fmt := 4, c := f.c, s := f.s, pr := f.pr.toNat, pipe := .me, sc := f.sc.toNat, uses := [⟨stClass sz, f.d.toNat, false⟩, ⟨.x, f.a.toNat, false⟩], bad := decide (4 < sz.toNat) }
  | .stS sz f => { fmt := 4, c := f.c, s := f.s, pr := f.pr.toNat, pipe := .me, sc := f.sc.toNat, uses := [⟨stClass sz, f.d.toNat, false⟩, ⟨.w, f.a.toNat, false⟩], bad := decide (4 < sz.toNat) }
  | .stE sz f => { fmt := 4, c := f.c, s := f.s, pr := f.pr.toNat, pipe := .me, sc := f.sc.toNat, uses := [⟨stClass sz, f.d.toNat, false⟩, ⟨.w, f.a.toNat, false⟩], bad := decide (4 < sz.toNat) }
  | .prefL1 f => { fmt := 4, c := f.c, s := f.s, pr := f.pr.toNat, pipe := .me, sc := f.sc.toNat, scopes := 0x1, uses := [⟨.x, f.a.toNat, false⟩] }
  | .prefL2 f => { fmt := 4, c := f.c, s := f.s, pr := f.pr.toNat, pipe := .me, sc := f.sc.toNat, scopes := 0x1, uses := [⟨.x, f.a.toNat, false⟩] }
  | .atomAdd _ f => { fmt := 5, c := f.c, s := f.s, pr := f.pr.toNat, pipe := .me, scopes := 0x1, uses := [⟨.w, f.d.toNat, true⟩, ⟨.x, f.a.toNat, false⟩, ⟨.w, f.b.toNat, false⟩] }
  | .atomMin _ f => { fmt := 5, c := f.c, s := f.s, pr := f.pr.toNat, pipe := .me, scopes := 0x1, uses := [⟨.w, f.d.toNat, true⟩, ⟨.x, f.a.toNat, false⟩, ⟨.w, f.b.toNat, false⟩] }
  | .atomMax _ f => { fmt := 5, c := f.c, s := f.s, pr := f.pr.toNat, pipe := .me, scopes := 0x1, uses := [⟨.w, f.d.toNat, true⟩, ⟨.x, f.a.toNat, false⟩, ⟨.w, f.b.toNat, false⟩] }
  | .atomMinu _ f => { fmt := 5, c := f.c, s := f.s, pr := f.pr.toNat, pipe := .me, scopes := 0x1, uses := [⟨.w, f.d.toNat, true⟩, ⟨.x, f.a.toNat, false⟩, ⟨.w, f.b.toNat, false⟩] }
  | .atomMaxu _ f => { fmt := 5, c := f.c, s := f.s, pr := f.pr.toNat, pipe := .me, scopes := 0x1, uses := [⟨.w, f.d.toNat, true⟩, ⟨.x, f.a.toNat, false⟩, ⟨.w, f.b.toNat, false⟩] }
  | .atomAnd _ f => { fmt := 5, c := f.c, s := f.s, pr := f.pr.toNat, pipe := .me, scopes := 0x1, uses := [⟨.w, f.d.toNat, true⟩, ⟨.x, f.a.toNat, false⟩, ⟨.w, f.b.toNat, false⟩] }
  | .atomOr _ f => { fmt := 5, c := f.c, s := f.s, pr := f.pr.toNat, pipe := .me, scopes := 0x1, uses := [⟨.w, f.d.toNat, true⟩, ⟨.x, f.a.toNat, false⟩, ⟨.w, f.b.toNat, false⟩] }
  | .atomXor _ f => { fmt := 5, c := f.c, s := f.s, pr := f.pr.toNat, pipe := .me, scopes := 0x1, uses := [⟨.w, f.d.toNat, true⟩, ⟨.x, f.a.toNat, false⟩, ⟨.w, f.b.toNat, false⟩] }
  | .atomExch _ f => { fmt := 5, c := f.c, s := f.s, pr := f.pr.toNat, pipe := .me, scopes := 0x1, uses := [⟨.w, f.d.toNat, true⟩, ⟨.x, f.a.toNat, false⟩, ⟨.w, f.b.toNat, false⟩] }
  | .atomCas _ f => { fmt := 5, c := f.c, s := f.s, pr := f.pr.toNat, pipe := .me, scopes := 0x1, uses := [⟨.w, f.d.toNat, true⟩, ⟨.x, f.a.toNat, false⟩, ⟨.pair, f.b.toNat, false⟩] }
  | .atomLd _ f => { fmt := 5, c := f.c, s := f.s, pr := f.pr.toNat, pipe := .me, scopes := 0x1, uses := [⟨.w, f.d.toNat, true⟩, ⟨.x, f.a.toNat, false⟩], bad := decide (f.mo = 2) }
  | .atomSt _ f => { fmt := 5, c := f.c, s := f.s, pr := f.pr.toNat, pipe := .me, scopes := 0x1, uses := [⟨.x, f.a.toNat, false⟩, ⟨.w, f.b.toNat, false⟩], bad := decide (f.mo = 1) }
  | .atomFadd _ f => { fmt := 5, c := f.c, s := f.s, pr := f.pr.toNat, pipe := .me, scopes := 0x1, uses := [⟨.w, f.d.toNat, true⟩, ⟨.x, f.a.toNat, false⟩, ⟨.w, f.b.toNat, false⟩] }
  | .atomAdd64 _ f => { fmt := 5, c := f.c, s := f.s, pr := f.pr.toNat, pipe := .me, scopes := 0x1, uses := [⟨.x, f.d.toNat, true⟩, ⟨.x, f.a.toNat, false⟩, ⟨.x, f.b.toNat, false⟩] }
  | .fenceE f => { fmt := 0, c := f.c, s := f.s, pr := f.pr.toNat, pipe := .me }
  | .dfence f => { fmt := 0, c := f.c, s := f.s, pr := f.pr.toNat, pipe := .me }
  | .drainst f => { fmt := 0, c := f.c, s := f.s, pr := f.pr.toNat, pipe := .me }
  | .sfrd f => { fmt := 0, c := f.c, s := f.s, pr := f.pr.toNat, pipe := .me, sc := f.sc.toNat, scopes := 0x3, uses := [⟨.x, f.d.toNat, true⟩], late := decide (5 < f.a.toNat) }
  | .sfpop f => { fmt := 0, c := f.c, s := f.s, pr := f.pr.toNat, pipe := .me, sc := f.sc.toNat, scopes := 0x3 }
  | .sfcnt f => { fmt := 0, c := f.c, s := f.s, pr := f.pr.toNat, pipe := .me, sc := f.sc.toNat, scopes := 0x3, uses := [⟨.w, f.d.toNat, true⟩] }
  | .smap f => { fmt := 0, c := f.c, s := f.s, pr := f.pr.toNat, pipe := .me, sc := f.sc.toNat, uses := [⟨.w, f.d.toNat, false⟩, ⟨.x, f.a.toNat, false⟩, ⟨.w, f.b.toNat, false⟩] }
  | .sunmap f => { fmt := 0, c := f.c, s := f.s, pr := f.pr.toNat, pipe := .me, sc := f.sc.toNat, uses := [⟨.w, f.a.toNat, false⟩] }
  | .swb f => { fmt := 0, c := f.c, s := f.s, pr := f.pr.toNat, pipe := .me, sc := f.sc.toNat, uses := [⟨.w, f.a.toNat, false⟩, ⟨.w, f.b.toNat, false⟩] }
  | .sinv f => { fmt := 0, c := f.c, s := f.s, pr := f.pr.toNat, pipe := .me, sc := f.sc.toNat, uses := [⟨.w, f.a.toNat, false⟩, ⟨.w, f.b.toNat, false⟩] }
  | .xacq f => { fmt := 0, c := f.c, s := f.s, pr := f.pr.toNat, pipe := .ct, sc := f.sc.toNat, scopes := 0x2 }
  | .xrel f => { fmt := 0, c := f.c, s := f.s, pr := f.pr.toNat, pipe := .ct, sc := f.sc.toNat, scopes := 0x2 }
  | .xtry f => { fmt := 0, c := f.c, s := f.s, pr := f.pr.toNat, pipe := .ct, sc := f.sc.toNat, scopes := 0x2, uses := [⟨.w, f.d.toNat, true⟩] }
  | .sdecl f => { fmt := 0, c := f.c, s := f.s, pr := f.pr.toNat, pipe := .ct, sc := f.sc.toNat, scopes := 0x2, uses := [⟨.w, f.d.toNat, true⟩, ⟨.w, f.a.toNat, false⟩, ⟨.w, f.b.toNat, false⟩] }
  | .sleave f => { fmt := 0, c := f.c, s := f.s, pr := f.pr.toNat, pipe := .ct, sc := f.sc.toNat, scopes := 0x2 }
  | .sinfo f => { fmt := 0, c := f.c, s := f.s, pr := f.pr.toNat, pipe := .ct, sc := f.sc.toNat, scopes := 0x3, uses := [⟨.x, f.d.toNat, true⟩] }
  | .binit f => { fmt := 0, c := f.c, s := f.s, pr := f.pr.toNat, pipe := .ct, sc := f.sc.toNat, scopes := 0x3, uses := [⟨.w, f.d.toNat, true⟩, ⟨.w, f.a.toNat, false⟩, ⟨.w, f.b.toNat, false⟩] }
  | .barv f => { fmt := 0, c := f.c, s := f.s, pr := f.pr.toNat, pipe := .ct, sc := f.sc.toNat, uses := [⟨.w, f.d.toNat, true⟩, ⟨.x, f.a.toNat, false⟩, ⟨.w, f.b.toNat, false⟩] }
  | .bwait f => { fmt := 0, c := f.c, s := f.s, pr := f.pr.toNat, pipe := .ct, sc := f.sc.toNat, uses := [⟨.w, f.a.toNat, false⟩, ⟨.w, f.b.toNat, false⟩] }
  | .bsync f => { fmt := 0, c := f.c, s := f.s, pr := f.pr.toNat, pipe := .ct, sc := f.sc.toNat, uses := [⟨.w, f.d.toNat, true⟩, ⟨.x, f.a.toNat, false⟩, ⟨.w, f.b.toNat, false⟩] }
  | .bgen f => { fmt := 0, c := f.c, s := f.s, pr := f.pr.toNat, pipe := .ct, sc := f.sc.toNat, scopes := 0x3, uses := [⟨.x, f.d.toNat, true⟩, ⟨.w, f.b.toNat, false⟩] }
  | .redb f => { fmt := 0, c := f.c, s := f.s, pr := f.pr.toNat, pipe := .ct, sc := f.sc.toNat, scopes := 0x8, uses := [⟨.w, f.d.toNat, true⟩] }
  | .redw f => { fmt := 0, c := f.c, s := f.s, pr := f.pr.toNat, pipe := .ct, sc := f.sc.toNat, scopes := 0x8, uses := [⟨.w, f.d.toNat, true⟩, ⟨.w, f.a.toNat, false⟩, ⟨.w, f.b.toNat, false⟩] }
  | .redq f => { fmt := 0, c := f.c, s := f.s, pr := f.pr.toNat, pipe := .ct, sc := f.sc.toNat, scopes := 0x3, uses := [⟨.x, f.d.toNat, true⟩] }
  | .tmma f => { fmt := 0, c := f.c, s := f.s, pr := f.pr.toNat, pipe := .en, sc := f.sc.toNat, uses := [⟨.x, f.d.toNat, true⟩, ⟨.x, f.a.toNat, false⟩, ⟨.x, f.b.toNat, false⟩] }
  | .tzero f => { fmt := 0, c := f.c, s := f.s, pr := f.pr.toNat, pipe := .en, sc := f.sc.toNat, uses := [⟨.z, f.d.toNat, false⟩] }
  | .tres f => { fmt := 0, c := f.c, s := f.s, pr := f.pr.toNat, pipe := .en, sc := f.sc.toNat, uses := [⟨.z, f.d.toNat, false⟩] }
  | .tcmp f => { fmt := 0, c := f.c, s := f.s, pr := f.pr.toNat, pipe := .en, sc := f.sc.toNat, uses := [⟨.x, f.d.toNat, true⟩, ⟨.z, f.a.toNat, false⟩] }
  | .tdrain _ f => { fmt := 0, c := f.c, s := f.s, pr := f.pr.toNat, pipe := .en, sc := f.sc.toNat, uses := [⟨.x, f.d.toNat, true⟩, ⟨.x, f.a.toNat, false⟩, ⟨.x, f.b.toNat, false⟩] }
  | .tcmpX f => { fmt := 0, c := f.c, s := f.s, pr := f.pr.toNat, pipe := .en, sc := f.sc.toNat, uses := [⟨.x, f.d.toNat, true⟩, ⟨.z, f.a.toNat, false⟩] }
  | .tsave f => { fmt := 0, c := f.c, s := f.s, pr := f.pr.toNat, pipe := .en, sc := f.sc.toNat, uses := [⟨.x, f.d.toNat, true⟩, ⟨.x, f.a.toNat, false⟩, ⟨.z, f.b.toNat, false⟩] }
  | .tsaveC f => { fmt := 0, c := f.c, s := f.s, pr := f.pr.toNat, pipe := .en, sc := f.sc.toNat, uses := [⟨.x, f.d.toNat, true⟩, ⟨.x, f.a.toNat, false⟩, ⟨.z, f.b.toNat, false⟩] }
  | .tload f => { fmt := 0, c := f.c, s := f.s, pr := f.pr.toNat, pipe := .en, sc := f.sc.toNat, uses := [⟨.x, f.d.toNat, true⟩, ⟨.x, f.a.toNat, false⟩, ⟨.z, f.b.toNat, false⟩] }
  | .tplane f => { fmt := 0, c := f.c, s := f.s, pr := f.pr.toNat, pipe := .en, sc := f.sc.toNat, uses := [⟨.x, f.d.toNat, true⟩, ⟨.x, f.a.toNat, false⟩, ⟨.w, f.b.toNat, false⟩] }
  | .twait f => { fmt := 0, c := f.c, s := f.s, pr := f.pr.toNat, pipe := .en, sc := f.sc.toNat, uses := [⟨.w, f.a.toNat, false⟩] }
  | .twaitAll f => { fmt := 0, c := f.c, s := f.s, pr := f.pr.toNat, pipe := .en, sc := f.sc.toNat }
  | .tstat f => { fmt := 0, c := f.c, s := f.s, pr := f.pr.toNat, pipe := .en, sc := f.sc.toNat, uses := [⟨.x, f.d.toNat, true⟩, ⟨.z, f.a.toNat, false⟩] }
  | .tmov f => { fmt := 0, c := f.c, s := f.s, pr := f.pr.toNat, pipe := .en, sc := f.sc.toNat, uses := [⟨.z, f.d.toNat, false⟩, ⟨.z, f.a.toNat, false⟩] }
  | .cpy _ f => { fmt := 0, c := f.c, s := f.s, pr := f.pr.toNat, pipe := .en, sc := f.sc.toNat, uses := [⟨.x, f.d.toNat, true⟩, ⟨.x, f.a.toNat, false⟩, ⟨.x, f.b.toNat, false⟩] }
  | .cpyN f => { fmt := 0, c := f.c, s := f.s, pr := f.pr.toNat, pipe := .en, sc := f.sc.toNat, uses := [⟨.x, f.d.toNat, true⟩, ⟨.x, f.a.toNat, false⟩, ⟨.x, f.b.toNat, false⟩] }
  | .gath f => { fmt := 0, c := f.c, s := f.s, pr := f.pr.toNat, pipe := .en, sc := f.sc.toNat, uses := [⟨.x, f.d.toNat, true⟩, ⟨.x, f.a.toNat, false⟩, ⟨.x, f.b.toNat, false⟩] }
  | .cseal f => { fmt := 0, c := f.c, s := f.s, pr := f.pr.toNat, pipe := .en, sc := f.sc.toNat, uses := [⟨.w, f.d.toNat, true⟩] }
  | .cwait f => { fmt := 1, c := f.c, s := f.s, pr := f.pr.toNat, pipe := .en, sc := f.sc.toNat, late := decide (15 < f.k.toNat) }
  | .sleepP f => { fmt := 0, c := f.c, s := f.s, pr := f.pr.toNat, pipe := .en, sc := f.sc.toNat, scopes := 0x3, uses := [⟨.w, f.a.toNat, false⟩] }
  | .qfence f => { fmt := 1, c := f.c, s := f.s, pr := f.pr.toNat, pipe := .en, sc := f.sc.toNat, scopes := 0x1, late := fewTwo f.k.toNat }
  | .coll f => { fmt := 0, c := f.c, s := f.s, pr := f.pr.toNat, pipe := .en, sc := f.sc.toNat, uses := [⟨.x, f.d.toNat, true⟩, ⟨.x, f.a.toNat, false⟩, ⟨.x, f.b.toNat, false⟩] }
  | .leader f => { fmt := 0, c := f.c, s := f.s, pr := f.pr.toNat, pipe := .ct, sc := f.sc.toNat, uses := [⟨.p, f.d.toNat, true⟩] }
  | .wpop f => { fmt := 0, c := f.c, s := f.s, pr := f.pr.toNat, pipe := .en, sc := f.sc.toNat, scopes := 0x2, uses := [⟨.w, f.d.toNat, true⟩, ⟨.w, f.a.toNat, false⟩] ++ popUses }
  | .wpopSleep f => { fmt := 0, c := f.c, s := f.s, pr := f.pr.toNat, pipe := .en, sc := f.sc.toNat, scopes := 0x2, uses := [⟨.w, f.d.toNat, true⟩, ⟨.w, f.a.toNat, false⟩] ++ popUses }
  | .wpush f => { fmt := 0, c := f.c, s := f.s, pr := f.pr.toNat, pipe := .en, sc := f.sc.toNat, scopes := 0x2, uses := [⟨.w, f.d.toNat, true⟩, ⟨.w, f.a.toNat, false⟩] }
  | .wlen f => { fmt := 0, c := f.c, s := f.s, pr := f.pr.toNat, pipe := .en, sc := f.sc.toNat, scopes := 0x3, uses := [⟨.w, f.d.toNat, true⟩, ⟨.w, f.a.toNat, false⟩] }
  | .amsg f => { fmt := 0, c := f.c, s := f.s, pr := f.pr.toNat, pipe := .en, sc := f.sc.toNat, scopes := 0x1, uses := [⟨.x, f.d.toNat, true⟩, ⟨.x, f.a.toNat, false⟩, ⟨.x, f.b.toNat, false⟩] }
  | .ampoll f => { fmt := 0, c := f.c, s := f.s, pr := f.pr.toNat, pipe := .en, sc := f.sc.toNat, scopes := 0x1, uses := [⟨.x, f.d.toNat, true⟩, ⟨.w, f.a.toNat, false⟩] }
  | .amend f => { fmt := 0, c := f.c, s := f.s, pr := f.pr.toNat, pipe := .en, sc := f.sc.toNat, scopes := 0x2, uses := [⟨.w, f.a.toNat, false⟩] }
  | .bidset f => { fmt := 0, c := f.c, s := f.s, pr := f.pr.toNat, pipe := .ct, sc := f.sc.toNat, scopes := 0x3, uses := [⟨.w, f.d.toNat, true⟩, ⟨.x, f.a.toNat, false⟩, ⟨.w, f.b.toNat, false⟩] }
  | .price f => { fmt := 0, c := f.c, s := f.s, pr := f.pr.toNat, pipe := .ct, sc := f.sc.toNat, scopes := 0x3, uses := [⟨.x, f.d.toNat, true⟩, ⟨.w, f.a.toNat, false⟩] }
  | .bidget f => { fmt := 0, c := f.c, s := f.s, pr := f.pr.toNat, pipe := .ct, sc := f.sc.toNat, scopes := 0x3, uses := [⟨.x, f.d.toNat, true⟩, ⟨.w, f.a.toNat, false⟩] }
  | .mfs f => { fmt := 6, c := f.c, s := f.s, pr := f.pr.toNat, pipe := .ct, sc := f.sc.toNat, scopes := 0x3, uses := [⟨if sregWide f.sreg.toNat then .x else .w, f.d.toNat, true⟩], late := !sregKnown f.sreg.toNat }
  | .mts f => { fmt := 6, c := f.c, s := f.s, pr := f.pr.toNat, pipe := .ct, sc := f.sc.toNat, scopes := 0x3, uses := [⟨if sregWide f.sreg.toNat then .x else .w, f.d.toNat, false⟩], late := !(sregKnown f.sreg.toNat && sregWritable f.sreg.toNat) }
  | .trap f => { fmt := 2, c := f.c, s := f.s, pr := f.pr.toNat, pipe := .ct, scopes := 0x1 }
  | .rett f => { fmt := 0, c := f.c, s := f.s, pr := f.pr.toNat, pipe := .ct, sc := f.sc.toNat, scopes := 0x2, bad := decide (f.pr ≠ 3) }
  | .brk f => { fmt := 2, c := f.c, s := f.s, pr := f.pr.toNat, pipe := .ct, scopes := 0x1 }
  | .dtload f => { fmt := 1, c := f.c, s := f.s, pr := f.pr.toNat, pipe := .ct, sc := f.sc.toNat, scopes := 0x1, uses := [⟨.x, f.a.toNat, false⟩], priv := 1 }
  | .dtsel f => { fmt := 1, c := f.c, s := f.s, pr := f.pr.toNat, pipe := .ct, sc := f.sc.toNat, scopes := 0x1, late := decide (4 < f.k.toNat) }
  | .kchk f => { fmt := 0, c := f.c, s := f.s, pr := f.pr.toNat, pipe := .ct, sc := f.sc.toNat, scopes := 0x3, uses := [⟨.w, f.d.toNat, true⟩] }
  | .kcanc _ _ f => { fmt := 0, c := f.c, s := f.s, pr := f.pr.toNat, pipe := .ct, sc := f.sc.toNat, scopes := 0x3, uses := [⟨.w, f.d.toNat, true⟩, ⟨.w, f.a.toNat, false⟩] }
  | .probe f => { fmt := 0, c := f.c, s := f.s, pr := f.pr.toNat, pipe := .me, sc := f.sc.toNat, scopes := 0x1, uses := [⟨.x, f.d.toNat, true⟩, ⟨.x, f.a.toNat, false⟩, ⟨.w, f.b.toNat, false⟩] }
  | .tlbi f => { fmt := 0, c := f.c, s := f.s, pr := f.pr.toNat, pipe := .me, sc := f.sc.toNat, scopes := 0x1, uses := [⟨.x, f.a.toNat, false⟩, ⟨.w, f.b.toNat, false⟩], priv := 1 }
  | .icinv f => { fmt := 0, c := f.c, s := f.s, pr := f.pr.toNat, pipe := .ct, sc := f.sc.toNat, scopes := 0x1, uses := [⟨.x, f.a.toNat, false⟩, ⟨.w, f.b.toNat, false⟩] }
  | .mcfgr f => { fmt := 6, c := f.c, s := f.s, pr := f.pr.toNat, pipe := .ct, sc := f.sc.toNat, scopes := 0x1, uses := [⟨.x, f.d.toNat, true⟩], priv := 3 }
  | .mcfgw f => { fmt := 6, c := f.c, s := f.s, pr := f.pr.toNat, pipe := .ct, sc := f.sc.toNat, scopes := 0x1, uses := [⟨.x, f.d.toNat, false⟩], priv := 3 }
  | .create => {}
  | .activate => {}
  | .suspend => {}
  | .resume => {}
  | .destroy => {}
  | .migrate => {}
  | .contextCommandComplete => {}
  | .migrationComplete => {}
  | .migrationAborted => {}
  | .vfcfgWrite => {}
  | .watchdogExpiry => {}
  | .resetComplete => {}
  | .noticeAppend => {}
  | .energyPeriodBoundary => {}
  | .sealing => {}
  | .publication => {}
  | .intervalBoundary => {}
  | .handoverEnd => {}
  | .priceExchangeReceived => {}
  | .peerPriceEntryExpiry => {}
  | .doorbell => {}
  | .qcfgWrite => {}
  | .retry => {}
  | .skip => {}
  | .rafterEventTake => {}
  | .launchPacket => {}
  | .feedPacket => {}
  | .fencePacket => {}
  | .waitPacket => {}
  | .waitReevaluation => {}
  | .waitTimeout => {}
  | .indirectPacket => {}
  | .copyPacket => {}
  | .signalPacket => {}
  | .cancelPacket => {}
  | .markPacket => {}
  | .dtloadPacket => {}
  | .dispatchDecision => {}
  | .powerGatingBegin => {}
  | .gatingCommit => {}
  | .coreWake => {}
  | .blockExit => {}
  | .blockResume => {}
  | .trapEntry => {}
  | .switchMarkerComplete => {}
  | .loadResultReturn => {}
  | .sleepWake => {}
  | .yieldEnd => {}
  | .storeQueuePerform => {}
  | .mapFillComplete => {}
  | .engineOperationTurn => {}
  | .engineOperationComplete => {}
  | .promiseWake => {}
  | .tmmaTurn => {}
  | .tzeroTurn => {}
  | .tresTurn => {}
  | .tcmpTurn => {}
  | .tcmpXTurn => {}
  | .tdrainTurn => {}
  | .tsaveTurn => {}
  | .tsaveCTurn => {}
  | .tloadTurn => {}
  | .tplaneTurn => {}
  | .tmovTurn => {}
  | .bridleGenerationComplete => {}
  | .pageReWalk => {}
  | .pageRequest => {}
  | .prqdoneWrite => {}
  | .gutterDrain => {}
  | .pageMove => {}
  | .pageMoveComplete => {}
  | .tlbih => {}
  | .tlbiCompletion => {}
  | .frrCommit => {}
  | .portEnable => {}
  | .portDisable => {}
  | .retrain => {}
  | .portDrain => {}
  | .trainingAttemptEnd => {}
  | .laneFailure => {}
  | .drainingEnd => {}
  | .flitReceived => {}
  | .linkRetryRequest => {}
  | .deviceUnreachable => {}
  | .peerRequestArrival => {}
  | .peerResponseArrival => {}
  | .messageArrival => {}
  | .messageAnswerArrival => {}
  | .collFragmentArrival => {}
  | .ethernetFrameReceived => {}
  | .perrRead => {}
  | .pdiscRead => {}
  | .nsqNdiscRead => {}
  | .hostLinkWrite => {}
  | .l2RequestAccept => {}
  | .l2LineReturn => {}
  | .dbgctlWrite => {}
  | .drelRun => {}
  | .drelStep => {}
  | .daccRead => {}
  | .daccWrite => {}
  | .traceRecordWrite => {}
  | .sampleTake => {}
  | .sensorSample => {}
  | .supplyUpdate => {}
  | .throttleEvaluation => {}
  | .powerExcursion => {}
  | .excursionHoldEnd => {}
  | .telemetrySnapshot => {}
  | .thermalTrip => {}
  | .functionLevelReset => {}
  | .powerUp => {}
  | .boot => {}
  | .attestationRequest => {}
  | .correctedSoftError => {}
  | .uncorrectableSoftError => {}
  | .sercntRead => {}
  | .registerWrite => {}
  | .engineOperationStop => {}
  | .icinvCompletion => {}
  | .attestationReportWritten => {}
  | .hostLinkTraining => {}
  | .gtsSynchronisation => {}
  | .packetRetransmission => {}

/-- ILL that the encoding itself decides (R122 item 1): a scope not admitted, a field out of class, a refused field value. -/
def illStatic (i : Instr) : Bool :=
  let f := wordInfo i
  f.bad || !f.scopes.testBit f.sc || f.uses.any (fun u => !clsOk u)

/-- The w registers a word writes. -/
def destRegs (i : Instr) : List Nat :=
  ((wordInfo i).uses.filter (fun u => u.wr)).flatMap useRegs

/-- The words whose field D is a source as well as the destination (R336 to R339, R359, R362, R363). -/
def readsDest : Instr → Bool
  | .mad _ | .sel _ | .bfi _ | .shlk _ | .ffma _ _ | .hfma2 _ _ | .hdot2 _ _ => true
  | _ => false

/-- The w registers a word reads in the lanes it acts for; a lane exchange reads w A in other lanes (R373). -/
def srcRegs (i : Instr) : List Nat :=
  match i with
  | .lswpP _ | .lshf _ | .lbcast _ | .lxor _ | .lrot _ => []
  | .lidx f => [f.b.toNat]
  | i => ((wordInfo i).uses.filter (fun u => !u.wr || readsDest i)).flatMap useRegs

/-- Whether two words of one issue write the same register (R120). -/
def sameDest (i k : Instr) : Bool :=
  (destRegs i).any (fun r => (destRegs k).contains r) ||
  ((wordInfo i).uses.any fun u => u.wr && (u.cls == .p || u.cls == .g) &&
    (wordInfo k).uses.any fun v => v.wr && v.cls == u.cls && v.n == u.n)

/-- The control-transfer words, whose C bit must be 0 (R120). -/
def isTransfer : Instr → Bool
  | .bra _ | .brx _ | .call _ | .callx _ | .ret _ | .exit _ | .trap _ | .rett _ | .dtsel _ => true
  | _ => false

end Sys2Proof.Machine
end

