-- ==== Sys2Proof/Machine/Ops.lean ====
section
/-!
DEFINITION. The named operations over the state: reading and changing its parts, the registers of the issue in progress, memory through
translation, notices and rings, waiting for pages, ending groups, taking a trap and returning from one (06_context.md R157, R158;
10_group.md R254 to R261; 19_system.md R446 to R451).
-/

namespace Sys2Proof.Machine

/-- The outcome of a meaning. -/
abbrev Out := Host.Outcome State Fault Refusal

/-! ### Parts -/

def State.core (s : State) (n : Nat) : CoreSt := tget {} s.cores n
def State.grp (s : State) (b j : Nat) : Group := (s.blk b).grp j
def State.thr (s : State) (b j l : Nat) : Thread := (s.grp b j).th l

def State.updCtx (s : State) (c : Nat) (f : Ctx → Ctx) : State := { s with ctxs := tset s.ctxs c (f (s.ctx c)) }
def State.updVf (s : State) (n : Nat) (f : Vf → Vf) : State := { s with vfs := tset s.vfs n (f (s.vf n)) }
def State.updCore (s : State) (n : Nat) (f : CoreSt → CoreSt) : State := { s with cores := tset s.cores n (f (s.core n)) }
def State.updBlk (s : State) (b : Nat) (f : Block → Block) : State := { s with blks := tset s.blks b (f (s.blk b)) }
def Block.updGrp (b : Block) (j : Nat) (f : Group → Group) : Block := { b with groups := tset b.groups j (f (b.grp j)) }
def Group.updTh (g : Group) (l : Nat) (f : Thread → Thread) : Group := { g with thr := tset g.thr l (f (g.th l)) }
def State.updGrp (s : State) (b j : Nat) (f : Group → Group) : State := s.updBlk b (fun k => k.updGrp j f)
def State.updThr (s : State) (b j l : Nat) (f : Thread → Thread) : State := s.updGrp b j (fun g => g.updTh l f)
def Block.bar (b : Block) (n : Nat) : Barrier := tget {} b.bars n
def Block.map (b : Block) (n : Nat) : MapEntry := tget {} b.maps n
def Block.tile (b : Block) (n : Nat) : Tile := tget {} b.tiles n
def Ctx.queue (c : Ctx) (q : Nat) : Queue := tget {} c.queues q
def State.updQueue (s : State) (c q : Nat) (f : Queue → Queue) : State :=
  s.updCtx c (fun x => { x with queues := tset x.queues q (f (x.queue q)) })
def Ctx.launch (c : Ctx) (n : Nat) : Launch := tget {} c.launches n
def State.updLaunch (s : State) (c n : Nat) (f : Launch → Launch) : State :=
  s.updCtx c (fun x => { x with launches := tset x.launches n (f (x.launch n)) })

/-- Places an event on the agenda. -/
def State.post (s : State) (due src : Nat) (ev : Instr) (a : Arg := {}) : State := { s with agenda := s.agenda ++ [⟨due, src, ev, a⟩] }

/-- Removes the agenda's copies of an event. -/
def State.unpost (s : State) (ev : Instr) (a : Arg := {}) : State :=
  { s with agenda := s.agenda.filter (fun e => e.ev ≠ ev ∨ e.arg ≠ a) }

/-- Whether an event is already on the agenda. -/
def State.posted (s : State) (ev : Instr) (a : Arg := {}) : Bool := s.agenda.any (fun e => decide (e.ev = ev ∧ e.arg = a))

/-- Places an event once. -/
def State.postOnce (s : State) (due src : Nat) (ev : Instr) (a : Arg := {}) : State :=
  if s.posted ev a then s else s.post due src ev a

def State.foldl {α : Type} (s : State) (xs : List α) (f : State → α → State) : State := xs.foldl f s

/-- A fresh number for free values. -/
def State.tick (s : State) : State := { s with freeCtr := s.freeCtr + 1 }

/-- The core a block is resident on; its number serves as the source number of R34. -/
def State.blkCore (s : State) (b : Nat) : Nat := (s.blk b).core.getD 0

def State.blkIds (s : State) : List Nat := tkeys s.blks
def Block.groupIds (b : Block) : List Nat := tkeys b.groups

/-- The context of the issue in progress. -/
def State.curCtx (s : State) : Nat := (s.blk s.cur.blk).ctx

/-- Counts an event of a context in its profiling sessions (20 R470, R472). -/
def countEvent (s : State) (c code n : Nat) : State :=
  let add (z : Session) (t : Tab Nat) (k : Nat) : Tab Nat :=
    if tget 0 z.sel k = code ∧ code ≠ 0 ∧ !(tget false z.inval k) then tset t k ((tget 0 t k + n) % 2 ^ 63) else t
  let one (z : Session) : Session := if z.isOpen && z.run then { z with cnt := (upto 8).foldl (add z) z.cnt } else z
  if (s.ctx c).sessions.isEmpty then s else s.updCtx c (fun x => { x with sessions := tmap (fun _ z => one z) x.sessions })

/-! ### Registers of the issue in progress (05 R120, R128; 10 R258) -/

/-- The block in which sources are read: as it stood before a multi-word issue (R120). -/
def State.sources (s : State) : State := match s.cur.src with | some b => { s with blks := tset s.blks s.cur.blk b } | none => s
def State.srcBlk (s : State) : Block := match s.cur.src with | some b => b | none => s.blk s.cur.blk

def State.srcGrp (s : State) (j : Nat) : Group := s.srcBlk.grp j
def State.srcThr (s : State) (m : Nat × Nat) : Thread := (s.srcGrp m.1).th m.2

def Thread.rw (t : Thread) (r : Nat) : Word := tget 0 t.w r
def Thread.rx (t : Thread) (r : Nat) : DWord := joinWords (t.rw r) (t.rw (r + 1))
def Thread.rp (t : Thread) (r : Nat) : Bool := tget false t.p r
def Group.rg (g : Group) (r : Nat) : Word := tget 0 g.g r

def rdW (s : State) (m : Nat × Nat) (r : Nat) : Word := (s.srcThr m).rw r
def rdX (s : State) (m : Nat × Nat) (r : Nat) : DWord := (s.srcThr m).rx r
def rdP (s : State) (m : Nat × Nat) (r : Nat) : Bool := (s.srcThr m).rp r

/-- Writes a w register; the new value replaces one that held a soft error. -/
def Thread.ww (t : Thread) (r : Nat) (v : Word) : Thread := { t with w := tset t.w r v, bad := t.bad.filter (· ≠ r) }
def Thread.wx (t : Thread) (r : Nat) (v : DWord) : Thread := (t.ww r (loWord v)).ww (r + 1) (hiWord v)
def Thread.wp (t : Thread) (r : Nat) (v : Bool) : Thread := { t with p := tset t.p r v }

/-- Writes a w register of a member thread. -/
def wrW (s : State) (m : Nat × Nat) (r : Nat) (v : Word) : State := s.updThr s.cur.blk m.1 m.2 (fun t => t.ww r v)
/-- Writes an x register of a member thread. -/
def wrX (s : State) (m : Nat × Nat) (r : Nat) (v : DWord) : State := s.updThr s.cur.blk m.1 m.2 (fun t => t.wx r v)
/-- Writes a predicate of a member thread. -/
def wrP (s : State) (m : Nat × Nat) (r : Nat) (v : Bool) : State := s.updThr s.cur.blk m.1 m.2 (fun t => t.wp r v)
/-- Writes a g register of a group. -/
def wrG (s : State) (j r : Nat) (v : Word) : State :=
  s.updGrp s.cur.blk j (fun g => { g with g := tset g.g r v })

/-- Whether a member's guard is true (05 R123). -/
def guardTrue (s : State) (pr : Nat) (m : Nat × Nat) : Bool := pr == 3 || rdP s m pr

/-- The members whose guard is true, ascending in member lane. -/
def guarded (s : State) (pr : Nat) : List (Nat × Nat) := s.cur.members.filter (fun m => guardTrue s pr m)

/-- The lowest guarded member (10 R254). -/
def lowest (s : State) (pr : Nat) : Option (Nat × Nat) := (guarded s pr).head?

/-- Changes the state once for every guarded member, reading operands in the state before. -/
def forLanes (s : State) (pr : Nat) (f : Nat × Nat → State → State) : State :=
  (guarded s pr).foldl (fun t m => f m t) s

/-- Writes w D, x D or predicate D of every guarded member, each with its own value (14 R334). -/
def lanesW (s : State) (pr d : Nat) (v : Nat × Nat → Word) : State := forLanes s pr (fun m t => wrW t m d (v m))
def lanesX (s : State) (pr d : Nat) (v : Nat × Nat → DWord) : State := forLanes s pr (fun m t => wrX t m d (v m))
def lanesP (s : State) (pr d : Nat) (v : Nat × Nat → Bool) : State := forLanes s pr (fun m t => wrP t m d (v m))

/-- The member lane number L of a member (10 R254). -/
def memberLane (s : State) (m : Nat × Nat) : Nat := 32 * (s.cur.groups.idxOf m.1) + m.2

/-- A younger write cancels the pending loads' writes to a register, in every lane, up to the switch marker that follows the load (10 R265). -/
def cancelLoads (g : Group) (rs : List Nat) : Group :=
  if g.pend.isEmpty then g else
  { g with pend := g.pend.map (fun p =>
      if (p.kind = .load ∨ p.kind = .value) ∧ p.marked = false then { p with cancel := p.cancel ++ rs } else p) }

/-! ### Groups and threads -/

/-- Whether a thread takes part while its group runs a handler (19 R446). -/
def Group.takesPart (g : Group) (l : Nat) : Bool := !g.hm || (g.th l).handler

def Group.lanes (g : Group) (p : Thread → Bool) : List Nat := (upto 32).filter (fun l => p (g.th l))

/-- The non-exited threads. -/
def Group.alive (g : Group) : List Nat := g.lanes (fun t => t.mode ≠ .exited)

/-- The non-exited threads that take part. -/
def Group.living (g : Group) : List Nat := g.alive.filter (fun l => g.takesPart l)

/-- The state code of a group (10 R249). -/
def groupState (b : Block) (g : Group) : Nat :=
  if g.done then 0
  else if b.core.isNone then 8
  else if g.alive.isEmpty then 9
  else if !(g.lanes (fun t => t.mode = .trapped)).isEmpty then 7
  else match g.wait with
    | .sleep _ | .feed _ _ _ | .promise _ _ _ _ | .promiseWait _ => 5
    | .barrier _ | .bridle => 4
    | .xacq | .sdecl _ _ _ _ => 6
    | .none =>
      if g.marker.isSome then 2
      else if (g.living.filter (fun l => (g.th l).mode = .active)).isEmpty then 3
      else 1

/-- The ready threads of a READY group. -/
def Group.ready (g : Group) : List Nat := g.living.filter (fun l => (g.th l).mode = .active)

/-- The groups a scope takes in, by position (10 R254, R262); scope 4 is that of RETT. -/
def scopeGroups (b : Block) (j sc : Nat) : List Nat :=
  match sc with
  | 0 | 1 | 4 => [j]
  | 2 => match (b.grp j).inSet with
    | some t => (tget {} b.sets t).members
    | none => [j]
  | _ => b.groupIds.filter (fun k => !(b.grp k).done)

/-- The members of a scope: the threads that are not EXITED, ascending in member lane (10 R254); for RETT the handler threads (19 R450). -/
def scopeMembers (b : Block) (js : List Nat) (sc : Nat) : List (Nat × Nat) :=
  js.flatMap (fun j => (if sc = 4 then (b.grp j).living else (b.grp j).alive).map (fun l => (j, l)))

/-- The threads that are members of a scope. -/
def membersOf (b : Block) (js : List Nat) (sc : Nat) : List (Nat × Thread) := (scopeMembers b js sc).map (fun m => (m.1, (b.grp m.1).th m.2))

/-- Whether every member of a scope is parked at that scope at one PC with one REPI (10 R254). -/
def parkedTogether (b : Block) (js : List Nat) (sc : Nat) : Bool :=
  match membersOf b js sc with
  | [] => false
  | m :: ms => (m :: ms).all (fun t => decide (t.2.mode = .parked ∧ t.2.psc = sc ∧ t.2.pc = m.2.pc) &&
      decide ((b.grp t.1).repi = (b.grp m.1).repi))

/-! ### Physical memory -/

/-- Writes physical memory of this device or the bytes held for a peer home. -/
def physWrite (s : State) (dev pa : Nat) (bs : List Byte) : State :=
  { s with mem := memWrite s.mem (domAddr dev pa) bs }

/-- A write of all 128 bytes of a line by an engine makes a line readable again (21 R487). -/
def mendLines (s : State) (dev pa n : Nat) : State :=
  if s.badLines.isEmpty then s
  else { s with badLines := s.badLines.filter (fun l => !(decide (domAddr dev pa ≤ l * 128 ∧ l * 128 + 128 ≤ domAddr dev pa + n))) }

/-- Sends MSI-X vector `v` of a VF; none is sent while EN = 0 (06 R146). -/
def sendMsix (s : State) (vf v : Nat) : State :=
  if (s.vf vf).en then { s with msix := s.msix ++ [(vf, v)] } else s

/-! ### Peers (13 R314, R318, R319) -/

def State.updPort (s : State) (p : Nat) (f : Port → Port) : State := { s with ports := tset s.ports p (f (s.port p)) }

/-- The port among some for a line from a source core (R314); 64 where there is none. -/
def portAmong (ps : List Nat) (pa core : Nat) : Nat := if ps.isEmpty then 64 else ps.getD ((pa / 128 ^^^ core) % ps.length) 64

/-- The port for a line from a source core (R314). -/
def portFor (s : State) (dev pa core : Nat) : Nat := portAmong (usablePorts s dev) pa core

/-- A flit with 240 payload bytes (R315): link sequence, channel and credit return, the payload, the CRC-32C and the parity. The credit return and the
parity are free values (log 46). -/
def flitBytes (stamp seq ch : Nat) (pay : List Byte) : List Byte :=
  let body := natLe 4 (seq % 4096 + ch * 4096 + Config.choice 81 (stamp * 4096 + seq) % 65536 * 65536) ++ pay.take 240 ++ List.replicate (240 - pay.length) 0
  body ++ natLe 4 (crc32c body) ++ natLe 8 (Config.choice 82 (stamp * 4096 + seq))

/-- The payloads that carry some bytes, 240 bytes each (R315). -/
def payloads (bs : List Byte) : List (List Byte) := (upto ((bs.length + 239) / 240)).map (fun i => (bs.drop (240 * i)).take 240)

/-- The bytes of a transaction as flits carry them (log 46). -/
def linkBytes (hdr : List Nat) (data : List Byte) : List Byte := hdr.flatMap (natLe 8) ++ data

/-- Sends a transaction to a device on a port and a channel: its flits take places in the port's retry buffer, which holds 128 (R315, R316; log 46). -/
def linkSend (s : State) (p ch dev : Nat) (hdr : List Nat) (data : List Byte) : State :=
  let s := { s with peerOut := s.peerOut ++ [(dev, hdr, data)] }
  s.updPort p (fun k =>
    let ps := payloads (linkBytes hdr data)
    let fs := (upto ps.length).map (fun i => ((k.tx + i) % 4096, flitBytes (s.gts * 64 + p) ((k.tx + i) % 4096) ch (ps.getD i [])))
    let buf := k.buf ++ fs
    { k with tx := (k.tx + ps.length) % 4096, buf := buf.drop (buf.length - 128) })

/-- The kinds of requests beside the accesses of R318 and their atomics: a message, a collective fragment, a message's status, a migration image, a
migration's end (R319, R329 to R331). -/
def kMESSAGE : Nat := 0x40
def kFRAGMENT : Nat := 0x41
def kSTATUS : Nat := 0x42
def kIMAGE : Nat := 0x43
def kABORT : Nat := 0x44
def kRESTORED : Nat := 0x45

/-- The channel of a request (R316). -/
def reqChannel (kind : Nat) : Nat := if kind < kMESSAGE then 2 else if kind = kFRAGMENT then 4 else if kind = kSTATUS then 1 else 3

/-- What a request's flits name ahead of its data. -/
def PeerReq.header (r : PeerReq) : List Nat := [r.core, r.seq, r.kind, r.pa, r.size] ++ r.info

/-- Puts an unanswered request on its port; one that finds no port waits for one until its home counts as unreachable (R314, R319). Its flits are
counted for its context, which the port serves (20 R470, 06 R163); a message's status and a migration are of no context (07 R189). -/
def transmitReq (s : State) (r : PeerReq) : State :=
  if r.port = 64 then s.postOnce (tget 0 s.noPort r.home + 2000000) (1024 + r.home) .deviceUnreachable { x := r.home }
  else
    let k := if r.kind < kSTATUS then (upto (payloads (linkBytes r.header r.data)).length).foldl (fun k _ => k.note (some r.ctx) 0x51) s.caches |>.serve (some r.ctx)
      else s.caches
    linkSend (s.withCaches k) r.port (reqChannel r.kind) r.home r.header r.data

/-- Sends a request, whose sequence number and port it takes, to its home (R318, R319). -/
def sendRequest (s : State) (r : PeerReq) : State :=
  let key := r.core * 1024 + r.home
  let seq := tget 0 s.peerSeq key
  let r := { r with seq := seq, port := portFor s r.home r.pa r.core }
  transmitReq { s with peerSeq := tset s.peerSeq key ((seq + 1) % 2 ^ 32), peerReqs := s.peerReqs ++ [r] } r

/-- A message leaves its core's send queue (R322). -/
def State.leaveSends (s : State) (core b j n : Nat) : State := s.updCore core (fun k => { k with sendQ := k.sendQ.erase [b, j, n] })

/-- Sends a request that is no access of a location. The port of R314 is picked by a line address, which such a request has not: the model takes line
address 0 for it (log 79). -/
def sendNamed (s : State) (home core kind ctx : Nat) (info : List Nat) (data : List Byte) (place : Nat × Nat × Nat) : State :=
  sendRequest s { seq := 0, home := home, core := core, kind := kind, pa := 0, size := data.length, data := data, blk := place.1, j := place.2.1
                  id := place.2.2, lane := 0, port := 64, ctx := ctx, info := info }

/-- Sends one request of a thread to a peer home: 0 load, 1 store, 2 and above atomic `kind - 2`. -/
def peerSend (s : State) (home pa kind size : Nat) (data : List Byte) (b j id lane : Nat) : State :=
  sendRequest s { seq := 0, home := home, core := s.blkCore b, kind := kind, pa := pa, size := size, data := data, blk := b, j := j, id := id
                  lane := lane, port := 64, ctx := (s.blk b).ctx }

/-- Sends the request of a waiting access (log 28). -/
def askPeer (s : State) (ctx src id : Nat) (n : Lack) : State :=
  let send (home pa kind size : Nat) (data : List Byte) : State :=
    sendRequest s { seq := 0, home := home, core := src, kind := kind, pa := pa, size := size, data := data, blk := 0, j := 0, id := 0, lane := 0
                    port := 64, ctx := ctx, waiter := some id }
  match n with
  | .page _ => s
  | .load home pa k => send home pa 0 k []
  | .store home pa bs => send home pa 1 bs.length bs
  | .atom home pa op v => send home pa (2 + op) 8 (natLe 16 v)

/-! ### Waiting for pages (12 R298 to R300) -/

/-- Whose the accesses to a VF's page request ring are, in the place of a context: the VF, and the context whose wait the record reports. -/
def ringCtx (vf ctx : Nat) : Nat := 4096 * (vf + 1) + ctx

/-- No context: the page moves of the migration engine (07 R189). -/
def noCtx : Nat := 4096 * 65

/-- The VF of a context, or of a ring's accesses. -/
def vfOfCtx (s : State) (ctx : Nat) : Nat := if ctx < 4096 then (s.ctx ctx).vf else ctx / 4096 - 1

/-- A fresh walk of a waiting access: of a context's virtual address, or of a ring's guest-physical address by the hypervisor stage alone (R294,
06 R158). -/
def pageWalk (s : State) (ctx va acc : Nat) : XRes :=
  if ctx < 4096 then walk s ctx va acc 1
  else
    let vf := vfOfCtx s ctx
    match hwalk s va 4 (s.vf vf).hroot with
    | .bad k lvl => .fault k 2 lvl
    | .leaf h lvl =>
      match leafCheck h lvl 2 acc 1 va with
      | some r => r
      | none => .ok (peDev h) (peAddr h + va % 2 ^ lvlBits lvl) ⟨ctx, vf, va, 0, 0, va, h, lvl⟩

/-- The NONRESIDENT page that an access meets, as a page request names it: the page and the stage that decides (R300). -/
def waitKey (s : State) (ctx va acc : Nat) : Option Nat :=
  match pageWalk s ctx va acc with
  | .wait 1 stage lvl (.page gpa) => some (pageBase lvl (if stage = 1 then va else gpa) * 2 + stage % 2)
  | _ => none

/-- GTS of the first wait of a context on a page, among the accesses that still wait for it (R300). -/
def firstWait (s : State) (ctx k : Nat) : Nat :=
  ((s.page.waiters.filter (fun w => w.ctx == ctx && w.peer.isNone && decide (waitKey s ctx w.va w.acc = some k))).map Waiter.since).foldl min s.gts

/-- Asks for a page request at the first wait of a context on a page (R300). -/
def requestPage (s : State) (ctx va acc src : Nat) : State :=
  match waitKey s ctx va acc with
  | none => s
  | some k =>
    if s.page.requested.contains (ctx, k) then s
    else { s with page := { s.page with requested := s.page.requested ++ [(ctx, k)] } }.post s.gts src .pageRequest
      { x := ctx, y := va, z := acc, l := [firstWait s ctx k] }

/-- Registers an access that waits: it is walked again until its page can be used (R299), or its request goes to the peer home (13 R318). -/
def addWaiter (s : State) (ctx va acc stage : Nat) (need : Lack) (src : Nat) (retry : Option (Instr × Arg)) (grp : Option (Nat × Nat)) : State :=
  let id := s.nextId
  match need with
  | .page gpa =>
    if s.page.waiters.any (fun w => w.ctx == ctx && w.va == va && w.acc == acc && w.peer.isNone && decide (w.retry = retry ∧ w.grp = grp)) then s else
    let w : Waiter := { id := id, ctx := ctx, va := va, acc := acc, stage := stage, gpa := gpa, src := src, retry := retry, grp := grp, since := s.gts }
    let s := { s with nextId := id + 1, page := { s.page with waiters := s.page.waiters ++ [w] } }
    requestPage (s.post (s.gts + 100000) src .pageReWalk { x := id }) ctx va acc src
  | need =>
    if s.page.waiters.any (fun w => w.ctx == ctx && decide (w.peer = some need ∧ w.retry = retry ∧ w.grp = grp)) then s else
    let w : Waiter := { id := id, ctx := ctx, va := va, acc := acc, stage := 0, gpa := 0, src := src, retry := retry, grp := grp, since := s.gts, peer := some need }
    askPeer { s with nextId := id + 1, page := { s.page with waiters := s.page.waiters ++ [w] } } ctx src id need

/-- An access waits; `retry` is done when it can go on. -/
def waitOn (s : State) (ctx va acc stage : Nat) (need : Lack) (src : Nat) (retry : Instr × Arg) : State :=
  addWaiter s ctx va acc stage need src (some retry) none

/-- The issue of a group waits. -/
def waitIssue (s : State) (ctx va acc stage : Nat) (need : Lack) (src b j : Nat) : State := addWaiter s ctx va acc stage need src none (some (b, j))

/-- Whether the issue of a group waits. -/
def issueWaits (s : State) (b j : Nat) : Bool := s.page.waiters.any (fun w => decide (w.grp = some (b, j)))

/-! ### What peer homes have answered (13 R318) -/

/-- An answer reaches the access that waits for it, which is tried again. -/
def answerWaiter (s : State) (id : Nat) (refused : Bool) (data : List Byte) : State :=
  match s.page.waiters.find? (fun w => w.id == id) with
  | none => s
  | some w =>
    let s := { s with page := { s.page with waiters := s.page.waiters.filter (fun v => v.id ≠ id) }
                      peerGot := s.peerGot ++ (match w.peer with | some n => [⟨w.retry, w.grp, n, refused, data⟩] | none => []) }
    match w.retry with
    | some r => s.postOnce s.gts w.src r.1 r.2
    | none => s

/-- The answers for an event, or for the issue of a group, have been used, unless it waits again. -/
def dropGot (s : State) (retry : Option (Instr × Arg)) (grp : Option (Nat × Nat)) : State :=
  if s.peerGot.isEmpty || s.page.waiters.any (fun w => decide (w.retry = retry ∧ w.grp = grp)) then s
  else { s with peerGot := s.peerGot.filter (fun g => !decide (g.retry = retry ∧ g.grp = grp)) }

/-- The pieces of a range that lie in one 128-byte line each: offset, offset in the range, length. -/
def linePieces : Nat → Nat → Nat → Nat → List (Nat × Nat × Nat)
  | 0, _, _, _ => []
  | fuel + 1, a, off, n =>
    if n = 0 then [] else
    let k := min n (128 - a % 128)
    (a, off, k) :: linePieces fuel (a + k) (off + k) (n - k)

/-- The mask of `n` bytes at offset `o` of a line. -/
def byteMask (o n : Nat) : Nat := (2 ^ n - 1) * 2 ^ o

/-- Lands lines in the gutter (R301): address, bytes and mask of each; `none` when it is not in use or too few slots are free. The first
landing on a page asks for it, as any wait does, with the address and kind of the access (R300), and the page is walked again as for a waiting
access, so that the drain of R302 follows. -/
def landLines (s : State) (ctx va acc priv src : Nat) (ls : List (Nat × List Byte × Nat)) : Option State :=
  if s.page.gutEn && decide (s.page.slots.length + ls.length ≤ 1048576) then
    let s := requestPage s ctx va acc src
    let new : List GutterSlot := ls.map (fun (l : Nat × List Byte × Nat) => ⟨ctx, l.1, l.2.1, l.2.2, s.gts, if acc = aSTORE then some priv else none⟩)
    let s := { s with page := { s.page with slots := s.page.slots ++ new } }
    some (s.foldl ls (fun t l =>
      let base := pageBase 0 l.1
      match pageWalk t ctx l.1 acc with
      | .wait _ stage _ need => waitOn t ctx base acc stage need src (.gutterDrain, { x := ctx, y := base })
      | _ => t))
  else none

/-- Lands bytes in the gutter, line by line. -/
def gutterLand (s : State) (ctx va acc priv src : Nat) (bs : List Byte) : Option State :=
  landLines s ctx va acc priv src ((linePieces (bs.length / 128 + 2) va 0 bs.length).map (fun p =>
    (p.1 / 128 * 128, List.replicate (p.1 % 128) 0 ++ (bs.drop p.2.1).take p.2.2, byteMask (p.1 % 128) p.2.2)))

/-! ### Accesses of engines, rings and images -/

/-- The outcome of a write through translation. -/
inductive WRes where
  | done (s : State)
  | wait (st stage lvl : Nat) (need : Lack)
  /-- Syndrome, and 0x0B, 0x0C or 0x0D for control space, a format range window and a peer. -/
  | fail (syn det : Nat)
deriving DecidableEq, Repr

/-- The outcome of a read through translation. -/
inductive RRes where
  | done (bs : List Byte)
  | wait (st stage lvl : Nat) (need : Lack)
  | fail (syn det : Nat)
deriving DecidableEq, Repr

/-- Reads bytes of a peer home, one line at a time (13 R318): what the answers brought, or the request still to be made. -/
def peerRead (s : State) (dev pa n : Nat) : RRes :=
  (linePieces (n / 128 + 2) pa 0 n).foldl (fun (r : RRes) p => match r with
    | .done bs => (match peerGotFor s (.load dev p.1 p.2.2) with
      | none => .wait 0 0 0 (.load dev p.1 p.2.2)
      | some g => if g.refused then .fail 0 0x0D else .done (bs ++ g.data))
    | r => r) (.done [])

/-- Writes bytes of a peer home, one line at a time: done when every line is acknowledged (13 R318). The device keeps the bytes (log 28). -/
def peerWrite (s : State) (dev pa : Nat) (bs : List Byte) : WRes :=
  (linePieces (bs.length / 128 + 2) pa 0 bs.length).foldl (fun (r : WRes) p => match r with
    | .done t =>
      let n : Lack := .store dev p.1 ((bs.drop p.2.1).take p.2.2)
      (match peerGotFor s n with
      | none => .wait 0 0 0 n
      | some g => if g.refused then .fail 0 0x0D else .done t)
    | r => r) (.done (physWrite s dev pa bs))

/-- Whether an access of a VF to a byte range of this device's memory is refused at a plane window (03 R86): a write to any, a read in one of
another VF, and any access in one whose register is disabled, where no enabled register's window lies (log 32). -/
def windowBars (s : State) (vf pa n : Nat) (write : Bool) : Bool :=
  let ws := (s.frr.map Prod.snd).filter (fun f => frrSet f && decide (frrW f < pa + n ∧ pa < frrW f + frrWSize f))
  let on := ws.filter frrEn
  if on.isEmpty then !ws.isEmpty else write || on.any (fun f => frrVf f ≠ vf)

/-- Reads bytes within one page at the place that a translation gives. -/
def readAt (s : State) (x : XRes) (ctx n acc : Nat) : RRes :=
  match x with
  | .ok dev pa _ =>
    if !peerUp s dev then .fail 0 0x0D
    else if pa.testBit 39 then .fail 0 0x0B
    else if dev ≠ s.devNo then peerRead s dev pa n
    else if windowBars s (vfOfCtx s ctx) pa n false then .fail 0 0x0C
    else if s.badLines.any (fun l => decide (l * 128 < domAddr dev pa + n ∧ domAddr dev pa < l * 128 + 128)) then .fail 0 0x1F
    else .done (physRead s dev pa n)
  | .wait st stage lvl need => .wait st stage lvl need
  | .fault k stage lvl => .fail (syndrome acc lvl stage k) 0
  | .remote k stage lvl => .fail (if k = 0 then 0 else syndrome acc lvl stage k) 0x0D

/-- Reads up to a 64 KiB boundary as an access of a kind and privilege. -/
def vread (s : State) (ctx va n acc priv : Nat) : RRes := readAt s (translate s ctx (vaOf va) acc priv) ctx n acc

/-- What a read that has been made does to the caches: it is kept in the translation cache, and served by the home slices (12 R295, 07 R189). -/
def touchRead (s : State) (ctx va n acc priv : Nat) : State :=
  let x := translate s ctx (vaOf va) acc priv
  match x with
  | .ok dev pa _ => if dev = s.devNo then touchHome (tlbKeep s x) (some ctx) pa n false else tlbKeep s x
  | _ => s

/-- Writes within one page at the place that a translation gives; a NONRESIDENT page takes the bytes in the gutter (R298, R301);
a map write-back into packed data is made like an engine write (log 103). -/
def writeAt (s : State) (x : XRes) (ctx va : Nat) (bs : List Byte) (acc src : Nat) : WRes :=
  match x with
  | .ok dev pa _ =>
    if !peerUp s dev then .fail 0 0x0D
    else if pa.testBit 39 then .fail 0 0x0B
    else if dev ≠ s.devNo then peerWrite s dev pa bs
    else if windowBars s (vfOfCtx s ctx) pa bs.length true then .fail 0 0x0C
    else
      let t := touchHome (dropPlanes (physWrite s dev pa bs) pa bs.length) (some ctx) pa bs.length true
      .done (if acc = aEWRITE then mendLines t dev pa bs.length else t)
  | .wait st stage lvl need =>
    if st = 1 then
      match gutterLand s ctx (vaOf va) acc 0 src bs with
      | some s' => .done s'
      | none => .wait st stage lvl need
    else .wait st stage lvl need
  | .fault k stage lvl => .fail (syndrome acc lvl stage k) 0
  | .remote k stage lvl => .fail (if k = 0 then 0 else syndrome acc lvl stage k) 0x0D

/-- Writes within one page of a context as an access of a kind and privilege; the translation is kept (12 R295). -/
def vwrite (s : State) (ctx va : Nat) (bs : List Byte) (acc priv src : Nat) : WRes :=
  let x := translate s ctx (vaOf va) acc priv
  match writeAt s x ctx va bs acc src with
  | .done t => .done (tlbKeep t x)
  | r => r

/-- The pieces of a range of addresses that lie in one 64 KiB page each: address, offset in the range, length. -/
def pieces : Nat → Nat → Nat → Nat → List (Nat × Nat × Nat)
  | 0, _, _, _ => []
  | fuel + 1, va, off, n =>
    if n = 0 then [] else
    let k := min n (65536 - va % 65536)
    (va, off, k) :: pieces fuel (va + k) (off + k) (n - k)

def piecesOf (va n : Nat) : List (Nat × Nat × Nat) := pieces (n / 65536 + 2) va 0 n

/-- Reads a range that may cross pages. -/
def vreadAll (s : State) (ctx va n acc priv : Nat) : RRes :=
  (piecesOf va n).foldl (fun (r : RRes) p => match r with
    | .done bs => (match vread s ctx p.1 p.2.2 acc priv with
      | .done cs => .done (bs ++ cs)
      | r => r)
    | r => r) (.done [])

/-- The address at which the read of a range meets the page it waits for. -/
def waitVa (s : State) (ctx va n acc priv : Nat) : Nat :=
  (((piecesOf va n).find? (fun p => match vread s ctx p.1 p.2.2 acc priv with | .wait _ _ _ _ => true | _ => false)).map (fun p => p.1)).getD va

/-- The address at which the write of a range meets the page it waits for. -/
def waitWriteVa (s : State) (ctx va : Nat) (bs : List Byte) (acc priv src : Nat) : Nat :=
  (((piecesOf va bs.length).find? (fun p => match vwrite s ctx p.1 ((bs.drop p.2.1).take p.2.2) acc priv src with
    | .wait _ _ _ _ => true | _ => false)).map (fun p => p.1)).getD va

/-- Writes a range that may cross pages; the bytes written before one that waits or fails stay written. -/
def vwriteAll (s : State) (ctx va : Nat) (bs : List Byte) (acc priv src : Nat) : State × Option WRes :=
  (piecesOf va bs.length).foldl (fun (r : State × Option WRes) p => match r.2 with
    | some _ => r
    | none => (match vwrite r.1 ctx p.1 ((bs.drop p.2.1).take p.2.2) acc priv src with
      | .done t => (t, none)
      | w => (r.1, some w))) (s, none)

/-! ### Rings: notices, page requests, trace records and samples (06 R158) -/

/-- The place and fullness of a ring of a context: VA of the next record and whether one fits. -/
def ringPlace (c : Ctx) (ring : Nat) : Option Nat :=
  match ring with
  | 0 =>
    if c.nbase.getLsbD 0 && decide ((c.nhead + 64 - c.ntail) % 64 ≠ 32) then
      some ((c.nbase.toNat / 512 % 2 ^ 48) * 512 + 16 * (c.nhead % 32))
    else none
  | 2 =>
    let sz := 2 ^ (min (c.trbase.toNat % 16) 9 + 7)
    if c.trbase.getLsbD 4 && decide ((c.trhead + 2 ^ 20 - c.trtail) % 2 ^ 20 ≠ sz) then
      some ((c.trbase.toNat / 4096 % 2 ^ 45) * 4096 + 32 * (c.trhead % sz))
    else none
  | _ =>
    let sz := 2 ^ (min (c.smpbase.toNat % 16) 9 + 7)
    if c.smpbase.getLsbD 4 && decide ((c.smphead + 2 ^ 20 - c.smptail) % 2 ^ 20 ≠ sz) then
      some ((c.smpbase.toNat / 4096 % 2 ^ 45) * 4096 + 32 * (c.smphead % sz))
    else none

def ringAdvance (c : Ctx) (ring : Nat) : Ctx :=
  match ring with
  | 0 => { c with nhead := (c.nhead + 1) % 64 }
  | 2 => { c with trhead := (c.trhead + 1) % 2 ^ 20 }
  | _ => { c with smphead := (c.smphead + 1) % 2 ^ 20 }

def satInc (n : Nat) : Nat := if n < 65535 then n + 1 else n

def ringDrop (c : Ctx) (ring : Nat) : Ctx :=
  match ring with
  | 0 => { c with ndrop := satInc c.ndrop }
  | 2 => { c with trdrop := satInc c.trdrop }
  | _ => { c with smpdrop := satInc c.smpdrop }

/-- Writes one record to a ring as an engine write of the context, or keeps it waiting behind its page (R158). -/
def ringWrite (s : State) (c ring src : Nat) (bs : List Byte) : State :=
  if (s.ctx c).rings.any (fun r => r.ring == ring) then s.updCtx c (fun x => { x with rings := x.rings ++ [⟨ring, bs, src⟩] })
  else match ringPlace (s.ctx c) ring with
    | none => s.updCtx c (fun x => ringDrop x ring)
    | some va =>
      match vwrite s c va bs aEWRITE 1 src with
      | .done s' => s'.updCtx c (fun x => ringAdvance x ring)
      | .wait _ stage _ need =>
        waitOn (s.updCtx c (fun x => { x with rings := x.rings ++ [⟨ring, bs, src⟩] })) c va aEWRITE stage need src (.noticeAppend, { x := c })
      | .fail _ _ => s.updCtx c (fun x => ringDrop x ring)

/-- Whether two ranges of bytes meet. -/
def meets (a n b m : Nat) : Bool := decide (a < b + m ∧ b < a + n)

/-- A write that Gyold makes for itself in a context's memory, as an engine access of the context (09 R231): one that meets a page not yet
there is performed later, behind those to the same page, unless the last one there to its bytes is the same, and one that fails is not performed. -/
def ownWrite (s : State) (c va : Nat) (bs : List Byte) (src : Nat) : State :=
  let keep : RingRec := ⟨4, natLe 8 va ++ bs, src⟩
  if ((s.ctx c).rings.filter (fun r => r.ring == 4 && meets (leNat (r.bytes.take 8)) (r.bytes.length - 8) va bs.length)).getLast? = some keep then s
  else if (s.ctx c).rings.any (fun r => r.ring == 4 && decide (leNat (r.bytes.take 8) / 65536 = va / 65536)) then
    s.updCtx c (fun x => { x with rings := x.rings ++ [keep] })
  else match vwrite s c va bs aEWRITE 1 src with
    | .done t => t
    | .wait _ stage _ need => waitOn (s.updCtx c (fun x => { x with rings := x.rings ++ [keep] })) c va aEWRITE stage need src (.noticeAppend, { x := c })
    | .fail _ _ => s

/-- The records and writes of a context that wait for their pages are tried again in order. -/
def ringRetry (s : State) (c : Nat) : State :=
  let rs := (s.ctx c).rings
  let s := s.updCtx c (fun x => { x with rings := [] })
  s.foldl rs (fun t r => if r.ring = 4 then ownWrite t c (leNat (r.bytes.take 8)) (r.bytes.drop 8) r.src else ringWrite t c r.ring r.src r.bytes)

/-- A notice record (06 R157): GTS, ARG, SRC and CODE. -/
def noticeRec (gts arg src code : Nat) : List Byte := natLe 16 (gts * 2 ^ 64 + (arg % 2 ^ 32) * 2 ^ 32 + (src % 2 ^ 16) * 2 ^ 16 + code % 256)

/-- A trace record (20 R467). -/
def traceRec (gts src code a1 a2 a3 : Nat) (late : Bool) : List Byte :=
  natLe 8 gts ++ natLe 2 src ++ natLe 1 code ++ natLe 1 (if late then 1 else 0) ++ natLe 4 a1 ++ natLe 8 a2 ++ natLe 8 a3

/-- Writes a trace record of a selected event in GTS order, or marked LATE (20 R466, R468). -/
def traceWrite (s : State) (c code src gts a1 a2 a3 : Nat) : State :=
  let x := s.ctx c
  if x.trbase.getLsbD 4 && x.trmask.toNat.testBit code && decide (1 ≤ code ∧ code ≤ 10) then
    let late := decide (gts + 8000 < s.gts) && decide (gts < x.trlast.1 ∨ (gts = x.trlast.1 ∧ src < x.trlast.2))
    let s := ringWrite s c 2 src (traceRec gts src code a1 a2 a3 late)
    if late then s else s.updCtx c (fun y => { y with trlast := (gts, src) })
  else s

/-- An event of the trace reaches the merger at the end of its GTS, where the records of that GTS are written by source number (20 R468, 00 R5;
log 42). -/
def traceEvent (s : State) (c code src gts a1 a2 a3 : Nat) : State :=
  let x := s.ctx c
  if x.trbase.getLsbD 4 && x.trmask.toNat.testBit code && decide (1 ≤ code ∧ code ≤ 10) then
    s.post (s.gts + 1) src .traceRecordWrite { x := c, y := code, z := src, u := gts, l := [a1, a2, a3] }
  else s

/-- Appends a notice of a GTS (06 R157, R158); IRQ acts even for a dropped notice. -/
def noticeAt (s : State) (c code arg src gts : Nat) : State :=
  let s := if (s.ctx c).nmask.toNat.testBit code && decide (1 ≤ code ∧ code ≤ 8) then sendMsix s (s.ctx c).vf code else s
  let s := ringWrite s c 0 src (noticeRec gts arg src code)
  traceEvent s c 8 src gts arg code 0

/-- Appends a notice. -/
def notice (s : State) (c code arg src : Nat) : State := noticeAt s c code arg src s.gts

/-- The idle rafter that takes an event, the lowest-numbered one where several are idle (01 R28; the choice among them is the model's, log 80). -/
def idleRafter (s : State) : Nat := ((upto 12).find? (fun k => !(tget false s.rafters k))).getD 0

/-- Places an event of a queue in the device event queue for an idle rafter (01 R28, 08 R199, R201). -/
def queueEvent (s : State) (c q : Nat) : State :=
  let r := idleRafter s
  { s with evq := s.evq ++ [(c, q)], rafters := tset s.rafters r true }.post s.gts (768 + r) .rafterEventTake { x := r }

/-- The queues of a context that a reason blocks are served again (08 R197). -/
def pokeBlocked (s : State) (c reason : Nat) : State :=
  s.foldl ((s.ctx c).queues.filter (fun q => decide (q.2.st = 3 ∧ q.2.reason = reason))) (fun t q => queueEvent t c q.1)

/-! ### Extended granules (10 R261) -/

/-- Granules of a core in use by resident groups. -/
def granulesUsed (s : State) (core : Nat) : List Nat :=
  s.blkIds.flatMap (fun b =>
    let k := s.blk b
    if k.core = some core then
      k.groupIds.flatMap (fun j =>
        let g := k.grp j
        if g.done then [] else g.gran :: (match g.xgran with | some x => [x] | none => []))
    else [])

/-- The lowest free granules of a core. -/
def granulesFree (s : State) (core : Nat) : List Nat :=
  let used := granulesUsed s core
  (upto 96).filter (fun n => !used.contains n)

/-- Maps an extended granule to a group: w16 to w31 become 0 in every lane. -/
def giveGranule (g : Group) (n : Nat) : Group :=
  { g with xgran := some n, wait := .none,
           thr := tmap (fun _ t => { t with w := t.w.filter (fun e => decide (e.1 < 16)), bad := t.bad.filter (· < 16) }) g.thr }

/-- Asks for the switch marker of a group to be tried. -/
def pokeMarker (s : State) (b j : Nat) : State :=
  if (s.grp b j).marker.isSome then s.postOnce s.gts (s.blkCore b) .switchMarkerComplete { x := b, y := j } else s

/-- Asks for the switch markers of a block's groups that do not wait to be tried, as where a wait has ended (05 R121). -/
def pokeMarkers (s : State) (b : Nat) : State :=
  s.foldl ((s.blk b).groupIds.filter (fun j => decide ((s.grp b j).wait = .none))) (fun t j => pokeMarker t b j)

/-- Serves the head of a core's XACQ queue while granules are free. -/
def serveXacqN : Nat → State → Nat → State
  | 0, s, _ => s
  | fuel + 1, s, core =>
    match (s.core core).xacqQ, granulesFree s core with
    | (b, j) :: q, n :: _ =>
      let s := s.updCore core (fun k => { k with xacqQ := q })
      serveXacqN fuel (pokeMarker (s.updGrp b j (fun g => giveGranule g n)) b j) core
    | _, _ => s

def serveXacq (s : State) (core : Nat) : State := serveXacqN 64 s core

/-- Returns a group's extended granule and serves the queue (R261). -/
def returnGranule (s : State) (b j : Nat) : State :=
  if (s.grp b j).xgran.isSome then serveXacq (s.updGrp b j (fun g => { g with xgran := none })) (s.blkCore b) else s

/-! ### Barriers: completion (11 R270, R271) -/

/-- The members of a membership (R269). -/
def memberOf (m : DWord) (j l : Nat) : Bool := m.getLsbD (32 + j) && m.getLsbD l

/-- Whether a group has taken CANCEL. -/
def Group.cancelled (g : Group) : Bool :=
  (g.hm && decide (g.tcause.toNat % 256 = 0x14)) || (match g.trap with | some p => decide (p.cause = 0x14) | none => false)

/-- Every member has arrived or exited (R270); so have the threads of a group that took CANCEL in WAIT-BARRIER (R282). -/
def allArrived (b : Block) (r : Barrier) : Bool :=
  b.groupIds.all (fun j => (b.grp j).outBar || (upto 32).all (fun l =>
    !memberOf r.member j l || r.who.contains (j, l) || decide (((b.grp j).th l).mode = .exited)))

/-- (GEN − w) mod 2^16 lies in 1 to 32,767 (R276). -/
def genPassed (gen w : Nat) : Bool := let d := (gen + 65536 - w % 65536) % 65536; decide (1 ≤ d ∧ d ≤ 32767)

/-- Marks the waiters of generation `gen` of a barrier as met, and lets groups go whose waiters are all met. -/
def releaseWait (n gen : Nat) (g : Group) : Group :=
  match g.wait with
  | .barrier who =>
    let who := who.map (fun w => if w.2.1 = n ∧ w.2.2.1 = gen then (w.1, w.2.1, w.2.2.1, true) else w)
    if who.all (fun w => w.2.2.2) then { g with wait := .none } else { g with wait := .barrier who }
  | _ => g

/-- Completes a FILLING generation whose condition is met (R270, R271). -/
def barComplete (b : Block) (n : Nat) : Block :=
  let r := b.bar n
  if r.st = 1 ∧ r.enga = r.eng ∧ allArrived b r then
    let k := min r.ecarry r.eng
    let r' : Barrier := { r with gen := (r.gen + 1) % 65536, arr := 0, st := 0, enga := k, ecarry := r.ecarry - k, who := [] }
    { b with bars := tset b.bars n r', bgc := (b.bgc + 1) % 65536, groups := tmap (fun _ g => releaseWait n r.gen g) b.groups }
  else b

/-- Checks every barrier of a block, as after an exit. -/
def barCompleteAll (b : Block) : Block := (upto 16).foldl barComplete b

/-! ### Ending threads and groups (04 R104, 10 R255, 14 R353) -/

/-- A group leaves its set; the others are renumbered, and a set left with one member dissolves (10 R262). A set-scope rendezvous that the last
member waits in is complete where all its threads stand there (R255). -/
def leaveSet (b : Block) (j : Nat) : Block :=
  match (b.grp j).inSet with
  | none => b
  | some t =>
    let st := tget {} b.sets t
    let ms := st.members.filter (· ≠ j)
    let b := b.updGrp j (fun g => { g with inSet := none })
    if ms.length ≤ 1 then
      let b := ms.foldl (fun k m => k.updGrp m (fun g => { g with inSet := none, joined := parkedTogether b [m] 2 })) b
      { b with sets := tdel b.sets t }
    else { b with sets := tset b.sets t { st with members := ms } }

/-- Withdraws a group's pending declaration. -/
def withdrawDecl (b : Block) (j : Nat) : Block :=
  { b with sets := tmap (fun _ st => { st with declarers := st.declarers.filter (· ≠ j) }) b.sets }

/-- Asks for the exit of a block whose groups are all gone (09 R244). -/
def pokeExit (s : State) (b : Nat) : State :=
  let k := s.blk b
  if k.core.isSome && k.groupIds.all (fun j => (k.grp j).done) then s.postOnce s.gts (s.blkCore b) .blockExit { x := b } else s

/-- What the end of a group's last thread, or its termination, does: its granules, set, queue places and slot go (10 R250, R255). -/
def groupGone (s : State) (b j : Nat) : State :=
  let core := s.blkCore b
  let s := s.updBlk b (fun k => barCompleteAll (withdrawDecl (leaveSet k j) j))
  let s := pokeMarkers s b
  let s := s.updCore core (fun k => { k with xacqQ := k.xacqQ.filter (· ≠ (b, j)) })
  let s := s.updGrp b j (fun g =>
    { g with xgran := none, hm := false, trap := none, wait := .none, rep := none, inRep := none, setFault := false, joined := false })
  let s := s.updBlk b (fun k => { k with groups := tmap (fun _ g => if g.inRep = some j then { g with inRep := none } else g) k.groups })
  let s := s.updCtx (s.blk b).ctx (fun c => { c with stops := c.stops.filter (fun p => !(p.blk == b && p.j == j)) })
  -- 10 R256, R262: the check for a SCOPE fault that follows the end of threads is made with this event
  let s := s.postOnce s.gts core .switchMarkerComplete { x := b, y := j }
  if (s.grp b j).sq.isEmpty && (s.grp b j).aside.isEmpty then
    serveXacq (pokeExit (s.updGrp b j (fun g => { g with done := true })) b) core
  else serveXacq s core

/-- Terminates a group: its threads exit and its pending memory state is discarded (04 R104). -/
def terminateGroup (s : State) (b j : Nat) : State :=
  if (s.grp b j).done then s else
  let s := s.updGrp b j (fun g =>
    { g with thr := tmap (fun _ t => { t with mode := .exited, handler := false, held := false }) g.thr
             sq := [], aside := [], pend := [], marker := none, wait := .none, trap := none, hm := false
             engErr := [], tileErr := none, softErr := none, lapse := [], dbgStop := false })
  let s := s.foldl (upto 7) (fun t q => t.updCore (t.blkCore b) (fun k =>
    { k with engQ := tset k.engQ q ((tget [] k.engQ q).map (fun o =>
        if o.blk = b ∧ o.j = j then { o with orphan := true } else o)) }))
  -- 17 R415: a tile failure clears when the group is terminated
  let s := s.updBlk b (fun k => if k.err ∧ k.errJ = j then { k with err := false, errc := 0 } else k)
  groupGone s b j

/-- Ends threads of a group; the last one ends the group (14 R353). -/
def exitThreads (s : State) (b j : Nat) (ls : List Nat) : State :=
  let s := s.updGrp b j (fun g => ls.foldl (fun g l => g.updTh l (fun t => { t with mode := .exited, handler := false })) g)
  if (s.grp b j).alive.isEmpty then groupGone s b j
  else pokeMarkers (s.updBlk b barCompleteAll) b

/-- What EXIT does to one group: it ends a group that runs a handler at wider scope, and else the guarded threads (14 R353, 19 R451). -/
def exitGroup (s : State) (b sc j : Nat) (ls : List Nat) : State :=
  if ls.isEmpty then s
  else if 0 < sc ∧ (s.grp b j).hm then terminateGroup s b j
  else exitThreads s b j ls

/-! ### Taking a trap (19 R446 to R449) -/

def cILL : Nat := 0x01
def cCHAIN : Nat := 0x02
def cPRIV : Nat := 0x03
def cXREG : Nat := 0x04
def cSCOPE : Nat := 0x05
def cMASK : Nat := 0x06
def cALIGN : Nat := 0x08
def cLFAULT : Nat := 0x09
def cSFAULT : Nat := 0x0A
def cPROT : Nat := 0x0B
def cFMTPROT : Nat := 0x0C
def cREMOTE : Nat := 0x0D
def cPROMISE : Nat := 0x10
def cRACE : Nat := 0x11
def cBRK : Nat := 0x12
def cSTEP : Nat := 0x13
def cCANCEL : Nat := 0x14
def cLAPSE : Nat := 0x15
def cUDIV : Nat := 0x16
def cENGINE : Nat := 0x17
def cUSER : Nat := 0x18
def cSOFTERR : Nat := 0x1F

/-- TCAUSE (R447). -/
def mkTcause (hm prec : Bool) (sc det cause : Nat) : Word :=
  BitVec.ofNat 32 ((if hm then 2 ^ 31 else 0) + (if prec then 2 ^ 30 else 0) + (sc % 4) * 2 ^ 28 + (det % 65536) * 256 + cause % 256)

/-- The outcome of the vector read of R157: a handler PC, unhandled, or a page to wait for. -/
inductive VecRes where
  | handler (pc : Nat)
  /-- `off`: vectoring is off or the entry is zero, for which CANCEL posts no notice (09 R246). -/
  | unhandled (off : Bool)
  | wait (va stage : Nat) (need : Lack)
deriving DecidableEq, Repr

/-- The address of entry `c` of a context's vector table (R157). -/
def vectorVa (s : State) (ctx c : Nat) : Nat := (s.ctx ctx).tvec.toNat / 256 % 2 ^ 49 * 256 + 8 * c

/-- Reads entry `c` of the vector table as a load of the group (R157, R446). -/
def readVector (s : State) (ctx priv c : Nat) : VecRes :=
  if !(s.ctx ctx).tvec.getLsbD 0 then .unhandled true
  else
    let va := vectorVa s ctx c
    match vread s ctx va 8 aLOAD priv with
    | .fail _ _ => .unhandled false
    | .wait _ stage _ need => .wait va stage need
    | .done bs =>
      let e := leNat bs
      if e = 0 then .unhandled true else if e / 2 ^ 48 ≠ 0 ∨ e % 4 ≠ 0 then .unhandled false else .handler e

/-! ### The order of a group's accesses around faults (04 R94, R101 to R105; 16 R391) -/

/-- Whether an access of sequence number `m`, which some handlers' accesses precede, stands before the one of sequence number `n`. -/
def seqBefore (m : Nat) (after : List (Nat × Nat)) (n : Nat) : Bool := decide (m < n) && !after.any (fun r => decide (r.1 ≤ n ∧ n < r.2))

/-- Whether an access precedes another in the order of its group: sequence number and the handlers' accesses that precede it, of each (16 R391). -/
def precedes (m : Nat) (ma : List (Nat × Nat)) (n : Nat) (na : List (Nat × Nat)) : Bool :=
  seqBefore m ma n || na.any (fun r => decide (r.1 ≤ m ∧ m < r.2))

/-- Loads in the log that have faulted. -/
def faultedLoads (g : Group) : List Pend := g.pend.filter (fun p => decide (p.kind = .load) && p.accs.any (fun a => decide (a.st = 2)))

/-- Whether the group runs a handler that faulted accesses caused: its own accesses go ahead of those that RETT retries (16 R391). -/
def Group.faultHandler (g : Group) : Bool :=
  g.hm && !g.tcause.getLsbD 30 && decide (g.tcause.toNat % 256 = cLFAULT ∨ g.tcause.toNat % 256 = cSFAULT)

/-- Whether an older load that has faulted, and is replayed only at RETT, stands before the access of sequence number `n` (04 R94, R103). -/
def afterFaulted (g : Group) (n : Nat) : Bool :=
  (faultedLoads g).any (fun q => seqBefore q.seq q.after n && !(g.faultHandler && decide (q.seq < g.hseq ∧ g.hseq ≤ n)))

/-- Whether a queue entry has faulted or stands directly behind a faulted load (log 71). -/
def entryStuck (g : Group) (e : SqEntry) : Bool := e.fault.isSome || afterFaulted g e.seq

/-- The queue entries that can be performed before a handler returns: those ahead of the first one that is stuck (R101). -/
def Group.runnable (g : Group) : List SqEntry := g.sq.takeWhile (fun e => !entryStuck g e)

/-- Whether the access of sequence number `n` stands behind an access that waits for the return of a handler: a faulted load, an entry set
aside, or an entry of the queue that is stuck (R102, R103). -/
def behindFault (g : Group) (n : Nat) : Bool :=
  afterFaulted g n || g.aside.any (fun e => seqBefore e.seq e.after n && decide (n < g.hseq)) ||
  (g.sq.dropWhile (fun e => !entryStuck g e)).any (fun e => seqBefore e.seq e.after n)

/-- Whether a load waits for the return of a handler: it has faulted, or it stands behind an access that has. -/
def loadStuck (g : Group) (p : Pend) : Bool := p.accs.any (fun a => decide (a.st = 2)) || behindFault g p.seq

/-- The entries that have faulted and those behind a fault are set aside for the handler that the records cause (16 R391). -/
def setAside (g : Group) : Group := { g with aside := g.aside ++ g.sq.dropWhile (fun e => !entryStuck g e), sq := g.runnable }

/-- What the read of a vector entry does to the caches (07 R189). -/
def touchVector (s : State) (ctx priv c : Nat) : State :=
  if (s.ctx ctx).tvec.getLsbD 0 then touchRead s ctx (vectorVa s ctx c) 8 aLOAD priv else s

/-- Enters the handler of a group's pending trap (R446), or ends the group when it is unhandled (R157). This is the one way a trap is taken. -/
def enterTrap (s : State) (b j : Nat) : State :=
  match (s.grp b j).trap with
  | none => s
  | some p =>
    let k := s.blk b
    let r := readVector s k.ctx (s.grp b j).priv p.cause
    let s := touchVector s k.ctx (s.grp b j).priv p.cause
    match r with
    | .wait va stage need => waitOn s k.ctx va aLOAD stage need (s.blkCore b) (.trapEntry, { x := b, y := j })
    | .unhandled off =>
      let s := terminateGroup s b j
      if p.cause = cCANCEL ∧ off = true then s else notice s k.ctx 8 p.cause (s.blkCore b)
    | .handler pc =>
      let s := s.updGrp b j (fun g =>
        let g := p.lanes.foldl (fun g e => g.updTh e.1 (fun t =>
          { t with tpc := BitVec.ofNat 64 e.2.1, tepc := BitVec.ofNat 64 e.2.2.1, taddr := BitVec.ofNat 64 e.2.2.2.1
                   tsyn := BitVec.ofNat 64 e.2.2.2.2, pc := BitVec.ofNat 48 pc, mode := .active, handler := true })) g
        let g := if p.recq then setAside g else g
        { g with hm := true, trap := none, marker := none, hseq := g.nextSeq, nextSeq := g.nextSeq + 1
                 repSave := g.repi, repi := 0, sfh := p.recq
                 tcause := mkTcause true p.prec p.sc p.det p.cause
                 tinfo := BitVec.ofNat 64 (p.repi * 2 ^ 32 + p.arg % 2 ^ 32) })
      let low := (p.lanes.head?.map (fun e => e.2.1)).getD 0
      traceEvent s k.ctx 9 (s.blkCore b) s.gts
        (p.cause + (s.grp b j).slot * 256 + s.blkCore b * 2 ^ 14) low p.det

/-- An imprecise cause that is taken is due no longer; engine and store-fault records stay until the handler removes them. -/
def notDue (g : Group) (p : Pending) : Group :=
  if p.prec then g
  else if p.cause = cMASK then p.lanes.foldl (fun g e => g.updTh e.1 (fun t => { t with maskDue := t.maskDue.filter (· ≠ p.det) })) g
  else if p.cause = cLAPSE then { g with lapse := g.lapse.drop 1 }
  else if p.cause = cSOFTERR then { g with softErr := none }
  else if p.cause = cENGINE ∧ g.engErr.isEmpty then { g with tileErr := none }
  else g

/-- Raises a trap in threads of one group (R446, R449): a double trap ends the group, an imprecise cause in a handler stays due. -/
def raiseGroup (s : State) (b j : Nat) (p : Pending) : State :=
  let g := s.grp b j
  if p.lanes.isEmpty then s
  else if g.hm then
    if p.cause = cCANCEL then terminateGroup s b j
    else notice (terminateGroup s b j) (s.blk b).ctx 8 (0x100 + p.cause) (s.blkCore b)
  else
    let s := s.updGrp b j (fun g =>
      let g := notDue g p
      -- 05 R121: the marker of a word that ends in a trap while it waits stands again once the handler has returned
      let g : Group := match g.tmark, g.marker with
        | none, some m => if m.kind = .switch then { g with tmark := some m } else g
        | _, _ => g
      let out := decide (p.cause = cCANCEL) && (match g.wait with | .barrier _ | .bridle => true | _ => false)
      let g : Group := p.lanes.foldl (fun g e => g.updTh e.1 (fun t =>
        { t with mode := .trapped, before := if t.mode = .parked then .parked else .active })) g
      { g with trap := some p, wait := .none, marker := none, rep := none, inRep := none, setFault := p.setf, outBar := g.outBar || out })
    enterTrap (if p.cause = cCANCEL then pokeMarkers (s.updBlk b barCompleteAll) b else s) b j

/-- What a precise trap of the issue in progress says beside its cause. -/
structure TrapInfo where
  cause : Nat
  /-- The class of R122. -/
  cls : Nat := 6
  prec : Bool := true
  det : Nat := 0
  arg : Nat := 0
  /-- TADDR and TSYN by member. -/
  addr : List ((Nat × Nat) × Nat × Nat) := []
  /-- TEPC is the word after the issue, not the head. -/
  resumeNext : Bool := false
  /-- TPC is the PC of the word itself, not of the head. -/
  atWord : Bool := false
  /-- Only these members trap; none: all of them. -/
  only : Option (List (Nat × Nat)) := none
deriving DecidableEq, Repr

def TrapInfo.addrOf (i : TrapInfo) (m : Nat × Nat) : Nat × Nat :=
  match i.addr.find? (fun e => e.1 = m) with
  | some e => e.2
  | none => (0, 0)

/-- Raises a precise trap for the members of the issue in progress, each group on its own (R446, 10 R257). -/
def raise (s : State) (i : TrapInfo) : State :=
  let cur := s.cur
  let ms := match i.only with | some l => l | none => cur.members
  let js := (ms.map Prod.fst).eraseDups
  let s := { s with cur := { cur with verdict := i.cls } }
  s.foldl js (fun t j =>
    let ls := (ms.filter (fun m => m.1 = j)).map Prod.snd
    let tepc := if i.resumeNext then cur.next.toNat else cur.head.toNat
    let t := t.updGrp cur.blk j (fun g => ls.foldl (fun g l => g.updTh l (fun th => { th with pc := BitVec.ofNat 48 tepc })) g)
    let t := t.updGrp cur.blk j (fun g => { g with repi := if cur.rep.isSome then cur.repi else g.repi })
    raiseGroup t cur.blk j
      { cause := i.cause, prec := i.prec, sc := cur.sc, det := i.det, arg := i.arg,
        repi := if cur.rep.isSome then cur.repi else 0
        lanes := ls.map (fun l => (l, if i.atWord then cur.pc.toNat else cur.head.toNat, tepc, (i.addrOf (j, l)).1, (i.addrOf (j, l)).2)) })

/-- Holds the issue in progress: its threads stand at the head again and the group tries in the next fc (10 R252). -/
def hold (s : State) (why : Nat) : State :=
  let cur := s.cur
  let js := (cur.members.map Prod.fst).eraseDups
  let s := { s with cur := { cur with verdict := 7 } }
  s.foldl js (fun t j => t.updGrp cur.blk j (fun g =>
    let ls := (cur.members.filter (fun m => m.1 = j)).map Prod.snd
    let g := ls.foldl (fun g l => g.updTh l (fun th =>
      { th with pc := cur.head, mode := if cur.sc = 0 then th.mode else .active })) g
    { g with notBefore := t.gts + 1, stall := why }))

/-- An address tagged with its space (05 R127). -/
def tagged (sp addr : Nat) : Nat :=
  match sp with
  | 0 => addr
  | 1 => 0xFE * 2 ^ 56 + addr
  | _ => 0xFD * 2 ^ 56 + addr

/-- TADDR and TSYN of a lane from the accesses of an entry. -/
def accOf (as : List Acc) (lane : Nat) : Nat × Nat :=
  match as.find? (fun a => a.lane = lane) with
  | some a => (tagged a.sp a.addr, if a.st = 2 then a.syn else 0)
  | none => (0, 0)

/-- A trap due at a report point: cause, DET, ARG, and the accesses TADDR and TSYN come from. -/
structure Due where
  cause : Nat
  det : Nat := 0
  arg : Nat := 0
  accs : List Acc := []
  /-- TADDR of every lane, when it comes from an engine record. -/
  addr : Nat := 0
  syn : Nat := 0
  /-- The store-fault record queue causes it (16 R391). -/
  recq : Bool := false
deriving DecidableEq, Repr

/-- Takes an imprecise trap at a report point. -/
def takeDue (s : State) (b j : Nat) (d : Due) (pc sc : Nat) (lanes : List Nat) (retry : Bool) : State :=
  let g := s.grp b j
  let ls := lanes.filter (fun l => decide ((g.th l).mode ≠ .exited))
  raiseGroup s b j
    { cause := d.cause, prec := false, sc := sc, det := d.det, arg := d.arg, repi := 0, recq := d.recq
      setf := decide (d.cause = cLFAULT ∨ d.cause = cSFAULT) &&
        ((faultedLoads g).any (fun p => p.sc == 2) || (g.aside ++ g.sq).any (fun e => e.fault.isSome && e.sc == 2))
      lanes := ls.map (fun l =>
        let ad := if d.accs.isEmpty then (d.addr, d.syn) else accOf d.accs l
        (l, pc, if retry then pc else (g.th l).pc.toNat, ad.1, ad.2)) }

/-- Notes the first fc at which the groups of the issue may issue again. -/
def busy (s : State) (n why : Nat) : State :=
  s.foldl ((s.cur.members.map Prod.fst).eraseDups) (fun t j => t.updGrp t.cur.blk j (fun g =>
    { g with notBefore := max g.notBefore (t.gts + n), stall := why }))

/-! ### The checks every word passes (05 R122, R123, R128; 10 R263; 19 R442) -/

/-- Least privilege of a word and the DET of its PRIV trap (R442, R445). -/
def privNeed (s : State) (i : Instr) : Nat × Nat :=
  match i with
  | .mfs f => (match sregInfo f.sreg.toNat with | some r => r.read | none => 0, 0x8000 + f.sreg.toNat)
  | .mts f => (match sregInfo f.sreg.toNat with | some r => if r.write < 4 then r.write else 0 | none => 0, 0x8000 + f.sreg.toNat)
  | i => ((wordInfo i).priv, s.cur.iop)

/-- Whether every member group of a word that names w16 to w31 holds its extended granule before the issue (R128, R263). -/
def xregOk (s : State) (i : Instr) : Bool :=
  !(wordInfo i).uses.any useExt || (s.cur.members.map Prod.fst).all (fun j => (s.srcGrp j).xgran.isSome)

/-- The checks of R122 items 1, 3, 4 and 5 on one word, and of item 6 the ILL of a constant operand that the word's own description refuses:
the trap that applies, if one does. -/
def staticTrap (s : State) (i : Instr) : Option TrapInfo :=
  let f := wordInfo i
  let need := privNeed s i
  if illStatic i then some { cause := cILL, cls := 1 }
  else if (s.grp s.cur.blk s.cur.j).priv < need.1 then some { cause := cPRIV, cls := 3, det := need.2 }
  else if !xregOk s i then some { cause := cXREG, cls := 4 }
  else if f.sc = 2 ∧ (s.srcGrp s.cur.j).inSet.isNone ∧ s.cur.joined = false then some { cause := cSCOPE, cls := 5 }
  else if f.late then some { cause := cILL, cls := 6 }
  else none

/-- Cancels what older loads would still write into the word's destinations (10 R265). -/
def cancelDests (s : State) (i : Instr) : State :=
  let rs := destRegs i
  if rs.isEmpty then s else
  s.foldl (((guarded s (wordInfo i).pr).map Prod.fst).eraseDups) (fun t j => t.updGrp t.cur.blk j (fun g => cancelLoads g rs))

/-- The repetition count and the steps of a REP prefix (R131). -/
def repOf (f : WP) : Nat × Nat × Nat × Nat := (f.cnt.toNat + 1, f.sd.toNat, f.sa.toNat, f.sb.toNat)

/-- What a word's own description decides before any effect. -/
inductive Check where
  | pass
  | trap (i : TrapInfo)
  | hold (why : Nat)
  /-- A report point: the groups named take the trap due there, and the others make the issue again (04 R101, 19 R446). -/
  | due (ds : List (Nat × Due))
  /-- The groups named park at an implicit switch marker and the issue is made again (10 R261, 13 R328, 14 R353); `drain` for EXIT. -/
  | park (js : List Nat) (drain : Bool)
  /-- Held until a page is resident (16 R378, 17 R401, 18 R421). -/
  | page (ctx va acc stage : Nat) (need : Lack) (why : Nat)
deriving DecidableEq, Repr

/-- The trap due at a report point, taken by one member group of the issue in progress. -/
def reportAt (s : State) (j : Nat) (d : Due) : State :=
  let cur := s.cur
  let ls := (cur.members.filter (fun m => m.1 = j)).map Prod.snd
  -- R448: after MASK the thread resumes at the word after the issue
  let s := if d.cause = cMASK then s.updGrp cur.blk j (fun g => ls.foldl (fun g l => g.updTh l (fun t => { t with pc := cur.next })) g) else s
  takeDue s cur.blk j d cur.head.toNat cur.sc ls (d.cause ≠ cMASK)

/-- Places a switch marker on a group: the loads before it are past the writes that could cancel theirs (10 R265). -/
def Group.mark (g : Group) (m : Marker) : Group := { g with marker := some m, pend := g.pend.map (fun p => { p with marked := true }) }

/-- Parks one member group of the issue in progress at an implicit switch marker; that of EXIT waits for the store queue too (22 R491). -/
def parkAt (drain : Bool) (s : State) (j : Nat) : State :=
  let cur := s.cur
  let ls := (cur.members.filter (fun m => m.1 = j)).map Prod.snd
  let s := s.updGrp cur.blk j (fun g => g.mark { kind := .exit, pc := cur.head, sc := cur.sc, lanes := ls, drain := drain })
  s.postOnce s.gts (s.blkCore cur.blk) .switchMarkerComplete { x := cur.blk, y := j }

/-- Whether a guarded member's source register holds an uncorrectable soft error (15 R375, 21 R487). -/
def badSource (s : State) (i : Instr) : Bool :=
  (guarded s (wordInfo i).pr).any (fun m => !(s.srcThr m).bad.isEmpty && (srcRegs i).any (fun r => (s.srcThr m).bad.contains r))

/-- Runs one word for the members of the issue in progress: the common checks, the word's own checks, then its effect. The words of a
multi-word issue have been checked together on the state before it (R120). -/
def word (i : Instr) (s : State) (check : State → Check) (effect : State → State) : State :=
  if s.cur.go then effect (cancelDests s i)
  else match staticTrap s i with
  | some t => raise s t
  | none =>
    if badSource s i then raise s { cause := cSOFTERR, det := 1 }
    else match check s with
    | .trap t => raise s t
    | .hold why => hold s why
    | .due ds =>
      let t := (hold s 9).foldl ds (fun t d => reportAt t d.1 d.2)
      { t with cur := { t.cur with verdict := 6 } }
    | .park js drain => (hold s 2).foldl js (parkAt drain)
    | .page ctx va acc stage need why => hold (waitIssue s ctx va acc stage need (s.blkCore s.cur.blk) s.cur.blk s.cur.j) why
    | .pass => effect (cancelDests s i)

/-- A word without checks of its own. -/
def plain (i : Instr) (s : State) (effect : State → State) : State := word i s (fun _ => .pass) effect

/-! ### Waits (10 R249 to R251) -/

/-- The groups with a guarded member. -/
def guardedGroups (s : State) (pr : Nat) : List Nat := ((guarded s pr).map Prod.fst).eraseDups

/-- CANCEL taken at once by a group that waits (R251): its TPC is the PC of the waiting word, or of the word a thread is parked at. A group
whose REP issue is under way does not wait, and one that has taken CANCEL takes it no second time. -/
def cancelAtOnce (s : State) (b j : Nat) : State :=
  let g := s.grp b j
  let st := if g.inRep.isSome || g.cancelled then 1 else groupState (s.blk b) g
  let pcOf (l : Nat) : Nat := if st = 3 then (g.th l).pc.toNat else g.waitPc
  if st = 3 ∨ st = 4 ∨ st = 5 ∨ st = 6 then
    let s := s.updCore (s.blkCore b) (fun k => { k with xacqQ := k.xacqQ.filter (· ≠ (b, j)) })
    raiseGroup (s.updBlk b (fun k => withdrawDecl k j)) b j
      { cause := cCANCEL, prec := false, sc := 0, det := 0, arg := 0, repi := 0, lanes := g.alive.map (fun l => (l, pcOf l, pcOf l, 0, 0)) }
  else s

/-- A group begins to wait at a PC; one already marked for termination takes CANCEL at once (R251). -/
def enterWait (s : State) (j : Nat) (w : GWait) (pc : Nat) : State :=
  let b := s.cur.blk
  let s := s.updGrp b j (fun g => { g with wait := w, waitPc := pc })
  if (s.blk b).marked then cancelAtOnce s b j else s

/-! ### Returning from a trap (19 R450) -/

/-- Moves the handler threads of a group to their TEPC, in the state before the trap, gives GROUP.REPI (05 R132) and the marker that the trap left
pending (05 R121) back, and clears HM. -/
def leaveHandler (g : Group) : Group :=
  { g with hm := false, repi := g.repSave, setFault := false, marker := g.tmark <|> g.marker, tmark := none, tcause := g.tcause &&& ~~~(0x8000_0000 : Word)
           thr := tmap (fun _ t =>
             if t.handler then { t with handler := false, pc := t.tepc.setWidth 48, mode := if t.mode = .exited then .exited else t.before } else t) g.thr }

end Sys2Proof.Machine
end

