-- ==== Sys2Proof/Machine/Control.lean ====
section
/-!
DEFINITION. Device control space (01_device.md R26, R29; 03_memory.md R67; 00_scope.md R9): what each address names, the least privilege of
a read and a write, the value a read returns, and the event a write starts. A write acts through an event of the agenda, so that writes
and hardware events are applied one at a time in the order of R5.
-/

namespace Sys2Proof.Machine

/-- The registers of device control space; `w` is the number of a 64-bit word. -/
inductive CReg where
  | vfcfg (n w : Nat)
  | mktcfg (w : Nat)
  | purse (n w : Nat)
  | devPrq (w : Nat)
  | gutcfg
  | tlbih (w : Nat)
  | pmov (w : Nat)
  | power (w : Nat)
  | clth (n : Nat)
  | clcap (n : Nat)
  | attreq (w : Nat)
  | port (p w : Nat)
  | route (d : Nat)
  | nsq (n w : Nat)
  | frr (n w : Nat)
  | window (vf w : Nat)
  | door (ctx q w : Nat)
  | debug (ctx w : Nat)
  /-- An address that no rule names: it reads as zero and ignores writes (R6, R194, R460; log 30). -/
  | none
deriving DecidableEq, Repr

/-- The register at a physical address whose bit 39 is set. -/
def cregOf (pa : Nat) : CReg :=
  let o := pa % 2 ^ 37
  let at_ (base len : Nat) : Bool := decide (base ≤ o ∧ o < base + len)
  if pa / 2 ^ 37 ≠ 4 then .none
  else if at_ 0x1000 1024 then .vfcfg ((o - 0x1000) / 16) ((o - 0x1000) / 8 % 2)
  else if at_ 0x3_0000 40 then .mktcfg ((o - 0x3_0000) / 8)
  else if at_ 0x3_1000 2048 then .purse ((o - 0x3_1000) / 32) ((o - 0x3_1000) / 8 % 4)
  else if at_ 0x4_0000 24 then .devPrq ((o - 0x4_0000) / 8)
  else if at_ 0x4_1000 8 then .gutcfg
  else if at_ 0x4_2000 16 then .tlbih ((o - 0x4_2000) / 8)
  else if at_ 0x4_3000 32 then .pmov ((o - 0x4_3000) / 8)
  else if at_ 0x6_0000 32 then .power ((o - 0x6_0000) / 8)
  else if at_ 0x6_1000 512 then .clth ((o - 0x6_1000) / 8)
  else if at_ 0x6_1200 512 then .clcap ((o - 0x6_1200) / 8)
  else if at_ 0x6_2000 40 then .attreq ((o - 0x6_2000) / 8)
  else if at_ 0x8_0000 4096 then .port ((o - 0x8_0000) / 64) ((o - 0x8_0000) / 8 % 8)
  else if at_ 0x8_1000 4608 then .route ((o - 0x8_1000) / 8)
  else if at_ 0x8_3000 4096 then .nsq ((o - 0x8_3000) / 64) ((o - 0x8_3000) / 8 % 8)
  else if at_ 0x10_0000 1024 then .frr ((o - 0x10_0000) / 32) ((o - 0x10_0000) / 8 % 4)
  else if at_ 0x40_0000 0x4_0000 then .window ((o - 0x40_0000) / 4096) ((o - 0x40_0000) / 8 % 512)
  else if at_ 0x1000_0000 0x1000_0000 then
    .door ((o - 0x1000_0000) / 65536) ((o - 0x1000_0000) / 4096 % 16) ((o - 0x1000_0000) / 8 % 512)
  else if at_ 0x2000_0000 0x10_0000 then .debug ((o - 0x2000_0000) / 256) ((o - 0x2000_0000) / 8 % 32)
  else .none

/-- The enabled VF whose id range holds a context id (06 R145). -/
def vfOfId (s : State) (c : Nat) : Option Nat :=
  (upto 64).find? (fun n => (s.vf n).en && decide ((s.vf n).idbase ≤ c ∧ c < (s.vf n).idbase + (s.vf n).idcnt))

/-- The least privilege to read or write a register, for a caller of a VF (`none`: the physical function). -/
def cregPriv (s : State) (r : CReg) (vf : Option Nat) : Nat :=
  let own (n : Option Nat) (p : Nat) : Nat := if vf.isSome ∧ vf = n then p else 2
  match r with
  | .window n w => if w = 3 then 2 else own (some n) 1
  | .door c _ w => own (vfOfId s c) (if w = 0 ∨ w = 5 then 1 else 0)
  | .debug c _ => own (vfOfId s c) 1
  | .none => 0
  | _ => 2

/-- After a failed boot only ATTREQ is exposed (21 R489). -/
def hidden (s : State) (r : CReg) : Bool := s.power.shut && (match r with | .attreq _ => false | _ => true)

/-- Bits `[hi:lo]` of a 64-bit value. -/
def fld (v : DWord) (hi lo : Nat) : Nat := bits v.toNat hi lo

def b2n (b : Bool) : Nat := if b then 1 else 0
def State.nsq (s : State) (n : Nat) : Nsq := tget {} s.nsqs n
def Power.cl (p : Power) (n : Nat) : Cluster := tget {} p.clusters n
def State.updNsq (s : State) (n : Nat) (f : Nsq → Nsq) : State := { s with nsqs := tset s.nsqs n (f (s.nsq n)) }
def State.updPower (s : State) (f : Power → Power) : State := { s with power := f s.power }
def State.updCl (s : State) (n : Nat) (f : Cluster → Cluster) : State :=
  s.updPower (fun p => { p with clusters := tset p.clusters n (f (p.cl n)) })
def State.updPage (s : State) (f : PageUnit → PageUnit) : State := { s with page := f s.page }
def State.updMkt (s : State) (f : Market → Market) : State := { s with mkt := f s.mkt }
def State.frrAt (s : State) (n : Nat) : Frr := tget {} s.frr n

/-- Whether a cluster is throttled (21 R478 LIMIT). -/
def Power.limited (p : Power) : Bool := p.clusters.any (fun e => decide (0 < e.2.level))

/-- The pass count in force: at least two in a cluster with a WARM block (09 R240, 21 R481). -/
def passOf (s : State) (cl : Nat) : Nat :=
  let warm := s.blks.any (fun e => e.2.heat == 1 && (match e.2.core with | some n => clusterOf n == cl | none => false))
  max (s.power.cl cl).pass (b2n warm)

/-- A stop as DSTOP shows it (20 R462). -/
def stopWord (s : State) (c : Nat) (p : Stop) : Nat :=
  let k := s.blk p.blk
  let core := k.core.getD 0xFF
  2 ^ 63 + p.kind % 256 * 2 ^ 48 + core % 256 * 2 ^ 40 + (k.grp p.j).slot % 64 * 2 ^ 34 + p.lane % 32 * 2 ^ 29 +
    p.num % 32 * 2 ^ 16 + (s.ctx c).stops.length % 2 ^ 16

/-- DSTOP of the oldest stop (20 R462). -/
def dstop (s : State) (c : Nat) : Nat :=
  match (s.ctx c).stops with
  | [] => 0
  | p :: _ => stopWord s c p

/-- The value of a register as a read finds it. -/
def ctrlValue (s : State) (r : CReg) : Nat :=
  match r with
  | .vfcfg n 0 => let v := s.vf n; b2n v.en + 2 * b2n v.err + v.idbase % 4096 * 2 ^ 16 + v.idcnt % 8192 * 2 ^ 32 + v.eper % 65536 * 2 ^ 48
  | .vfcfg n _ => (s.vf n).hroot / 4096 % 2 ^ 28 * 16
  | .mktcfg 0 => s.mkt.ilen % 64 + b2n s.mkt.migen * 512 + s.mkt.migthr % 2 ^ 32 * 2 ^ 32
  | .mktcfg 1 => s.mkt.mcost % 2 ^ 32
  | .mktcfg w =>
    tget 0x100 s.mkt.res (2 * (w - 2)) % 2 ^ 32 + (if w = 4 then 0 else tget 0x100 s.mkt.res (2 * (w - 2) + 1) % 2 ^ 32 * 2 ^ 32)
  | .purse n 0 => (s.vf n).bal % 2 ^ 64
  | .purse n 1 => (s.vf n).rate % 2 ^ 64
  | .purse n 2 => (s.vf n).cap % 2 ^ 64
  | .purse n _ => 2 * b2n (s.vf n).migok
  | .devPrq 0 => s.page.prqBase.toNat
  | .devPrq 1 => s.page.prqHead % 65536 + s.page.prqTail % 65536 * 65536 + s.page.prqDrop % 65536 * 2 ^ 48
  | .devPrq _ => 0
  | .gutcfg => b2n s.page.gutEn + s.page.gutBase / 2 ^ 28 % 4096 * 2 ^ 20 + s.page.slots.length % 2 ^ 21 * 2 ^ 32
  | .tlbih 0 => s.page.tlbihA.toNat
  | .tlbih _ => s.page.tlbihC.toNat % 2 ^ 63 + b2n s.page.tlbihGo * 2 ^ 63
  | .pmov 3 => b2n s.page.pmovGo * 2 ^ 63 + s.page.pmovStatus % 256
  | .pmov w => (tget 0 s.page.pmov w).toNat
  | .power 0 => s.power.plim % 4096 * 2 ^ 16 + s.power.tlim % 256 * 2 ^ 8
  | .power 1 => s.power.pwr % 65536 * 2 ^ 32 + s.power.tmax % 65536 * 2 ^ 16 + 2 * b2n s.power.trip + b2n s.power.limited
  | .power 2 => s.power.tsnap.toNat
  | .power _ => s.power.corr % 2 ^ 32 * 2 ^ 32 + s.power.unc % 65536 * 65536 + s.power.fenced.length % 65536
  | .clth n => let k := s.power.cl n
    k.temp % 65536 * 2 ^ 48 + k.vmv % 4096 * 2 ^ 36 + k.pwr % 4096 * 2 ^ 12 + k.ratio % 4 * 4 + passOf s n % 4
  | .clcap n => (s.power.cl n).rcap % 4
  | .attreq 4 => (tget 0 s.power.att 4).toNat / 4096 * 4096 + b2n s.power.attGo
  | .attreq w => (tget 0 s.power.att w).toNat
  | .port p 0 => let k := s.port p
    b2n k.en + 2 * (k.mode % 2) + b2n k.l0 * 2 ^ 10 + b2n k.l1 * 2 ^ 11 + k.st % 16 * 2 ^ 12
  | .port p 1 => let k := s.port p; k.dev % 1024 + b2n k.sw * 2 ^ 15 + b2n k.valid * 2 ^ 16
  | .port p 2 => (s.port p).mac % 2 ^ 48
  | .port p 3 => let k := s.port p; k.rtry % 65536 + k.fecu % 65536 * 65536 + k.fecc % 2 ^ 32 * 2 ^ 32
  | .port p 4 => (s.port p).ndisc % 2 ^ 32
  | .port _ _ => 0
  | .route d => (tget 0 s.routes d).toNat
  | .nsq n 7 => bits (s.nsq n).cfg 479 448 + (s.nsq n).ndisc % 2 ^ 32 * 2 ^ 32
  | .nsq n w => bits (s.nsq n).cfg (64 * w + 63) (64 * w)
  | .frr n 0 => (s.frrAt n).w0.toNat + 2 * b2n (s.frrAt n).err
  | .frr n 1 => (s.frrAt n).w1.toNat
  | .frr n 2 => (s.frrAt n).w2.toNat
  | .frr n _ => (s.frrAt n).w3.toNat
  | .window n w =>
    let v := s.vf n
    match w with
    | 0 => b2n v.go * 2 ^ 63 + v.status % 256 * 2 ^ 48 + v.cctx % 4096 * 2 ^ 32 + v.cop % 256
    | 1 => v.carg
    | 2 => v.vfen % 2 ^ 64
    | 3 => v.wdog % 65536
    | 4 => v.prqBase.toNat
    | 5 => v.prqHead % 65536 + v.prqTail % 65536 * 65536 + v.prqDrop % 65536 * 2 ^ 48
    | _ => 0
  | .door c q w =>
    let k := (s.ctx c).queue q
    match w with
    | 0 => k.cfg.toNat
    | 1 => k.tail % 2 ^ 32
    | 2 => k.head % 2 ^ 32
    | 3 => k.ckpt % 2 ^ 32 + k.iboff % 65536 * 2 ^ 32
    | 4 => k.eidx % 2 ^ 32 * 2 ^ 32 + (k.eib - 1) % 65536 * 2 ^ 16 + k.ecode % 256 * 256 + (if k.st = 3 then k.reason % 16 * 16 else 0) + k.st % 16
    | _ => 0
  | .debug c w =>
    let x := s.ctx c
    match w with
    | 0 => x.dbgctl.toNat
    | 5 => dstop s c
    | 6 => match x.stops with | p :: _ => p.pc % 2 ^ 48 | [] => 0
    | 7 => match x.stops with | p :: _ => p.gts % 2 ^ 64 | [] => 0
    | 9 => x.dacc.toNat
    | 10 => x.ddata.toNat
    | w => if 1 ≤ w ∧ w ≤ 4 then (tget 0 x.dbp (w - 1)).toNat else 0
  | .none => 0

/-- The side effect of reading a read-sensitive register (R311, R333, R478). -/
def ctrlReadEffect (s : State) (r : CReg) : State :=
  match r with
  | .port p 3 => s.updPort p (fun k => { k with fecc := 0, fecu := 0, rtry := 0 })
  | .port p 4 => s.updPort p (fun k => { k with ndisc := 0 })
  | .nsq n 7 => s.updNsq n (fun k => { k with ndisc := 0 })
  | .power 3 => s.updPower (fun p => { p with corr := 0, unc := 0 })
  | _ => s

/-- Reads 4 or 8 aligned bytes of control space. A read below the least privilege returns zero and has no effect (R9). -/
def ctrlRead (s : State) (pa n priv : Nat) (vf : Option Nat) : List Byte × State :=
  let r := cregOf pa
  if priv < cregPriv s r vf || hidden s r then (natLe n 0, s)
  else (natLe n (ctrlValue s r / 2 ^ (8 * (pa % 8))), ctrlReadEffect s r)

/-- What the other half of a register keeps at a write of 4 bytes: what it reads as, or, in words 1 to 3 of a format range, what is staged
(03 R84, log 31). -/
def ctrlHalf (s : State) (r : CReg) : Nat :=
  match r with
  | .frr n 1 => (s.frrAt n).s1.toNat
  | .frr n 2 => (s.frrAt n).s2.toNat
  | .frr n 3 => (s.frrAt n).s3.toNat
  | r => ctrlValue s r

/-- The 64-bit value that a write of the lower (`up` false) or upper 4 bytes gives a register. -/
def ctrlMerge (s : State) (r : CReg) (up : Bool) (h : Nat) : Nat :=
  let v := ctrlHalf s r
  if up then v % 2 ^ 32 + h % 2 ^ 32 * 2 ^ 32 else v / 2 ^ 32 * 2 ^ 32 + h % 2 ^ 32

/-- The event that a write of a register is (00 R5, R6). -/
def ctrlEvent (r : CReg) (pa v priv : Nat) (vf : Option Nat) : Instr × Arg :=
  let val := BitVec.ofNat 64 v
  match r with
  | .vfcfg n w => (.vfcfgWrite, { x := n, y := w, v := val })
  | .devPrq 2 => (.prqdoneWrite, { x := 64 })
  | .window n 6 => (.prqdoneWrite, { x := n })
  | .door c q 0 => (.qcfgWrite, { x := c, y := q, v := val })
  | .door c q 1 => (.doorbell, { x := c, y := q, v := val })
  | .door c q 5 => (if v % 4 = 1 then .retry else if v % 4 = 2 then .skip else .registerWrite, { x := c, y := q })
  | .frr n 0 => (.frrCommit, { x := n, v := val })
  | .debug c 0 => (.dbgctlWrite, { x := c, y := priv, v := val })
  | _ => (.registerWrite, { x := pa, y := priv, z := match vf with | some n => n | none => 64, v := val })

/-- Whether an event is a write of a register on its way (R5). -/
def isCtrlEvent (i : Instr) : Bool :=
  [.vfcfgWrite, .prqdoneWrite, .qcfgWrite, .doorbell, .retry, .skip, .frrCommit, .dbgctlWrite, .registerWrite].contains i

/-- Whether a write of control space by a source has not been applied yet (03 R67). -/
def ctrlPending (s : State) (src : Nat) : Bool := s.agenda.any (fun e => isCtrlEvent e.ev && decide (e.src = src ∧ e.due ≤ s.gts))

/-- Writes 4 or 8 aligned bytes of control space. A write below the least privilege is discarded (R9). A write of 4 bytes is a REGISTER_WRITE at
the register's address plus 1 or 5, for its lower or upper half, whose other half is read when the write is applied. -/
def ctrlWrite (s : State) (pa : Nat) (bs : List Byte) (priv : Nat) (vf : Option Nat) (src : Nat) : State :=
  let r := cregOf pa
  let a := pa / 8 * 8
  if priv < cregPriv s r vf || hidden s r then s
  else if bs.length = 4 then
    match r, decide (pa % 8 = 4) with
    | .none, _ => s
    | .door c q 1, false => s.post s.gts src .doorbell { x := c, y := q, v := BitVec.ofNat 64 (leNat bs) }
    | _, up => s.post s.gts src .registerWrite
        { x := a + (if up then 5 else 1), y := priv, z := match vf with | some n => n | none => 64, v := BitVec.ofNat 64 (leNat bs) }
  else
    let e := ctrlEvent r a (leNat bs) priv vf
    match r with
    | .none => s
    | .door _ _ w => if w = 0 ∨ w = 1 ∨ (w = 5 ∧ e.1 ≠ .registerWrite) then s.post s.gts src e.1 e.2 else s
    | _ => s.post s.gts src e.1 e.2

end Sys2Proof.Machine
end

