-- ==== Sys2Proof/Machine/Access.lean ====
section
/-!
DEFINITION. Accesses of threads: scratchpad and eaves (03_memory.md R70 to R81), map entries with their fills and write-backs (R72 to R77),
global memory and control space through translation (12_page.md R298, 16_access.md R378), format ranges (R86), peers (13_link.md R318),
and the race check (11_barrier.md R289 to R291).
-/

namespace Sys2Proof.Machine

/-- Size of a block's scratchpad and eaves in bytes (R66). -/
def padSize (b : Block) : Nat := regionSize b.units
def eavesSize (b : Block) : Nat := regionSize b.eunits

/-! ### Maps (R72, R73) -/

/-- Whether an entry covers a scratchpad line. -/
def MapEntry.covers (m : MapEntry) (line : Nat) : Bool := m.v && decide (m.sline ≤ line ∧ line ≤ m.sline + m.nlm1)

/-- The valid entry that covers a scratchpad line, with the line's index in it. -/
def mapOf (b : Block) (line : Nat) : Option (Nat × Nat) :=
  match b.maps.find? (fun e => e.2.covers line) with
  | some e => some (e.1, line - e.2.sline)
  | none => none

/-- The entry and index of a mapped line that is INVALID. -/
def invalidLine (b : Block) (line : Nat) : Option (Nat × Nat) :=
  match mapOf b line with
  | some (e, i) => if (b.map e).valid.contains i then none else some (e, i)
  | none => none

def Block.updMap (b : Block) (e : Nat) (f : MapEntry → MapEntry) : Block := { b with maps := tset b.maps e (f (b.map e)) }

/-- Marks bytes of a mapped line dirty. -/
def dirtyBytes (b : Block) (off n : Nat) : Block :=
  match mapOf b (off / 128) with
  | some (e, i) => b.updMap e (fun m => { m with dirty := tset m.dirty i (tget 0 m.dirty i ||| byteMask (off % 128) n) })
  | none => b

/-- Writes bytes that lie in one scratchpad line (R73). -/
def padWrite (s : State) (b off : Nat) (bs : List Byte) : State :=
  let s := { s with sram := regionWrite s.sram (s.blk b).units off bs }
  if (s.blk b).maps.isEmpty then s else s.updBlk b (fun k => dirtyBytes k off bs.length)

def padRead (s : State) (b off n : Nat) : List Byte := regionRead s.sram (s.blk b).units off n
def eavesWrite (s : State) (b off : Nat) (bs : List Byte) : State := { s with sram := regionWrite s.sram (s.blk b).eunits off bs }
def eavesRead (s : State) (b off n : Nat) : List Byte := regionRead s.sram (s.blk b).eunits off n

/-- A write by an engine, a fill or REDW sets WR := 0 in the shadow bytes of the words it touches (R291). -/
def shadowClear (b : Block) (off n : Nat) : Block :=
  if b.checked then
    let ws := (upto (n / 4 + 2)).map (fun i => off / 4 + i)
    { b with shadow := ws.foldl (fun t w => if w * 4 < off + n then tset t w (tget 0 t w / 16 * 16) else t) b.shadow }
  else b

/-- Whether a word's shadow byte reports a race with group `j` (R291). -/
def shadowRaces (b : Block) (j w : Nat) : Bool :=
  let v := tget 0 b.shadow w
  decide (v % 16 ≠ 0 ∧ v % 16 ≠ j + 1 ∧ v / 16 % 16 = b.bgc % 16)

/-- Whether an access of group `j` to scratchpad bytes raises RACE (R291). -/
def raceAt (b : Block) (j off n : Nat) : Bool :=
  b.checked && (upto (n / 4 + 2)).any (fun i => let w := off / 4 + i; decide (w * 4 < off + n) && shadowRaces b j w)

/-- A store or atomic that passes the check marks its words (R291). -/
def shadowSet (b : Block) (j off n : Nat) : Block :=
  if b.checked then
    let ws := (upto (n / 4 + 2)).map (fun i => off / 4 + i)
    { b with shadow := ws.foldl (fun t w => if w * 4 < off + n then tset t w (b.bgc % 16 * 16 + (j + 1) % 16) else t) b.shadow }
  else b

/-- The outcome of a fill or a write-back of a line: what it waits for is named with the address that waits. -/
inductive FillRes where
  | done (s : State)
  | wait (va stage : Nat) (need : Lack)
  /-- The faulting VA, which every report names (12 R303), with its syndrome and detail. -/
  | fail (va syn det : Nat)
deriving DecidableEq, Repr

/-- The state in which a map unit works: that of the block's core, whose translation cache it uses (12 R304), whatever event drives it. -/
def atCore (s : State) (b : Nat) : State := { s with src := s.blkCore b }

/-- VA of a line of an entry. -/
def lineVa (m : MapEntry) (i : Nat) : Nat := (m.vline + i) * 128 % 2 ^ 57

/-- Fills one INVALID line from its global line (R73, R304). -/
def fillLine (s : State) (b e i : Nat) : FillRes :=
  let k := s.blk b
  let m := k.map e
  let src := s.src
  let s := atCore s b
  match vread s k.ctx (lineVa m i) 128 aFILL k.priv with
  | .wait _ stage _ need => .wait (lineVa m i) stage need
  | .fail syn det => .fail (lineVa m i) (if det = 0x1F then syndrome aFILL 0 2 kPOISONED else syn) (if det = 0x1F ∨ det = 0x0C then 0 else det)
  | .done bs =>
    let off := (m.sline + i) * 128
    let s := touchRead s k.ctx (lineVa m i) 128 aFILL k.priv
    let s := { s with sram := regionWrite s.sram k.units off bs, src := src }
    .done (s.updBlk b (fun k => (shadowClear k off 128).updMap e (fun m =>
      { m with valid := m.valid ++ [i], dirty := tdel m.dirty i })))

/-- The runs of bytes that a mask of a line names: offset and length. -/
def maskRuns (mask : Nat) : List (Nat × Nat) :=
  (upto 128).foldr (fun i rs =>
    if mask.testBit i then (match rs with | (o, n) :: rest => if o = i + 1 then (i, n + 1) :: rest else (i, 1) :: rs | [] => [(i, 1)]) else rs) []

/-- Writes exactly the dirty bytes of one line to its global line and clears the mask (R73, R75, R76). -/
def writeBackLine (s : State) (b e i : Nat) : FillRes :=
  let k := s.blk b
  let m := k.map e
  let mask := tget 0 m.dirty i
  if mask = 0 then .done s
  else
    let va := lineVa m i
    let src := s.src
    let s := atCore s b
    let bs := padRead s b ((m.sline + i) * 128) 128
    let landed := match translate s k.ctx va aWB k.priv with
      | .wait 1 _ _ _ => landLines s k.ctx va aWB k.priv (s.blkCore b) [(va, bs, mask)]
      | _ => none
    let r : WRes := match landed with
      | some t => .done t
      | none => (maskRuns mask).foldl (fun (r : WRes) p => match r with
        | .done t => vwrite t k.ctx (va + p.1) ((bs.drop p.1).take p.2) aWB k.priv (s.blkCore b)
        | r => r) (.done s)
    match r with
    | .done t => .done ({ t with src := src }.updBlk b (fun k => k.updMap e (fun m => { m with dirty := tdel m.dirty i })))
    | .wait _ stage _ need => .wait va stage need
    | .fail syn det => .fail va syn det

/-- Write-backs of dirty lines, given as (entry, index). The first line that does not go through ends them. -/
def writeBackLines (s : State) (b : Nat) (ls : List (Nat × Nat)) : FillRes :=
  ls.foldl (fun (r : FillRes) l => match r with
    | .done t => writeBackLine t b l.1 l.2
    | r => r) (.done s)

/-- The dirty lines of a block's valid entries that may be written back: RO entries never are (R72). -/
def dirtyLines (b : Block) : List (Nat × Nat) :=
  b.maps.flatMap (fun e => if e.2.v && !e.2.ro then (e.2.dirty.filter (fun d => d.2 ≠ 0)).map (fun d => (e.1, d.1)) else [])

/-! ### Accesses of engines to a block's regions (R71, R73, R291) -/

/-- Fills the INVALID lines of ranges of scratchpad bytes, as an engine access that touches them does (R73). -/
def padFill (s : State) (b : Nat) (rs : List (Nat × Nat)) : FillRes :=
  if (s.blk b).maps.isEmpty then .done s else
  let lines := sortNat (rs.flatMap (fun r => if r.2 = 0 then [] else (upto ((r.1 + r.2 - 1) / 128 + 1 - r.1 / 128)).map (fun i => r.1 / 128 + i)))
  lines.foldl (fun (r : FillRes) l => match r with
    | .done t => (match invalidLine (t.blk b) l with
      | some (e, i) => fillLine t b e i
      | none => .done t)
    | r => r) (.done s)

/-- An engine's write of scratchpad bytes whose lines are valid. It is made in a line of an RO entry too, since RO refuses stores alone, and marks
bytes dirty there that no write-back ever carries (R72, log 82). -/
def enginePad (s : State) (b off : Nat) (bs : List Byte) : State :=
  let s := (linePieces (bs.length / 128 + 2) off 0 bs.length).foldl (fun t p => padWrite t b p.1 ((bs.drop p.2.1).take p.2.2)) s
  if (s.blk b).checked then s.updBlk b (fun k => shadowClear k off bs.length) else s

/-- Reads or writes scratchpad (1) or eaves (2) bytes for an engine. -/
def engineRead (s : State) (b sp off n : Nat) : List Byte := if sp = 1 then padRead s b off n else eavesRead s b off n
def engineWrite (s : State) (b sp off : Nat) (bs : List Byte) : State := if sp = 1 then enginePad s b off bs else eavesWrite s b off bs

/-! ### One lane's access -/

/-- The outcome of one lane's read. -/
inductive LRes where
  | val (bs : List Byte) (s : State)
  /-- The line must be filled first. -/
  | fill (e i : Nat)
  | wait (st stage lvl : Nat) (need : Lack)
  | fail (syn det : Nat)
  /-- The home is a peer: its number and the physical address there. -/
  | peer (dev pa : Nat)
deriving DecidableEq, Repr

/-- A thread's use of the caches for a line of this device's HBM. -/
def threadTouch (s : State) (b addr pa : Nat) (use : Option CacheUse) : State :=
  match use with
  | some u => touchLine s (s.blkCore b) (s.blk b).ctx (vaOf addr) pa u
  | none => s

/-- The VF of a block's context, for control space (R29). -/
def blkVf (s : State) (b : Nat) : Nat := (s.ctx (s.blk b).ctx).vf

/-- Whether format ranges refuse a core's access to a physical address of this device: a plane window that refuses it, and a store or atomic to a
packed region of an enabled range of the context's own VF (R86, log 32). -/
def rangeBars (s : State) (b pa acc : Nat) : Bool :=
  !s.frr.isEmpty && (windowBars s (blkVf s b) pa 1 (accWrites acc) || (accWrites acc && frrPacked s (blkVf s b) pa))

/-- Translates and reads global memory for a thread of a block (R298, R378). An access that a format range refuses only after it has waited for its
page faults without a syndrome (log 32). -/
def globalRead (s : State) (b addr n acc : Nat) (use : Option CacheUse) : LRes :=
  let k := s.blk b
  let x := translate s k.ctx (vaOf addr) acc k.priv
  match x with
  | .wait st stage lvl need => .wait st stage lvl need
  | .fault kd stage lvl => .fail (syndrome acc lvl stage kd) 0
  | .remote kd stage lvl => .fail (if kd = 0 then 0 else syndrome acc lvl stage kd) 0x0D
  | .ok dev pa t =>
    if !peerUp s dev then .fail 0 0x0D
    else if pa.testBit 39 then
      if dev ≠ s.devNo then .fail 0 0x0D
      else if acc = aLOAD ∧ (n = 4 ∨ n = 8) then
        let r := ctrlRead s pa n k.priv (some (blkVf s b))
        .val r.1 r.2
      else .fail 0 0x0B
    else if dev ≠ s.devNo then .peer dev pa
    else if rangeBars s b pa acc then .fail 0 0
    else if s.badLines.contains (domAddr dev pa / 128) then .fail (syndrome acc t.hlvl 2 kPOISONED) 0x1F
    else .val (physRead s dev pa n) (threadTouch (tlbKeep s x) b addr pa use)

/-- Reads one lane's access in a space: 0 global, 1 scratchpad, 2 eaves. `use` is its use of the caches, if it makes one. -/
def laneRead (s : State) (b space addr n acc : Nat) (use : Option CacheUse) : LRes :=
  match space with
  | 0 => globalRead s b addr n acc use
  | 1 => match invalidLine (s.blk b) (addr / 128) with
    | some (e, i) => .fill e i
    | none => .val (padRead s b addr n) s
  | _ => .val (eavesRead s b addr n) s

/-- The outcome of one lane's write. -/
inductive SRes where
  | done (s : State)
  | fill (e i : Nat)
  | wait (st stage lvl : Nat) (need : Lack)
  | fail (syn det : Nat)
  | peer (dev pa : Nat)
deriving DecidableEq, Repr

/-- Translates and writes global memory for a thread of a block (R298, R301, R378). -/
def globalWrite (s : State) (b addr : Nat) (bs : List Byte) (acc : Nat) (use : Option CacheUse) : SRes :=
  let k := s.blk b
  let x := translate s k.ctx (vaOf addr) acc k.priv
  match x with
  | .wait st stage lvl need =>
    if st = 1 ∧ acc = aSTORE then
      match gutterLand s k.ctx (vaOf addr) acc k.priv (s.blkCore b) bs with
      | some s' => .done s'
      | none => .wait st stage lvl need
    else .wait st stage lvl need
  | .fault kd stage lvl => .fail (syndrome acc lvl stage kd) 0
  | .remote kd stage lvl => .fail (if kd = 0 then 0 else syndrome acc lvl stage kd) 0x0D
  | .ok dev pa _ =>
    if !peerUp s dev then .fail 0 0x0D
    else if pa.testBit 39 then
      if dev ≠ s.devNo then .fail 0 0x0D
      else if acc = aSTORE ∧ (bs.length = 4 ∨ bs.length = 8) then
        .done (ctrlWrite s pa bs k.priv (some (blkVf s b)) (s.blkCore b))
      else .fail 0 0x0B
    else if dev ≠ s.devNo then .peer dev pa
    else if rangeBars s b pa acc then .fail 0 0
    else .done (threadTouch (tlbKeep (physWrite s dev pa bs) x) b addr pa use)

/-- Writes one lane's access in a space. -/
def laneWrite (s : State) (b space addr : Nat) (bs : List Byte) (acc : Nat) (use : Option CacheUse) : SRes :=
  match space with
  | 0 => globalWrite s b addr bs acc use
  | 1 => match invalidLine (s.blk b) (addr / 128) with
    | some (e, i) => .fill e i
    | none => .done (padWrite s b addr bs)
  | _ => .done (eavesWrite s b addr bs)

/-- Whether a lane's access may be performed now, and if not why, without performing it (R101: an entry is performed for all of its lanes
or for none). -/
def laneProbe (s : State) (b space addr n acc : Nat) : LRes :=
  match space with
  | 0 =>
    let k := s.blk b
    match translate s k.ctx (vaOf addr) acc k.priv with
    | .wait st stage lvl need =>
      if st = 1 ∧ acc = aSTORE ∧ s.page.gutEn ∧ s.page.slots.length < 1048576 then .val [] s else .wait st stage lvl need
    | .fault kd stage lvl => .fail (syndrome acc lvl stage kd) 0
    | .remote kd stage lvl => .fail (if kd = 0 then 0 else syndrome acc lvl stage kd) 0x0D
    | .ok dev pa t =>
      if !peerUp s dev then .fail 0 0x0D
      else if pa.testBit 39 then
        if dev ≠ s.devNo then .fail 0 0x0D
        else if (acc = aLOAD ∨ acc = aSTORE) ∧ (n = 4 ∨ n = 8) then .val [] s else .fail 0 0x0B
      else if dev ≠ s.devNo then .peer dev pa
      else if rangeBars s b pa acc then .fail 0 0
      else if acc ≠ aSTORE ∧ s.badLines.contains (domAddr dev pa / 128) then .fail (syndrome acc t.hlvl 2 kPOISONED) 0x1F
      else .val [] s
  | 1 => match invalidLine (s.blk b) (addr / 128) with
    | some (e, i) => .fill e i
    | none => .val [] s
  | _ => .val [] s

/-! ### Format ranges (R86, R378) -/

/-- Whether a global access raises FMTPROT at its issue (R86, R378). -/
def fmtProt (s : State) (b addr acc : Nat) : Bool :=
  if s.frr.isEmpty then false
  else match translate s (s.blk b).ctx (vaOf addr) acc (s.blk b).priv with
    | .ok dev pa _ => decide (dev = s.devNo) && rangeBars s b pa acc
    | _ => false

/-- An unloaded latency in ns (R90), at its least; what is above it is free (log 12). -/
def latency (space : Nat) : Nat := match space with | 0 => 12 | 1 => 4 | _ => 20

end Sys2Proof.Machine
end

