-- ==== Sys2Proof/Machine/Flags.lean ====
section
/-!
DEFINITION. Floating-point values, rounding and the flags of FPC (02_numbers.md R36 to R48; 15_float.md R357 to R372). Everything is exact
integer arithmetic on significands; a result is a pair of the result bits and the flags it raises.
-/

namespace Sys2Proof.Machine

/-- A floating-point format (R36): exponent width, fraction width, bias, and whether it is E4M3 with its single NaN and no infinities. -/
structure FFmt where
  eb : Nat
  fb : Nat
  bias : Int
  e4m3 : Bool
deriving DecidableEq, Repr

def fp32 : FFmt := ⟨8, 23, 127, false⟩
def bf16 : FFmt := ⟨8, 7, 127, false⟩
def e5m2 : FFmt := ⟨5, 2, 15, false⟩
def e4m3 : FFmt := ⟨4, 3, 7, true⟩

/-- The value of a floating-point datum: NaN, infinity, signed zero, or `± m × 2^e` with `m ≠ 0`. -/
inductive Fp where
  | nan
  | inf (neg : Bool)
  | zero (neg : Bool)
  | fin (neg : Bool) (m : Nat) (e : Int)
deriving DecidableEq, Repr

/-- The sticky flags of FPC[4:0] (R40). -/
def flNX : Nat := 1
def flUF : Nat := 2
def flOF : Nat := 4
def flDZ : Nat := 8
def flNV : Nat := 16

/-- A result and the flags it raises. -/
structure FRes where
  bits : Nat
  flags : Nat
deriving DecidableEq, Repr

/-- The canonical NaN of a format (R36, R37). -/
def fpNaN (f : FFmt) : Nat := if f.e4m3 then 0x7F else (2 ^ f.eb - 1) <<< f.fb + 2 ^ (f.fb - 1)

def fpSign (f : FFmt) (neg : Bool) : Nat := if neg then 2 ^ (f.eb + f.fb) else 0

/-- An infinity; E4M3 has none and delivers its NaN (R36). -/
def fpInf (f : FFmt) (neg : Bool) : Nat :=
  if f.e4m3 then fpNaN f else fpSign f neg + (2 ^ f.eb - 1) <<< f.fb

/-- The bits of the largest finite magnitude (R36). -/
def fpMaxBits (f : FFmt) (neg : Bool) : Nat :=
  fpSign f neg + (if f.e4m3 then 0x7E else ((2 ^ f.eb - 1) <<< f.fb) - 1)

/-- The largest finite magnitude as `m × 2^e`. -/
def fpMax (f : FFmt) : Nat × Int :=
  if f.e4m3 then (14, 5) else (2 ^ (f.fb + 1) - 1, (2 ^ f.eb - 2 : Nat) - f.bias - f.fb)

/-- The value that a datum of a format denotes (R36). -/
def fpDecode (f : FFmt) (x : Nat) : Fp :=
  let neg := x.testBit (f.eb + f.fb)
  let e := (x >>> f.fb) % 2 ^ f.eb
  let m := x % 2 ^ f.fb
  if f.e4m3 ∧ e = 15 ∧ m = 7 then .nan
  else if ¬ f.e4m3 ∧ e = 2 ^ f.eb - 1 then (if m = 0 then .inf neg else .nan)
  else if e = 0 then (if m = 0 then .zero neg else .fin neg m (1 - f.bias - f.fb))
  else .fin neg (2 ^ f.fb + m) (e - f.bias - f.fb)

/-- Whether a datum is a non-zero subnormal. -/
def fpSubnormal (f : FFmt) (x : Nat) : Bool := (x >>> f.fb) % 2 ^ f.eb = 0 && x % 2 ^ f.fb ≠ 0

/-- A source of a vector instruction: under FTZ a subnormal counts as zero of its sign (R41). -/
def fpSource (f : FFmt) (ftz : Bool) (x : Nat) : Fp :=
  if ftz && fpSubnormal f x then .zero (x.testBit (f.eb + f.fb)) else fpDecode f x

/-- `m` shifted right by `r` places and rounded in a mode of R38, with whether bits were lost. -/
def shiftRound (mode : Nat) (neg : Bool) (m r : Nat) : Nat × Bool :=
  let q := m >>> r
  let rem := m % 2 ^ r
  let half := 2 ^ r / 2
  let up := match mode with
    | 0 => decide (rem > half) || (rem == half && rem != 0 && q % 2 == 1)
    | 1 => false
    | 2 => !neg && rem != 0
    | _ => neg && rem != 0
  (if up then q + 1 else q, rem != 0)

/-- `m × 2^e` brought to a multiple of `2^t` in a mode, as the multiple. -/
def roundTo (mode : Nat) (neg : Bool) (m : Nat) (e t : Int) : Nat × Bool :=
  if t ≤ e then (m <<< (e - t).toNat, false) else shiftRound mode neg m (t - e).toNat

/-- `m1 × 2^e1 > m2 × 2^e2`. -/
def magGt (m1 : Nat) (e1 : Int) (m2 : Nat) (e2 : Int) : Bool :=
  let e := if e1 ≤ e2 then e1 else e2
  decide (m1 <<< (e1 - e).toNat > m2 <<< (e2 - e).toNat)

/-- The exponent of the leading bit of `m × 2^e`. -/
def magLog (m : Nat) (e : Int) : Int := (Nat.log2 m : Int) + e

/-- The bits of the representable value `± m × 2^e`, `m` possibly zero. -/
def fpAssemble (f : FFmt) (neg : Bool) (m : Nat) (e : Int) : Nat :=
  if m = 0 then fpSign f neg else
  let emin := 1 - f.bias
  let l := magLog m e
  if l < emin then fpSign f neg + (roundTo 1 neg m e (emin - f.fb)).1
  else fpSign f neg + ((l + f.bias).toNat <<< f.fb) + (roundTo 1 neg m e (l - f.fb)).1 % 2 ^ f.fb

/-- The result of a finite overflow (R39). -/
def fpOverflow (f : FFmt) (mode : Nat) (neg : Bool) : Nat :=
  match mode with
  | 0 => fpInf f neg
  | 1 => fpMaxBits f neg
  | 2 => if neg then fpMaxBits f neg else fpInf f neg
  | _ => if neg then fpInf f neg else fpMaxBits f neg

/-- The overflow of a conversion to an 8-bit format (R44): saturation, or with F8NS the RNE column of R39. -/
def fpOverflow8 (f : FFmt) (f8ns : Bool) (neg : Bool) : Nat := if f8ns then fpInf f neg else fpMaxBits f neg

/-- One rounding of a finite non-zero value (R39, R41, R42). `sat8` is F8NS for a conversion of R44, and none elsewhere. -/
def fpRound (f : FFmt) (mode : Nat) (ftz : Bool) (sat8 : Option Bool) (neg : Bool) (m : Nat) (e : Int) : FRes :=
  let l := magLog m e
  let r1 := roundTo mode neg m e (l - f.fb)
  let e1 := l - f.fb
  let mx := fpMax f
  let emin := 1 - f.bias
  if magGt r1.1 e1 mx.1 mx.2 then
    ⟨match sat8 with
      | some ns => fpOverflow8 f ns neg
      | none => fpOverflow f mode neg, flOF ||| flNX⟩
  else if magLog r1.1 e1 < emin then
    let r2 := roundTo mode neg m e (emin - f.fb)
    if ftz && decide (r2.1 < 2 ^ f.fb) then ⟨fpSign f neg, flUF ||| flNX⟩
    else ⟨fpAssemble f neg r2.1 (emin - f.fb), if r2.2 then flUF ||| flNX else 0⟩
  else ⟨fpAssemble f neg r1.1 e1, if r1.2 then flNX else 0⟩

/-- A value delivered to a format with one rounding; every NaN is canonical and raises NV here (R37). -/
def fpDeliver (f : FFmt) (mode : Nat) (ftz : Bool) : Fp → FRes
  | .nan => ⟨fpNaN f, flNV⟩
  | .inf neg => ⟨fpInf f neg, 0⟩
  | .zero neg => ⟨fpSign f neg, 0⟩
  | .fin neg m e => fpRound f mode ftz none neg m e

/-- A conversion to E4M3 or E5M2 (R44). -/
def fpConv8 (f : FFmt) (mode : Nat) (f8ns : Bool) : Fp → FRes
  | .nan => ⟨fpNaN f, flNV⟩
  | .inf neg => ⟨fpInf f neg, if f.e4m3 then flNV else 0⟩
  | .zero neg => ⟨fpSign f neg, 0⟩
  | .fin neg m e => fpRound f mode false (some f8ns) neg m e

/-- A widening conversion: exact, NaNs become canonical, no flag (R45, R366). -/
def fpWiden (f : FFmt) : Fp → Nat
  | .nan => fpNaN f
  | .inf neg => fpInf f neg
  | .zero neg => fpSign f neg
  | .fin neg m e => fpAssemble f neg m e

def fpNegate : Fp → Fp
  | .nan => .nan
  | .inf n => .inf (!n)
  | .zero n => .zero (!n)
  | .fin n m e => .fin (!n) m e

/-- The exact product; zero times infinity is invalid (R359). -/
def fpMul (a b : Fp) : Fp :=
  match a, b with
  | .nan, _ | _, .nan => .nan
  | .inf _, .zero _ | .zero _, .inf _ => .nan
  | .inf x, .inf y | .inf x, .fin y _ _ | .fin x _ _, .inf y => .inf (x != y)
  | .zero x, .zero y | .zero x, .fin y _ _ | .fin x _ _, .zero y => .zero (x != y)
  | .fin x m e, .fin y n k => .fin (x != y) (m * n) (e + k)

def fpIsNaN : Fp → Bool
  | .nan => true
  | _ => false

def fpIsZero : Fp → Bool
  | .zero _ => true
  | _ => false

def fpNeg : Fp → Bool
  | .nan => false
  | .inf n | .zero n | .fin n _ _ => n

/-- A signed significand and exponent as an exact value. -/
def fpOfInt (v : Int) (e : Int) : Fp := if v = 0 then .zero false else .fin (decide (v < 0)) v.natAbs e

/-- The lowest exponent among finite terms. -/
def minExp : List Fp → Int → Int
  | [], e => e
  | .fin _ _ k :: ts, e => minExp ts (if k < e then k else e)
  | _ :: ts, e => minExp ts e

/-- The exact sum of finite terms as a multiple of `2^e`. -/
def sumAt (e : Int) : List Fp → Int
  | [] => 0
  | .fin n m k :: ts => (if n then -((m <<< (k - e).toNat : Nat) : Int) else (m <<< (k - e).toNat : Nat)) + sumAt e ts
  | _ :: ts => sumAt e ts

/-- The exact sum of terms, with the special cases of R359: an invalid sum is NaN, and an exact zero takes the sign IEEE 754 gives. -/
def fpSum (mode : Nat) (ts : List Fp) : Fp :=
  if ts.any fpIsNaN then .nan
  else
    let pos := ts.any (fun t => match t with | .inf n => !n | _ => false)
    let neg := ts.any (fun t => match t with | .inf n => n | _ => false)
    if pos && neg then .nan
    else if pos then .inf false
    else if neg then .inf true
    else
      let e := minExp ts 2000
      let v := sumAt e ts
      if v = 0 then
        if ts.all fpIsZero && ts.all fpNeg then .zero true
        else if ts.all fpIsZero && ts.all (fun t => !fpNeg t) then .zero false
        else .zero (mode == 3)
      else fpOfInt v e

/-- `A < B` of ordered values, with -0 below +0 when `zeros` is set (R360, R361). -/
def fpLt (zeros : Bool) (a b : Fp) : Bool :=
  match a, b with
  | .nan, _ | _, .nan => false
  | .inf x, .inf y => x && !y
  | .inf x, _ => x
  | _, .inf y => !y
  | .zero x, .zero y => zeros && x && !y
  | .zero _, .fin y _ _ => !y
  | .fin x _ _, .zero _ => x
  | .fin x m e, .fin y n k =>
    if x != y then x else if x then magGt m e n k else magGt n k m e

/-- Equality of ordered values; -0 equals +0 (R361). -/
def fpEq (a b : Fp) : Bool :=
  match a, b with
  | .nan, _ | _, .nan => false
  | _, _ => !fpLt false a b && !fpLt false b a

/-- FMIN and FMAX of sources already flushed (R360). -/
def fpMinMax (f : FFmt) (max : Bool) (xa xb : Nat) (a b : Fp) : FRes :=
  match fpIsNaN a, fpIsNaN b with
  | true, true => ⟨fpNaN f, flNV⟩
  | true, false => ⟨xb, flNV⟩
  | false, true => ⟨xa, flNV⟩
  | false, false => ⟨if fpLt true a b != max then xa else xb, 0⟩

/-- The bits of a source after FTZ (R41). -/
def fpFlushed (f : FFmt) (ftz : Bool) (x : Nat) : Nat :=
  if ftz && fpSubnormal f x then fpSign f (x.testBit (f.eb + f.fb)) else x

/-- FMIN or FMAX on the bits of the two operands (R360). -/
def fpMinMaxBits (f : FFmt) (ftz max : Bool) (a b : Nat) : FRes :=
  let a := fpFlushed f ftz a
  let b := fpFlushed f ftz b
  fpMinMax f max a b (fpDecode f a) (fpDecode f b)

/-- FABS and FNEG on the bits of an operand (R360). -/
def fpAbsBits (f : FFmt) (ftz : Bool) (a : Nat) : Nat :=
  let a := fpFlushed f ftz a
  if fpIsNaN (fpDecode f a) then fpNaN f else a % 2 ^ (f.eb + f.fb)

def fpNegBits (f : FFmt) (ftz : Bool) (a : Nat) : Nat :=
  let a := fpFlushed f ftz a
  if fpIsNaN (fpDecode f a) then fpNaN f else a ^^^ 2 ^ (f.eb + f.fb)

/-- FADD, FSUB, FMUL, FFMA and their BF16 forms on operand bits (R359, R362). -/
def fpAddBits (f : FFmt) (mode : Nat) (ftz : Bool) (a b : Nat) : FRes :=
  fpDeliver f mode ftz (fpSum mode [fpSource f ftz a, fpSource f ftz b])

def fpSubBits (f : FFmt) (mode : Nat) (ftz : Bool) (a b : Nat) : FRes :=
  fpDeliver f mode ftz (fpSum mode [fpSource f ftz a, fpNegate (fpSource f ftz b)])

def fpMulBits (f : FFmt) (mode : Nat) (ftz : Bool) (a b : Nat) : FRes :=
  fpDeliver f mode ftz (fpMul (fpSource f ftz a) (fpSource f ftz b))

def fpFmaBits (f : FFmt) (mode : Nat) (ftz : Bool) (a b d : Nat) : FRes :=
  fpDeliver f mode ftz (fpSum mode [fpMul (fpSource f ftz a) (fpSource f ftz b), fpSource f ftz d])

/-- FSET (R361): the truth of a comparison and its flags. -/
def fpCompare (cond : Nat) (a b : Fp) : Bool :=
  let un := fpIsNaN a || fpIsNaN b
  match cond with
  | 0 => fpEq a b
  | 1 => un || !fpEq a b
  | 2 => fpLt false a b
  | 3 => !un && !fpLt false b a
  | 4 => fpLt false b a
  | 5 => !un && !fpLt false a b
  | 6 => un
  | _ => !un

/-- A float rounded to an integer in a mode: the integer and whether it was inexact. -/
def fpToInt (mode : Nat) : Fp → Option (Int × Bool)
  | .nan | .inf _ => none
  | .zero _ => some (0, false)
  | .fin neg m e =>
    let r := roundTo mode neg m e 0
    some (if neg then -(r.1 : Int) else r.1, r.2)

/-- A float-to-integer conversion clamped to a range (R48). -/
def fpToIntSat (mode : Nat) (lo hi : Int) (x : Fp) : Int × Nat :=
  match x with
  | .nan => (0, flNV)
  | .inf neg => (if neg then lo else hi, flNV)
  | x =>
    match fpToInt mode x with
    | none => (0, flNV)
    | some (v, inexact) =>
      if v < lo then (lo, flNV) else if v > hi then (hi, flNV) else (v, if inexact then flNX else 0)

/-! ### Special functions (R369 to R372) -/

/-- π/2 with 256 fraction bits. -/
def halfPi : Nat := 0x1921fb54442d18469898cc51701b839a252049c1114cf98e804177d4c76273644
/-- ln 2 with 256 fraction bits. -/
def lnTwo : Nat := 0xb17217f7d1cf79abc9e3b39803f2f6af40f343267298b62d8a0d175b8baafa2b

/-- `m × 2^e` with 256 fraction bits, truncated. -/
def fixed256 (m : Nat) (e : Int) : Nat := (roundTo 1 false m e (-256)).1

/-- The Taylor terms of sine and cosine: `t` is the running term, `x2` the square, both with 256 fraction bits. -/
def trigSeries : Nat → Nat → Nat → Nat → Int → Int
  | 0, _, _, _, acc => acc
  | fuel + 1, n, t, x2, acc =>
    let t' := (t * x2) >>> 256 / (n * (n + 1))
    trigSeries fuel (n + 2) t' x2 (if (n / 2) % 2 == 1 then acc - t' else acc + t')

/-- Sine of a fixed-point angle of magnitude at most π/4. -/
def sinFixed (x : Nat) : Int := trigSeries 40 2 x ((x * x) >>> 256) x
/-- Cosine of a fixed-point angle of magnitude at most π/4: the terms start from one. -/
def cosSeries : Nat → Nat → Nat → Nat → Int → Int
  | 0, _, _, _, acc => acc
  | fuel + 1, n, t, x2, acc =>
    let t' := (t * x2) >>> 256 / (n * (n + 1))
    cosSeries fuel (n + 2) t' x2 (if (n / 2) % 2 == 0 then acc - t' else acc + t')
def cosFixed (x : Nat) : Int := cosSeries 40 1 (2 ^ 256) ((x * x) >>> 256) (2 ^ 256)

/-- The exponential of a fixed-point value in [0, 1). -/
def expSeries : Nat → Nat → Nat → Nat → Nat → Nat
  | 0, _, _, _, acc => acc
  | fuel + 1, n, t, x, acc =>
    let t' := (t * x) >>> 256 / n
    expSeries fuel (n + 1) t' x (acc + t')
def expFixed (x : Nat) : Nat := expSeries 60 1 (2 ^ 256) x (2 ^ 256)

/-- The binary digits of log₂ of a significand in [1, 2), by repeated squaring. -/
def logDigits : Nat → Nat → Nat → Nat
  | 0, _, acc => acc
  | fuel + 1, y, acc =>
    let y2 := (y * y) >>> 256
    if y2 ≥ 2 ^ 257 then logDigits fuel (y2 / 2) (2 * acc + 1) else logDigits fuel y2 (2 * acc)

/-- The integer square root by Newton's digit method. -/
def isqrtBits : Nat → Nat → Nat → Nat
  | 0, _, r => r
  | b + 1, n, r => if (r + 2 ^ b) * (r + 2 ^ b) ≤ n then isqrtBits b n (r + 2 ^ b) else isqrtBits b n r
def isqrt (n : Nat) : Nat := isqrtBits (Nat.log2 n / 2 + 1) n 0

/-- The FP32 data a few steps of magnitude around a datum, never across zero or beyond the largest finite. -/
def neighbours (mag : Nat) : List Nat :=
  [mag, mag + 1, mag + 2, mag - 1, mag - 2].filter (· < 0x7F80_0000)

/-- The magnitude of a datum with 300 fraction bits. -/
def magFixed (mag : Nat) : Nat :=
  match fpDecode fp32 mag with
  | .fin _ m e => (roundTo 1 false m e (-300)).1
  | _ => 0

/-- A result within a bound of `half2 / 2` ulp of the exact magnitude `y` (300 fraction bits), chosen by the free function of R369. -/
def approxMag (fn x z : Nat) (half2 : Nat) (y : Nat) (cap : Nat) : Nat :=
  let c := (fpRound fp32 0 false none false y (-300)).bits
  let l := magLog y (-300)
  let ulp := 2 ^ (((if l < -126 then -126 else l) - 23 + 300).toNat)
  let ok := (neighbours c).filter (fun k =>
    k ≤ cap && decide (2 * (max (magFixed k) y - min (magFixed k) y) ≤ half2 * ulp))
  ok.getD (Config.approxChoice fn x z % ok.length) c

/-- The signed value of a datum with 300 fraction bits. -/
def signedFixed (x : Nat) : Int := if x.testBit 31 then -(magFixed (x % 2 ^ 31) : Int) else magFixed x

/-- FLOG2 of an operand in [0.75, 1.5): any datum within 2^-22 of the exact value, sign included (R372). The free function of R369 names it; a
name outside the bound stands for the value correctly rounded. -/
def logNear (x : Nat) (neg : Bool) (mag : Nat) : Nat :=
  let v : Int := if neg then -(mag : Int) else mag
  let k := Config.approxChoice 0x16C x 0 % 2 ^ 32
  if k % 2 ^ 31 < 0x7F80_0000 ∧ (signedFixed k - v).natAbs ≤ 2 ^ 278 then k
  else fpSign fp32 neg + (fpRound fp32 0 false none false mag (-300)).bits

/-- The quadrant and reduced angle of FRRED with 256 fraction bits: `k mod 4`, the sign of the rest, its magnitude (R370). -/
def reduceAngle (neg : Bool) (m : Nat) (e : Int) : Nat × Bool × Nat :=
  let x := fixed256 m e
  let k := (2 * x + halfPi) / (2 * halfPi)
  let p := k * halfPi
  let q := if neg then (4 - k % 4) % 4 else k % 4
  if x ≥ p then (q, neg, x - p) else (q, !neg, p - x)

/-- |x| < 2^20. -/
def below20 (m : Nat) (e : Int) : Bool := decide (magLog m e < 20)

/-- FRRED (R370): the reduced angle, the quadrant and the flags. -/
def frred (ftz : Bool) (x : Nat) : FRes × Nat :=
  match fpSource fp32 ftz x with
  | .nan | .inf _ => (⟨fpNaN fp32, flNV⟩, 0)
  | .zero neg => (⟨fpSign fp32 neg, 0⟩, 0)
  | .fin neg m e =>
    if !below20 m e then (⟨fpNaN fp32, flNV⟩, 0)
    else if x % 2 ^ 31 ≤ 0x3F49_0FDA then (⟨x, 0⟩, 0)      -- the largest FP32 datum not above π/4
    else
      let r := reduceAngle neg m e
      let d := fpRound fp32 0 ftz none r.2.1 r.2.2 (-256)
      (⟨d.bits, d.flags ||| flNX⟩, r.1)

/-- The value of FSINR (cos false) or FCOSR (cos true) at a quadrant and a non-zero reduced angle (R371): sign, magnitude bits. -/
def sincosAt (fn x z : Nat) (cos : Bool) (q : Nat) (neg : Bool) (r : Nat) (tiny : Bool) (tinyBits : Nat) : Nat :=
  let k := (q + (if cos then 1 else 0)) % 4          -- sine of r + k π/2
  let sgn := if k % 2 == 0 then (neg != (k == 2)) else k == 3
  let mag :=
    if tiny then (if k % 2 == 0 then tinyBits else 0x3F80_0000)
    else
      let y := (if k % 2 == 0 then sinFixed r else cosFixed r).toNat
      approxMag fn x z 3 (y <<< 44) 0x3F80_0000
  (if sgn then 2 ^ 31 else 0) + mag

/-- FSINR and FCOSR (R371). Where the result is ± a subnormal r it is tiny and inexact, so UF is raised beside NX (R42, R369). -/
def fsincos (cos ftz : Bool) (x z : Nat) : FRes :=
  let fn := if cos then 0x16A else 0x169
  let q := z % 4
  match fpSource fp32 ftz x with
  | .nan | .inf _ => ⟨fpNaN fp32, flNV⟩
  | .zero neg =>
    let k := (q + (if cos then 1 else 0)) % 4
    ⟨if k % 2 == 0 then fpSign fp32 (neg != (k == 2)) else fpSign fp32 (k == 3) + 0x3F80_0000, 0⟩
  | .fin neg m e =>
    if !below20 m e then ⟨fpNaN fp32, flNV⟩
    else if x % 2 ^ 31 ≤ 0x3F49_0FDB then
      ⟨sincosAt fn x q cos q neg (fixed256 m e) (decide (magLog m e < -12)) (x % 2 ^ 31),
        if x % 2 ^ 31 < 2 ^ 23 && (q + (if cos then 1 else 0)) % 2 == 0 then flUF ||| flNX else flNX⟩
    else
      let r := reduceAngle neg m e
      ⟨sincosAt fn x q cos ((q + r.1) % 4) r.2.1 r.2.2 false 0, flNX⟩

/-- FEXP2 (R372): an inexact result below 2^-126 is rounded under R39. -/
def fexp2 (ftz : Bool) (x : Nat) : FRes :=
  match fpSource fp32 ftz x with
  | .nan => ⟨fpNaN fp32, flNV⟩
  | .inf true => ⟨0, 0⟩
  | .inf false => ⟨fpInf fp32 false, 0⟩
  | .zero _ => ⟨0x3F80_0000, 0⟩
  | .fin neg m e =>
    if !neg && decide (magLog m e ≥ 7) then ⟨fpInf fp32 false, flOF ||| flNX⟩
    else if neg && decide (magLog m e ≥ 8) then ⟨0, flUF ||| flNX⟩
    else
      let mag := fixed256 m e
      let v : Int := if neg then -(mag : Int) else mag
      let n := v.fdiv (2 ^ 256 : Nat)
      let fr := (v.fmod (2 ^ 256 : Nat)).toNat
      if fr = 0 then fpRound fp32 0 ftz none false 1 n
      else
        let y := expFixed ((fr * lnTwo) >>> 256)
        if n < -126 then fpRound fp32 0 ftz none false y (n - 256)
        else ⟨approxMag 0x16B x 0 2 (roundTo 1 false y (n - 256) (-300)).1 0x7F7F_FFFF, flNX⟩

/-- FLOG2 (R372). -/
def flog2 (ftz : Bool) (x : Nat) : FRes :=
  match fpSource fp32 ftz x with
  | .nan => ⟨fpNaN fp32, flNV⟩
  | .zero _ => ⟨fpInf fp32 true, flDZ⟩
  | .inf true => ⟨fpNaN fp32, flNV⟩
  | .inf false => ⟨fpInf fp32 false, 0⟩
  | .fin true _ _ => ⟨fpNaN fp32, flNV⟩
  | .fin false m e =>
    let n := magLog m e
    if m = 2 ^ Nat.log2 m then
      if n = 0 then ⟨0, 0⟩ else fpRound fp32 0 false none (decide (n < 0)) n.natAbs 0
    else
      let y := m <<< (256 - Nat.log2 m)
      let d := logDigits 200 y 0                        -- 200 fraction bits of log2 of the significand
      let v : Int := n * (2 ^ 200 : Nat) + d
      let mag := v.natAbs <<< 100
      let neg := decide (v < 0)
      -- in [0.75, 1.5) the absolute error is at most 2^-22
      let near := decide (0x3F40_0000 ≤ x ∧ x < 0x3FC0_0000)
      if near then
        let r := logNear x neg mag
        if ftz && decide (0 < r % 2 ^ 31 ∧ r % 2 ^ 31 < 2 ^ 23) then ⟨r / 2 ^ 31 * 2 ^ 31, flUF + flNX⟩ else ⟨r, flNX⟩
      else ⟨fpSign fp32 neg + approxMag 0x16C x 0 2 mag 0x7F7F_FFFF, flNX⟩

/-- FRCP (R372): correctly rounded; the quotient carries a sticky bit. -/
def frcp (ftz : Bool) (x : Nat) : FRes :=
  match fpSource fp32 ftz x with
  | .nan => ⟨fpNaN fp32, flNV⟩
  | .zero neg => ⟨fpInf fp32 neg, flDZ⟩
  | .inf neg => ⟨fpSign fp32 neg, 0⟩
  | .fin neg m e =>
    let q := 2 ^ 80 / m
    let s := if 2 ^ 80 % m = 0 then 0 else 1
    fpRound fp32 0 ftz none neg (2 * q + s) (-81 - e)

/-- FSQRT (R372): correctly rounded, the root carrying a sticky bit. -/
def fsqrt (ftz : Bool) (x : Nat) : FRes :=
  match fpSource fp32 ftz x with
  | .nan => ⟨fpNaN fp32, flNV⟩
  | .zero neg => ⟨fpSign fp32 neg, 0⟩
  | .inf true => ⟨fpNaN fp32, flNV⟩
  | .inf false => ⟨fpInf fp32 false, 0⟩
  | .fin true _ _ => ⟨fpNaN fp32, flNV⟩
  | .fin false m e =>
    let m' := if e % 2 = 0 then m else 2 * m
    let e' := if e % 2 = 0 then e else e - 1
    let n := m' <<< 80
    let r := isqrt n
    let s := if r * r = n then 0 else 1
    fpRound fp32 0 ftz none false (2 * r + s) (e' / 2 - 41)

/-- FRSQ (R372). -/
def frsq (ftz : Bool) (x : Nat) : FRes :=
  match fpSource fp32 ftz x with
  | .nan => ⟨fpNaN fp32, flNV⟩
  | .zero neg => ⟨fpInf fp32 neg, flDZ⟩
  | .inf true => ⟨fpNaN fp32, flNV⟩
  | .inf false => ⟨0, 0⟩
  | .fin true _ _ => ⟨fpNaN fp32, flNV⟩
  | .fin false m e =>
    let l := magLog m e
    if m = 2 ^ Nat.log2 m ∧ l % 2 = 0 then fpRound fp32 0 false none false 1 (-(l / 2))
    else
      let m' := if e % 2 = 0 then m else 2 * m
      let e' := if e % 2 = 0 then e else e - 1
      -- 1 / √(m' 2^e') with 300 fraction bits: √(2^(600 - e') / m')
      let y := isqrt (2 ^ (600 - e').toNat / m')
      ⟨approxMag 0x16E x 0 2 y 0x7F7F_FFFF, flNX⟩

/-- The single-precision sum of REDW, COLL and ATOM.FADD: RNE, subnormals kept, no flag (R37, R384). -/
def faddPlain (a b : Nat) : Nat := (fpAddBits fp32 0 false a b).bits

end Sys2Proof.Machine
end

