-- ==== Sys2Proof/Machine/Pending.lean ====
section
/-!
DEFINITION. What a group has pending: results of variable latency (05_encoding.md R121), loads that become final (04_ordering.md R102), the
store queue and its faults (R99 to R106, 16_access.md R391), map fills (03_memory.md R73), switch markers (R121, 10_group.md R265) and the
report points of imprecise traps (R101, 18_engines.md R437, 19_system.md R449).
-/

namespace Sys2Proof.Machine

/-! ### Results -/

/-- The bytes of a load as register values: each register with its value (R379). -/
def loadRegs (p : Pend) (bs : List Byte) : List (Nat × Word) :=
  let v := leNat bs
  if p.size ≤ 4 then
    [(p.d, if p.signed then BitVec.ofInt 32 (sextNat v (8 * p.size)) else BitVec.ofNat 32 v)]
  else (upto (p.size / 4)).map (fun i => (p.d + i, BitVec.ofNat 32 (v / 2 ^ (32 * i))))

/-- Writes a result to a lane's registers but for those a younger write has cancelled (R265). -/
def writeResult (s : State) (b j : Nat) (p : Pend) (lane : Nat) (bs : List Byte) : State :=
  if p.kind = .completion ∨ p.kind = .twait then s else
  s.updThr b j lane (fun t => (loadRegs p bs).foldl (fun t r => if p.cancel.contains r.1 then t else t.ww r.1 r.2) t)

/-- Changes one access of a pending result. -/
def updAcc (s : State) (b j id lane : Nat) (f : Acc → Acc) : State :=
  s.updGrp b j (fun g => { g with pend := g.pend.map (fun p =>
    if p.id = id then { p with accs := p.accs.map (fun a => if a.lane = lane then f a else a) } else p) })

/-- Removes results that have wholly returned; a load must also be final. -/
def dropDone (s : State) (b j : Nat) : State :=
  s.updGrp b j (fun g => { g with pend := g.pend.filter (fun p =>
    !(p.accs.all (fun a => decide (a.st = 1) && (decide (p.kind ≠ .load) || a.cap)) && (decide (p.kind ≠ .completion) || p.accs ≠ []))) })

/-- Whether an older entry of the store queue still keeps a load from being final (R102, R391). -/
def loadBlocked (g : Group) (p : Pend) : Bool :=
  g.sq.any (fun e => precedes e.seq e.after p.seq p.after) || g.aside.any (fun e => seqBefore e.seq e.after p.seq && decide (p.seq < g.hseq))

/-- Posts a map fill once; it takes the latency of a global load (R73). -/
def postFill (s : State) (b e i : Nat) : State :=
  let a : Arg := { x := b, y := e, z := i }
  if s.posted .mapFillComplete a then s
  else (s.tick).post (s.gts + 225 + Config.extraLatency s.freeCtr) (s.blkCore b) .mapFillComplete a

/-- A page request with SOFT = 1 for a line lost to a soft error (21 R487). -/
def softRequest (s : State) (b addr acc : Nat) : State :=
  s.post s.gts (s.blkCore b) .pageRequest { x := (s.blk b).ctx, y := vaOf addr, z := acc, u := 1 }

/-- Whether a load of a block's thread is one of device control space. -/
def inControl (s : State) (b addr : Nat) : Bool :=
  match translate s (s.blk b).ctx (vaOf addr) aLOAD (s.blk b).priv with
  | .ok dev pa _ => decide (dev = s.devNo) && pa.testBit 39
  | _ => false

/-- Whether an access is the first of its issue to its 128-byte line: the others are carried with it (16 R380). -/
def firstOnLine (as : List Acc) (a : Acc) : Bool :=
  match as.find? (fun x => x.addr / 128 == a.addr / 128) with
  | some x => x.lane == a.lane
  | none => true

/-- The use of the caches that a load makes where it is performed: once, and again where its value has changed (R102). -/
def loadUse (s : State) (b : Nat) (p : Pend) (a : Acc) : Option CacheUse :=
  if a.st = 1 then
    match laneRead s b a.sp a.addr p.size aLOAD none with
    | .val bs _ => if bs = a.val then none else some .load
    | _ => none
  else if firstOnLine p.accs a then some .load else none

/-- Whether the accesses of a load in the lanes below one have been performed, have faulted or are on their way to a peer home (16 R380). -/
def lanesBefore (s : State) (b j id lane : Nat) : Bool :=
  ((s.grp b j).pend.filter (fun p => p.id == id)).all (fun p => (p.accs.takeWhile (fun a => a.lane != lane)).all (fun a => a.cap || a.st == 2 || a.st == 3))

/-- Performs one access of a load at its place in the order (R102), behind those of the lanes below it (16 R380); a fill or a wait that it needs
begins at once (03 R73). -/
def captureLane (s : State) (b j : Nat) (p : Pend) (a : Acc) : State :=
  if a.cap ∨ a.st = 2 ∨ a.st = 3 then s
  -- 03 R67: the thread's earlier writes of control space come first
  else if a.sp = 0 && ctrlPending s (s.blkCore b) && inControl s b a.addr then
    s.postOnce s.gts (s.blkCore b) .loadResultReturn { x := b, y := j, z := p.id, u := a.lane }
  else match laneRead s b a.sp a.addr p.size aLOAD (loadUse s b p a) with
    | .val bs s' =>
      if !lanesBefore s b j p.id a.lane then s else
      let s' := if a.st = 0 then s' else writeResult s' b j p a.lane bs
      let s' := if a.st = 1 ∧ a.val ≠ bs then countEvent s' (s.blk b).ctx 0x41 1 else s'
      updAcc s' b j p.id a.lane (fun a => { a with cap := true, val := bs, st := if a.st = 0 then 0 else 1 })
    | .fill e i => postFill s b e i
    | .wait _ stage _ need =>
      waitOn s (s.blk b).ctx (vaOf a.addr) aLOAD stage need (s.blkCore b) (.loadResultReturn, { x := b, y := j, z := p.id, u := a.lane })
    | .fail syn det =>
      let s := if det = 0x1F then softRequest s b a.addr aLOAD else s
      updAcc s b j p.id a.lane (fun a => { a with st := 2, syn := syn, det := if det = 0x1F then 0 else det })
    | .peer dev pa =>
      if !lanesBefore s b j p.id a.lane then s else
      let s := tlbKeep s (translate s (s.blk b).ctx (vaOf a.addr) aLOAD (s.blk b).priv)
      let s := updAcc s b j p.id a.lane (fun a => { a with st := 3 })
      peerSend s dev pa 0 p.size [] b j p.id a.lane

/-- The first load whose place in the order is not fixed, but for those that wait for a handler to return. -/
def nextLoad (g : Group) : Option Pend :=
  g.pend.find? (fun p => decide (p.kind = .load) && p.accs.any (fun a => !a.cap) && !loadStuck g p)

/-- Whether the lanes of the same issue in a lower member group still have to load: the accesses of one issue are performed in ascending member
lane (16 R380). One that has faulted is not waited for. -/
def mateLoads (k : Block) (j : Nat) (p : Pend) : Bool :=
  p.iss != 0 && k.groups.any (fun e => decide (e.1 < j) &&
    e.2.pend.any (fun q => q.iss == p.iss && !loadStuck e.2 q && q.accs.any (fun a => !a.cap && a.st != 3)))

/-- Loads become final in their order while nothing older stands before them (R102). -/
def settleN : Nat → State → Nat → Nat → State
  | 0, s, _, _ => s
  | fuel + 1, s, b, j =>
    match nextLoad (s.grp b j) with
    | none => s
    | some p =>
      if loadBlocked (s.grp b j) p || mateLoads (s.blk b) j p then s
      else
        let s := s.foldl p.accs (fun t a => captureLane t b j p a)
        match (s.grp b j).pend.find? (fun q => q.id = p.id) with
        | some q => if q.accs.any (fun a => !a.cap) then s else settleN fuel s b j
        | none => s

/-- Asks for the head of a group's store queue to be performed. -/
def pokeQueue (s : State) (b j : Nat) : State :=
  if (s.grp b j).sq.isEmpty then s else s.postOnce (s.gts + 1) (s.blkCore b) .storeQueuePerform { x := b, y := j }

/-- Settles one group's loads and asks what depends on them. -/
def settleOne (s : State) (b j : Nat) : State :=
  pokeMarker (pokeQueue (dropDone (settleN 16 s b j) b j) b j) b j

/-- Settles a group's loads, and then those of the groups above it that share an issue with others. -/
def settle (s : State) (b j : Nat) : State :=
  let s := settleOne s b j
  s.foldl ((s.blk b).groupIds.filter (fun i => decide (j < i) && (s.grp b i).pend.any (fun p => p.iss != 0))) (fun t i => settleOne t b i)

/-- The return of one lane's result (R381): the event LOAD_RESULT_RETURN. -/
def returnLane (s : State) (b j id lane : Nat) : State :=
  if (s.blk b).core.isNone then s else
  match (s.grp b j).pend.find? (fun p => p.id = id) with
  | none => s
  | some p =>
    match p.accs.find? (fun a => a.lane = lane) with
    | none => s
    | some a =>
      let s :=
        if a.st = 2 ∨ a.st = 3 ∨ a.st = 1 then s
        else if a.cap ∨ p.kind ≠ .load then
          updAcc (writeResult s b j p lane a.val) b j id lane (fun a => { a with st := 1 })
        else if a.sp = 0 then
          -- R102: a load may return before it is final; an access that may be performed only once waits
          match laneProbe s b 0 a.addr p.size aLOAD, translate s (s.blk b).ctx (vaOf a.addr) aLOAD (s.blk b).priv with
          | .val _ _, .ok _ pa _ =>
            if pa.testBit 39 then updAcc s b j id lane (fun a => { a with st := 5 })
            else
              match globalRead s b a.addr p.size aLOAD (loadUse s b p a) with
              | .val bs t => updAcc (writeResult t b j p lane bs) b j id lane (fun a => { a with st := 1, val := bs })
              | _ => updAcc s b j id lane (fun a => { a with st := 5 })
          | _, _ => updAcc s b j id lane (fun a => { a with st := 5 })
        else
          match laneRead s b a.sp a.addr p.size aLOAD none with
          | .val bs t => updAcc (writeResult t b j p lane bs) b j id lane (fun a => { a with st := 1, val := bs })
          | _ => updAcc s b j id lane (fun a => { a with st := 5 })
      settle s b j

/-- Enters a pending result and posts its returns. -/
def addPend (s : State) (b j : Nat) (p : Pend) (lat : Nat) : State :=
  let s := s.updGrp b j (fun g => { g with pend := g.pend ++ [p] })
  if p.kind = .atom then s else
  s.foldl p.accs (fun t a =>
    (t.tick).post (t.gts + lat + Config.extraLatency t.freeCtr) (t.blkCore b) .loadResultReturn { x := b, y := j, z := p.id, u := a.lane })

/-- A fresh identity. -/
def State.fresh (s : State) : Nat × State := (s.nextId, { s with nextId := s.nextId + 1 })

/-- Takes the next place in a group's issue order. -/
def takeSeq (s : State) (b j : Nat) : Nat × State :=
  ((s.grp b j).nextSeq, s.updGrp b j (fun g => { g with nextSeq := g.nextSeq + 1 }))

/-- Entries of the operand log in use (R100). -/
def logUsed (g : Group) : Nat := (g.pend.filter (fun p => p.logged)).length

/-! ### Atomics (16 R384) -/

/-- Size of an atomic in bytes. -/
def atomSize (op : Nat) : Nat := if op = 13 then 8 else 4

/-- The value an atomic writes, or none. -/
def atomNew (op : Nat) (old lo hi : Nat) : Option Nat :=
  let w (n : Nat) : Word := BitVec.ofNat 32 n
  match op with
  | 0 => some ((old + lo) % 2 ^ 32)
  | 1 => some (if (w old).toInt ≤ (w lo).toInt then old else lo % 2 ^ 32)
  | 2 => some (if (w old).toInt ≥ (w lo).toInt then old else lo % 2 ^ 32)
  | 3 => some (min old (lo % 2 ^ 32))
  | 4 => some (max old (lo % 2 ^ 32))
  | 5 => some ((w old &&& w lo).toNat)
  | 6 => some ((w old ||| w lo).toNat)
  | 7 => some ((w old ^^^ w lo).toNat)
  | 8 => some (lo % 2 ^ 32)
  | 9 => if old = lo % 2 ^ 32 then some (hi % 2 ^ 32) else none
  | 10 => none
  | 11 => some (lo % 2 ^ 32)
  | 12 => some (faddPlain old (lo % 2 ^ 32))
  | 13 => some ((old + lo) % 2 ^ 64)
  -- SIGNAL MAX at a peer home (08 R211)
  | 14 => some (max old (lo % 2 ^ 64))
  | _ => none

/-! ### The store queue -/

/-- Changes the head entry of a store queue. -/
def updHead (s : State) (b j : Nat) (f : SqEntry → SqEntry) : State :=
  s.updGrp b j (fun g => match g.sq with
    | e :: q => { g with sq := f e :: q }
    | [] => g)

/-- A group whose threads have all exited is gone once its queue is empty (R104, 10 R250). -/
def endIfEmpty (s : State) (b j : Nat) : State :=
  let g := s.grp b j
  if !g.done && g.alive.isEmpty && g.sq.isEmpty && g.aside.isEmpty then groupGone s b j else s

/-- Asks for the queues of the other member groups that hold entries of issues at wider scope (16 R380). -/
def pokeMates (s : State) (b j : Nat) : State :=
  s.foldl ((s.blk b).groupIds.filter (fun i => decide (j < i) && (s.grp b i).sq.any (fun e => e.iss != 0))) (fun t i => pokeQueue t b i)

/-- The head entry leaves the queue. -/
def popHead (s : State) (b j : Nat) : State :=
  let s := s.updGrp b j (fun g => { g with sq := g.sq.drop 1 })
  endIfEmpty (pokeMates (settle s b j) b j) b j

/-- The access kind of an entry (R303). -/
def SqKind.acc : SqKind → Nat
  | .store => 1
  | .atom _ _ => 2
  | .swb _ _ _ => 5
  | .sunmap _ => 5

/-- An entry that faults in some lanes is its own record (R101). -/
def SqEntry.faulted (e : SqEntry) (fs : List (Nat × Nat × Nat)) : SqEntry :=
  let det := (fs.head?.map (fun f => f.2.2)).getD 0
  let cause := if det = 0x0B ∨ det = 0x0D then det else match e.kind with | .atom _ _ => 0x09 | _ => 0x0A
  { e with fault := some cause, sent := false
           accs := e.accs.map (fun a => match fs.find? (fun f => f.1 = a.lane) with
             | some f => { a with st := 2, syn := f.2.1, det := f.2.2 }
             | none => a) }

/-- The head entry faults. -/
def faultHead (s : State) (b j : Nat) (fs : List (Nat × Nat × Nat)) : State := pokeMates (updHead s b j (fun e => e.faulted fs)) b j

/-- The head entry faults because the fill of a line it touches has faulted: as a global load of that line would (03 R76). -/
def faultFill (s : State) (b j : Nat) (fs : List (Nat × Nat × Nat)) : State :=
  pokeMates (updHead s b j (fun e => let e := e.faulted fs; { e with fault := if e.fault = some 0x0A then some 0x09 else e.fault })) b j

/-- Changes the entry of an identity, in the queue or set aside. -/
def updEntry (s : State) (b j id : Nat) (f : SqEntry → SqEntry) : State :=
  s.updGrp b j (fun g => { g with sq := g.sq.map (fun e => if e.id = id then f e else e), aside := g.aside.map (fun e => if e.id = id then f e else e) })

/-- The lanes of a store whose page is NONRESIDENT: its writes land in the gutter (12 R298, R301). -/
def landingLanes (s : State) (b : Nat) (e : SqEntry) : List Acc :=
  if e.kind ≠ .store then [] else
  e.accs.filter (fun a => decide (a.st ≠ 1 ∧ a.sp = 0) &&
    (match translate s (s.blk b).ctx (vaOf a.addr) aSTORE (s.blk b).priv with | .wait st _ _ _ => st == 1 | _ => false))

/-- The lines that accesses of one store write, with the first address in each, its bytes and its mask; of two lanes that write one byte the higher
prevails (16 R380). -/
def landingLines (size : Nat) (as : List Acc) : List (Nat × Nat × List Byte × Nat) :=
  (as.map (fun a => vaOf a.addr / 128)).eraseDups.map (fun line =>
    let mine := as.filter (fun a => vaOf a.addr / 128 == line)
    let put (bs : List Byte) (a : Acc) : List Byte :=
      let i := vaOf a.addr % 128
      bs.take i ++ natLe size (a.lo.toNat + a.hi.toNat * 2 ^ 64) ++ bs.drop (i + size)
    ((mine.head?.map (fun a => vaOf a.addr)).getD (line * 128), line * 128, mine.foldl put (List.replicate 128 0),
      mine.foldl (fun m a => m ||| byteMask (vaOf a.addr % 128) size) 0))

/-- Whether the gutter lacks the slots that a store needs: one for each line (12 R301). -/
def gutterLacks (s : State) (b : Nat) (e : SqEntry) : Bool :=
  let ls := landingLines e.size (landingLanes s b e)
  !ls.isEmpty && decide (1048576 < s.page.slots.length + ls.length)

/-- Lands the lines of a store in the gutter. -/
def landStore (s : State) (b : Nat) (e : SqEntry) : State :=
  s.foldl (landingLines e.size (landingLanes s b e)) (fun t l =>
    (landLines t (t.blk b).ctx l.1 aSTORE (t.blk b).priv (t.blkCore b) [l.2]).getD t)

/-- Performs the accesses of a store or an atomic that are left to this device, in lane order (R380, R385). An update of an atomic is never lost,
not even to an atomic outside its memory scope, which the manual allows (R96, log 85). -/
def performLanes (s : State) (b j : Nat) (e : SqEntry) : State :=
  let landed := (landingLanes s b e).map Acc.lane
  (landStore s b e).foldl e.accs (fun t a =>
    if a.st = 1 ∨ landed.contains a.lane then t
    else match e.kind with
      | .store =>
        let bs := natLe e.size (a.lo.toNat + a.hi.toNat * 2 ^ 64)
        match laneWrite t b a.sp a.addr bs aSTORE (if firstOnLine e.accs a then some .store else none) with
        | .done t' => t'
        | _ => t
      | .atom op ms =>
        match laneRead t b a.sp a.addr e.size aATOM (if firstOnLine e.accs a then some (if ms ≤ 1 then .near else .far) else none) with
        | .val bs t' =>
          let t' := updAcc t' b j e.id a.lane (fun x => { x with val := bs, cap := true })
          match atomNew op (leNat bs) a.lo.toNat a.hi.toNat with
          | some v =>
            (match laneWrite t' b a.sp a.addr (natLe e.size v) aATOM none with
              | .done t'' => t''
              | _ => t')
          | none => t'
        | _ => t
      | _ => t)

/-- The returns of an atomic that has been performed. -/
def atomReturns (s : State) (b j : Nat) (e : SqEntry) : State :=
  s.foldl e.accs (fun t a =>
    (t.tick).post (t.gts + 4 + Config.extraLatency t.freeCtr) (t.blkCore b) .loadResultReturn { x := b, y := j, z := e.id, u := a.lane })

/-- Performs the lanes of the head entry and lets it leave. -/
def finishHead (s : State) (b j : Nat) (e : SqEntry) : State :=
  let s := performLanes s b j e
  let s := match e.kind with | .atom _ _ => atomReturns s b j e | _ => s
  popHead s b j

/-- Whether a release atomic must still wait for the engine operations that its threads have issued before it (R113). -/
def releaseWaits (g : Group) (e : SqEntry) : Bool :=
  match e.kind with
  | .atom op _ => decide (2 ≤ e.mo) && decide (op ≠ 10) && e.accs.any (fun a => (g.th a.lane).engOps.any (fun n => decide (n < e.id)))
  | _ => false

/-- Whether the accesses of the same issue in a lower member group still have to be performed (16 R380); one that has faulted, or stands behind a
fault, is not waited for. -/
def mateStores (k : Block) (j : Nat) (e : SqEntry) : Bool :=
  e.iss != 0 && k.groups.any (fun x => decide (x.1 < j) && x.2.runnable.any (fun q => q.iss == e.iss))

/-- Whether an older load still has to be performed, a faulted one included (R94); those that RETT replays stand behind the accesses of the
handler that they caused (R391). -/
def olderLoad (g : Group) (e : SqEntry) : Bool :=
  g.pend.any (fun p => decide (p.kind = .load) && precedes p.seq p.after e.seq e.after && p.accs.any (fun a => !a.cap) &&
    !(g.faultHandler && decide (p.seq < g.hseq ∧ g.hseq ≤ e.seq) && loadStuck g p))

/-- Sends the peer accesses of the head entry (R318). -/
def sendPeers (s : State) (b j : Nat) (e : SqEntry) (ps : List (Acc × Nat × Nat)) : State :=
  let s := s.foldl ps (fun t p =>
    let kind := match e.kind with | .atom op _ => 2 + op | _ => 1
    let t := tlbKeep t (translate t (t.blk b).ctx (vaOf p.1.addr) e.kind.acc (t.blk b).priv)
    peerSend t p.2.1 p.2.2 kind e.size (natLe 16 (p.1.lo.toNat + p.1.hi.toNat * 2 ^ 64)) b j e.id p.1.lane)
  updHead s b j (fun e => { e with sent := true, accs := e.accs.map (fun a => if ps.any (fun p => p.1.lane = a.lane) then { a with st := 3 } else a) })

/-- Performs a write-back entry (R75, R76, R390). -/
def performMapEntry (s : State) (b j : Nat) (m : Nat) (lines : List (Nat × Nat)) (unmap : Bool) : State :=
  -- 12 R303, 16 R390: the record names the line that faulted, as a write-back
  let at_ (e : SqEntry) (va syn det : Nat) : SqEntry :=
    let syn := if syn = 0 then syndrome aWB 0 0 0 else syn
    SqEntry.faulted { e with accs := e.accs.map (fun a => { a with addr := va }) } (e.accs.map (fun a => (a.lane, syn, det)))
  match writeBackLines s b lines with
  | .done t => popHead (if unmap then t.updBlk b (fun k => k.updMap m (fun x => { x with v := false })) else t) b j
  | .wait va stage need => waitOn s (s.blk b).ctx va aWB stage need (s.blkCore b) (.storeQueuePerform, { x := b, y := j })
  | .fail va syn det => pokeMarker (pokeMates (updHead s b j (fun e => at_ e va syn det)) b j) b j

/-- STORE_QUEUE_PERFORM: the head entry is translated and performed, waits or faults (R99, R101, R298). A group's accesses are performed in one
order whatever their homes, which R95 does not ask of one thread's accesses to different homes (log 84). -/
def performHead (s : State) (b j : Nat) : State :=
  let k := s.blk b
  let g := k.grp j
  if k.core.isNone then s else
  match g.sq with
  | [] => s
  | e :: _ =>
    if e.fault.isSome || e.sent || olderLoad g e || releaseWaits g e || mateStores k j e then s
    else match e.kind with
      | .swb m first nm1 =>
        if !(k.map m).v || (k.map m).ro then popHead s b j
        else performMapEntry s b j m ((dirtyLines k).filter (fun l => decide (l.1 = m ∧ first ≤ l.2 ∧ l.2 ≤ first + nm1))) false
      | .sunmap m =>
        if !(k.map m).v then popHead s b j
        else performMapEntry s b j m ((dirtyLines k).filter (fun l => l.1 = m)) true
      | _ =>
        let acc := e.kind.acc
        let held := if gutterLacks s b e then (landingLanes s b e).map Acc.lane else []
        let probe (a : Acc) : LRes :=
          match if held.contains a.lane then translate s k.ctx (vaOf a.addr) acc k.priv else .fault 0 0 0 with
          | .wait st stage lvl need => .wait st stage lvl need
          | _ => laneProbe s b a.sp a.addr e.size acc
        let rs := (e.accs.filter (fun a => decide (a.st ≠ 1))).map (fun a => (a, probe a))
        let fails := rs.filterMap (fun r => match r.2 with | .fail syn det => some (r.1.lane, syn, det) | _ => none)
        let fills := rs.filterMap (fun r => match r.2 with | .fill m i => some (m, i) | _ => none)
        let waits := rs.filterMap (fun r => match r.2 with | .wait _ stage _ need => some (r.1.addr, stage, need) | _ => none)
        let peers := rs.filterMap (fun r => match r.2 with | .peer dev pa => some (r.1, dev, pa) | _ => none)
        if !fails.isEmpty then
          let s := s.foldl fails (fun t f => if f.2.2 = 0x1F then softRequest t b ((e.accs.find? (fun a => a.lane = f.1)).map Acc.addr |>.getD 0) acc else t)
          pokeMarker (faultHead s b j (fails.map (fun f => (f.1, f.2.1, if f.2.2 = 0x1F then 0 else f.2.2)))) b j
        else if !fills.isEmpty then s.foldl fills (fun t f => postFill t b f.1 f.2)
        else if !waits.isEmpty then
          s.foldl waits (fun t w => waitOn t k.ctx (vaOf w.1) acc w.2.1 w.2.2 (s.blkCore b) (.storeQueuePerform, { x := b, y := j }))
        else if !peers.isEmpty then sendPeers s b j e peers
        else finishHead s b j e

/-- The answer of a peer home (13 R318): an entry all of whose peer lanes have been performed is performed here too; one that is refused faults. -/
def peerAnswer (s : State) (r : PeerReq) (refused : Bool) (data : List Byte) : State :=
  match r.waiter with
  | some id => answerWaiter s id refused data
  | none =>
  let g := s.grp r.blk r.j
  if (g.sq ++ g.aside).any (fun e => decide (e.id = r.id)) then
    if refused then pokeMarker (updEntry s r.blk r.j r.id (fun e => e.faulted [(r.lane, 0, 0x0D)])) r.blk r.j
    else
      let s := updAcc s r.blk r.j r.id r.lane (fun a => { a with val := data, cap := true })
      let s := updEntry s r.blk r.j r.id (fun e =>
        let as := e.accs.map (fun a => if a.lane = r.lane then { a with st := 1 } else a)
        { e with accs := as, sent := as.any (fun a => decide (a.st = 3)) })
      match (s.grp r.blk r.j).sq with
      | e :: _ => if e.id = r.id then performHead s r.blk r.j else s
      | [] => s
  else
    match g.pend.find? (fun p => p.id = r.id) with
    | none => s
    | some p =>
      let s :=
        if refused then updAcc s r.blk r.j r.id r.lane (fun a => { a with st := 2, syn := 0, det := 0x0D })
        else updAcc (writeResult s r.blk r.j p r.lane data) r.blk r.j r.id r.lane (fun a => { a with st := 1, cap := true, val := data })
      settle s r.blk r.j

/-- MAP_FILL_COMPLETE: the fill arrives and the accesses that wait for the line are performed (R73, R76). -/
def fillComplete (s : State) (b e i : Nat) : State :=
  let k := s.blk b
  if k.core.isNone || !(k.map e).v then s
  -- an engine may have filled the line meanwhile: the accesses that waited are performed all the same
  else match if (k.map e).valid.contains i then .done s else fillLine s b e i with
    | .done t =>
      let t := t.foldl k.groupIds (fun t j => performHead (settle t b j) b j)
      t.updBlk b (fun k => k.updMap e (fun m =>
        if m.inval.contains i then { m with inval := m.inval.filter (· ≠ i), valid := m.valid.filter (· ≠ i), dirty := tdel m.dirty i } else m))
    | .wait va stage need =>
      waitOn s k.ctx va aFILL stage need (s.blkCore b) (.mapFillComplete, { x := b, y := e, z := i })
    | .fail _ syn det =>
      let line := (k.map e).sline + i
      s.foldl k.groupIds (fun t j =>
        let g := t.grp b j
        let t := t.updGrp b j (fun g => { g with pend := g.pend.map (fun p =>
          if p.kind = .load then
            { p with accs := p.accs.map (fun a => if !a.cap && decide (a.sp = 1 ∧ a.addr / 128 = line) then { a with st := 2, syn := syn, det := det } else a) }
          else p) })
        let t := match g.sq with
          | q :: _ =>
            let fs := (q.accs.filter (fun a => decide (a.sp = 1 ∧ a.addr / 128 = line))).map (fun a => (a.lane, syn, det))
            if q.fault.isNone ∧ !fs.isEmpty then faultFill t b j fs else t
          | [] => t
        pokeMarker t b j)

/-! ### Report points (R101, R437, R448, R449) -/

/-- The oldest store-fault record, in the queue or set aside (R391, R393). -/
def headRecord (g : Group) : Option SqEntry := (g.aside ++ g.sq).find? (fun e => e.fault.isSome)

def records (g : Group) : Nat := ((g.aside ++ g.sq).filter (fun e => e.fault.isSome)).length

/-- Whether an entry of the store queue stands behind a load that has faulted (log 71). -/
def storeBehindLoad (g : Group) : Bool := g.sq.any (fun e => e.fault.isNone && afterFaulted g e.seq)

/-- The fault of the store queue or of the log that is due; a faulted load is reported where a store stands behind it, too (R101, log 71). -/
def dueFault (g : Group) (loads : Bool) : Option Due :=
  let fl := if loads || storeBehindLoad g then faultedLoads g else []
  let n := records g
  let rec_ := (g.sq.find? (fun e => e.fault.isSome))
  let ofRec (e : SqEntry) : Due :=
    match e.kind with
    | .atom _ _ => { cause := cLFAULT, arg := fl.length + n, accs := e.accs, recq := true }
    | _ => if e.fault = some 0x09 then { cause := cLFAULT, arg := fl.length + n, accs := e.accs, recq := true }
      else { cause := cSFAULT, arg := n, accs := e.accs, recq := true }
  match fl.head?, rec_ with
  | some p, some e => if e.seq < p.seq then some (ofRec e) else
      some { cause := cLFAULT, det := ((p.accs.find? (fun a => a.st = 2)).map Acc.det).getD 0, arg := fl.length + n, accs := p.accs }
  | some p, none =>
      some { cause := cLFAULT, det := ((p.accs.find? (fun a => a.st = 2)).map Acc.det).getD 0, arg := fl.length + n, accs := p.accs }
  | none, some e => some (ofRec e)
  | none, none => none

/-- Which causes a report point admits. -/
structure Point where
  soft : Bool := false
  cancel : Bool := false
  loads : Bool := false
  stores : Bool := false
  engine : Bool := false
  lapse : Bool := false
  /-- Only the records of the engine error queue are looked at: a tile failure waits for the marker or DRAINST (17 R415). -/
  records : Bool := false

def Point.marker : Point := { soft := true, cancel := true, loads := true, stores := true, engine := true, lapse := true }
def Point.drainst : Point := { soft := true, cancel := true, stores := true, engine := true }
def Point.dfence : Point := { stores := true }
/-- An arrival counts as a store, so a faulted load stands before it as well (04 R116, log 71). -/
def Point.arrival : Point := { loads := true, stores := true }
def Point.cwait : Point := { soft := true, engine := true, records := true }

/-- The SOFTERR that is due. -/
def dueSoft (g : Group) : Option Due :=
  match g.softErr with
  | some (det, arg) => some { cause := cSOFTERR, det := det, arg := arg }
  | none => match g.engErr with
    | r :: _ => if r.w0.toNat % 256 = 8 then
        some { cause := cSOFTERR, det := 3, arg := g.engErr.length, addr := r.w2.toNat, syn := r.w1.toNat } else none
    | [] => none

/-- The ENGINE trap that is due: an engine record (R436, R437) or a tile failure (17 R415). -/
def dueEngine (g : Group) : Option Due :=
  match g.engErr with
  | r :: _ => some { cause := cENGINE, det := 0x200 + r.w0.toNat % 256, arg := g.engErr.length, addr := r.w2.toNat }
  | [] => match g.tileErr with
    | some (code, ticket) => some { cause := cENGINE, det := 0x100 + code, arg := ticket }
    | none => none

/-- The trap taken at a report point, in the order of R449; in a handler only CANCEL is taken, the others stay due. -/
def dueAt (b : Block) (g : Group) (p : Point) : Option Due :=
  let g := if p.records then { g with softErr := none, tileErr := none } else g
  let cancel : Option Due := if p.cancel && b.marked && !g.cancelled then some { cause := cCANCEL } else none
  if g.hm then cancel
  else
    let pick (c : Bool) (d : Option Due) (r : Option Due) : Option Due := if c then (match d with | some x => some x | none => r) else r
    pick p.soft (dueSoft g) (pick p.cancel cancel (pick (p.stores || p.loads) (dueFault g p.loads)
      (pick p.engine (dueEngine g) (if p.lapse then g.lapse.head?.map (fun a => { cause := cLAPSE, arg := a }) else none))))

/-! ### Switch markers (R121, R265) -/

/-- Whether a pending result cannot come before the running handler returns: a load that waits for it, or an atomic whose entry does. -/
def pendStuck (g : Group) (p : Pend) : Bool :=
  match p.kind with
  | .load => loadStuck g p
  | .atom => (g.aside ++ g.sq.dropWhile (fun e => !entryStuck g e)).any (fun e => decide (e.id = p.id))
  | _ => false

/-- Whether nothing the marker waits for is outstanding; in a handler it does not wait for what RETT retries (log 33). -/
def markerClear (g : Group) : Bool := g.pend.all (fun p => g.hm && pendStuck g p)

/-- Whether a faulted load is ready to be reported: everything older in the queue is settled (R265: after R101 and R103). -/
def loadFaultReady (g : Group) : Bool :=
  match faultedLoads g with
  | p :: _ => !loadBlocked g p
  | [] => false

/-- Whether a faulted load belongs to the running handler: a double trap (R449). -/
def handlerLoadFault (g : Group) : Bool := g.hm && (faultedLoads g).any (fun p => decide (g.hseq ≤ p.seq))

/-- SWITCH_MARKER_COMPLETE: a marker is tried; it reports a fault, completes, or stays pending. -/
def tryMarker (s : State) (b j : Nat) : State :=
  let k := s.blk b
  let g := k.grp j
  match g.marker with
  | none => s
  | some m =>
    if k.core.isNone ∨ k.stopped ∨ g.wait ≠ .none ∨ g.trap.isSome ∨ g.dbgStop ∨ g.done then s
    else if handlerLoadFault g then
      raiseGroup s b j { cause := cLFAULT, prec := false, sc := m.sc, det := 0, arg := 0, repi := 0, lanes := m.lanes.map (fun l => (l, 0, 0, 0, 0)) }
    else if !g.hm && (loadFaultReady g || (records g ≠ 0)) then
      match dueAt k g (if loadFaultReady g then Point.marker else { Point.marker with loads := false }) with
      | some d =>
        let s := s.updGrp b j (fun g => { g with tmark := if (d.cause = cLFAULT ∨ d.cause = cSFAULT) ∧ m.kind = .switch then some m else none })
        takeDue s b j d m.pc.toNat m.sc m.lanes (m.kind = .exit)
      | none => s
    else if markerClear g && (!m.drain || g.runnable.isEmpty) then
      match dueAt k g Point.marker with
      | some d =>
        let s := s.updGrp b j (fun g => { g with marker := none, tmark := none })
        takeDue s b j d m.pc.toNat m.sc m.lanes (m.kind = .exit)
      | none =>
        let s := s.updGrp b j (fun g => { g with marker := none, notBefore := max g.notBefore s.gts })
        -- 11 R280: MASK of threads that arrived by BARV in a generation that failed; in a handler a double trap (19 R449)
        match (m.lanes.flatMap (fun l => (g.th l).maskDue)).head? with
        | some n => takeDue s b j { cause := cMASK, det := n } m.pc.toNat m.sc m.lanes (m.kind = .exit)
        | none => exitGroup (if m.rel then returnGranule s b j else s) b m.sc j m.ends
    else s

/-- Places a marker on a group. -/
def setMarker (s : State) (b j : Nat) (m : Marker) : State :=
  pokeMarker (s.updGrp b j (fun g => g.mark m)) b j

/-! ### Return of faulted and set-aside accesses at RETT (R103, R391, R450) -/

/-- Whether a lane has failed with REMOTE: it is never tried again (13 R320). -/
def Acc.remote (a : Acc) : Bool := decide (a.st = 2 ∧ a.det = 0x0D)

/-- An entry as it re-enters the queue: lanes that a peer has performed, or is performing, are not sent again (log 72), and one that failed with REMOTE
fails again at once (13 R320, log 100). -/
def reenter (r : Nat × Nat) (e : SqEntry) : SqEntry :=
  if e.accs.any Acc.remote then { e with after := e.after ++ [r] } else
  { e with fault := none, sent := e.accs.any (fun a => decide (a.st = 3)), after := e.after ++ [r]
           accs := e.accs.map (fun a => if a.st = 1 ∨ a.st = 3 then a else { a with st := 0, syn := 0, det := 0 }) }

/-- Replays faulted loads and retries the set-aside entries. Both, and the loads behind them, count as issued now: the accesses of the handler
precede them (R391). -/
def retryFaulted (s : State) (b j : Nat) : State :=
  let s := s.updGrp b j (fun g =>
    let r := (g.hseq + 1, g.nextSeq + 1)
    let old (p : Pend) : Bool := decide (p.kind = .load ∧ p.seq < r.1) && loadStuck g p
    let replay (p : Pend) : Pend :=
      { p with after := p.after ++ [r], accs := p.accs.map (fun a => if a.st = 2 ∧ !a.remote then { a with st := 5, syn := 0, det := 0 } else a) }
    { g with
        sq := g.sq ++ g.aside.map (reenter r)
        aside := []
        pend := g.pend.filter (fun p => !old p) ++ (g.pend.filter old).map replay
        nextSeq := g.nextSeq + 1 })
  settle s b j

end Sys2Proof.Machine
end

