-- ==== Sys2Proof/Machine/Branch.lean ====
section
/-!
DEFINITION. Transfers of control, EXIT, YIELD, SLEEP, NOP and the REP prefix (14_integer.md R347 to R355, 05_encoding.md R131), and the
events that end a sleep or a yield.
-/

namespace Sys2Proof.Machine

/-! ### Transfers -/

/-- Moves every guarded thread to its target; a taken transfer keeps the group from issuing for 3 fc, for want
of its target (R335, 22 R496). -/
def transfer (s : State) (pr : Nat) (target : Nat × Nat → CodeAddr) : State :=
  let t := forLanes s pr (fun m t => t.updThr t.cur.blk m.1 m.2 (fun th => { th with pc := target m }))
  if (guarded s pr).isEmpty then t else busy t 3 7

/-- The target of BRA and CALL (R347). -/
def branchTarget (s : State) (off : BitVec 18) : CodeAddr := s.cur.pc + (off.signExtend 48 <<< 2)

/-- PROT for a target of BRA or CALL outside the code addresses, which lie from 0 below 2^48 (05 R118). -/
def branchCheck (s : State) (pr : Nat) (off : BitVec 18) : Check :=
  let t : Int := s.cur.pc.toNat + 4 * off.toInt
  if !(guarded s pr).isEmpty && decide (t < 0 ∨ 2 ^ 48 ≤ t) then
    .trap { cause := cPROT, addr := (guarded s pr).map (fun m => (m, (t % 2 ^ 64).toNat, 0)) }
  else .pass

/-- The checks of BRX and CALLX over all guarded lanes: PROT before ALIGN (R348). -/
def targetCheck (s : State) (pr a : Nat) : Check :=
  let ms := guarded s pr
  let addrs := ms.map (fun m => (m, (rdX s m a).toNat, 0))
  if ms.any (fun m => decide ((rdX s m a).toNat / 2 ^ 48 ≠ 0)) then .trap { cause := cPROT, addr := addrs }
  else if ms.any (fun m => decide ((rdX s m a).toNat % 4 ≠ 0)) then .trap { cause := cALIGN, addr := addrs }
  else .pass

/-- Writes the return address, the word after the call word, into w14 of every guarded lane (R349). -/
def writeLink (s : State) (pr : Nat) : State := lanesW s pr 14 (fun _ => (s.cur.pc + 4).setWidth 32)

/-- BRA (R347). -/
def execBra (f : WJ) (s : State) : Out := .next <|
  word (.bra f) s (fun s => branchCheck s f.pr.toNat f.off) (fun s => transfer s f.pr.toNat (fun _ => branchTarget s f.off))

/-- BRX (R348). -/
def execBrx (f : WA) (s : State) : Out := .next <|
  word (.brx f) s (fun s => targetCheck s f.pr.toNat f.a.toNat) (fun s =>
    transfer s f.pr.toNat (fun m => (rdX s m f.a.toNat).setWidth 48))

/-- CALL (R347, R349). -/
def execCall (f : WJ) (s : State) : Out := .next <|
  word (.call f) s (fun s => branchCheck s f.pr.toNat f.off) (fun s => transfer (writeLink s f.pr.toNat) f.pr.toNat (fun _ => branchTarget s f.off))

/-- CALLX (R348, R349): the target is read before w14 is written. -/
def execCallx (f : WA) (s : State) : Out := .next <|
  word (.callx f) s (fun s => targetCheck s f.pr.toNat f.a.toNat) (fun s =>
    transfer (writeLink s f.pr.toNat) f.pr.toNat (fun m => (rdX s m f.a.toNat).setWidth 48))

/-- The target of RET: bits [47:32] of the word's own PC over w14 (R350). -/
def retTarget (s : State) (m : Nat × Nat) : CodeAddr := s.cur.pc.extractLsb' 32 16 ++ rdW s m 14

/-- RET (R350). -/
def execRet (f : WA) (s : State) : Out := .next <|
  word (.ret f) s (fun s =>
    let ms := guarded s f.pr.toNat
    if ms.any (fun m => decide ((rdW s m 14).toNat % 4 ≠ 0)) then
      .trap { cause := cALIGN, addr := ms.map (fun m => (m, (retTarget s m).toNat, 0)) }
    else .pass) (fun s => transfer s f.pr.toNat (retTarget s))

/-! ### EXIT -/

/-- Whether threads of a group have nothing to wait for or to report at an implicit switch marker (R121, R353): `drain` for EXIT, which waits for
the store queue too (22 R491, 04 R116). -/
def settledGroup (b : Block) (g : Group) (ls : List Nat) (drain : Bool) : Bool :=
  markerClear g && !handlerLoadFault g && (dueAt b g Point.marker).isNone && ls.all (fun l => (g.th l).maskDue.isEmpty) &&
    (!drain || g.runnable.isEmpty)

/-- The member threads of one group. -/
def State.lanesOfGroup (s : State) (j : Nat) : List Nat := (s.cur.members.filter (fun m => m.1 = j)).map Prod.snd

/-- The member groups that must park first, as they stood before the issue. -/
def unsettled (s : State) (drain : Bool) : List Nat :=
  let k := s.srcBlk
  ((s.cur.members.map Prod.fst).eraseDups).filter (fun j => !settledGroup k (k.grp j) (s.lanesOfGroup j) drain)

/-- The implicit switch marker of EXIT, XREL and AMEND. -/
def markerCheck (s : State) (drain : Bool) : Check := if (unsettled s drain).isEmpty then .pass else .park (unsettled s drain) drain

/-- EXIT in one group: at once where nothing is outstanding in it, which `now` says; a word chained before it may have left a result to wait for,
and the threads exit at the marker (R121, R353, log 74). -/
def exitAt (now : Bool) (s : State) (sc j : Nat) (ls : List Nat) : State :=
  let b := s.cur.blk
  if ls.isEmpty || now then exitGroup s b sc j ls
  else setMarker s b j { kind := .exit, pc := s.cur.pc, sc := s.cur.sc, lanes := s.lanesOfGroup j, ends := ls, drain := true }

/-- EXIT (R353). -/
def execExit (f : WA) (s : State) : Out := .next <|
  word (.exit f) s (fun s => markerCheck s true) (fun s =>
    let ms := guarded s f.pr.toNat
    s.foldl (guardedGroups s f.pr.toNat) (fun t j =>
      exitAt (settledGroup (s.blk s.cur.blk) (s.grp s.cur.blk j) (s.lanesOfGroup j) true) t f.sc.toNat j ((ms.filter (fun m => m.1 = j)).map Prod.snd)))

/-! ### NOP, YIELD, SLEEP and REP -/

/-- NOP (R354). -/
def execNop (f : WK) (s : State) : Out := .next <| plain (.nop f) s (fun s => busy s 1 8)

/-- The group stays READY but is not eligible for `k` fc (R355). -/
def yieldGroup (k : Nat) (s : State) (j : Nat) : State :=
  let b := s.cur.blk
  let s := s.updGrp b j (fun g => { g with notBefore := s.gts + k + 1, stall := 5, waitc := 0 })
  s.post (s.gts + k + 1) (s.blkCore b) .yieldEnd { x := b, y := j }

/-- YIELD (R355). -/
def execYield (f : WK) (s : State) : Out := .next <|
  plain (.yield f) s (fun s => s.foldl (guardedGroups s f.pr.toNat) (yieldGroup (max f.k.toNat 1)))

/-- SLEEP (R355): SLEEP 0 acts as YIELD 0. -/
def execSleep (f : WK) (s : State) : Out := .next <|
  plain (.sleep f) s (fun s =>
    if f.k = 0 then s.foldl (guardedGroups s f.pr.toNat) (yieldGroup 1)
    else
      let wake := s.gts + 16 * f.k.toNat
      s.foldl (guardedGroups s f.pr.toNat) (fun t j =>
        (enterWait t j (.sleep wake) t.cur.pc.toNat).post wake (t.blkCore t.cur.blk) .sleepWake { x := t.cur.blk, y := j }))

/-- REP (R131): the prefix sets up the repetitions of the next word. -/
def execRep (f : WP) (s : State) : Out := .next <|
  plain (.rep f) s (fun s => { s with cur := { s.cur with rep := some (repOf f) } })

/-- SLEEP_WAKE (R355): a group asleep until now, in a resident block, becomes READY. -/
def execSleepWake (s : State) : Out := .next <|
  let b := s.arg.x
  let j := s.arg.y
  match (s.grp b j).wait with
  | .sleep wake => if wake ≤ s.gts ∧ (s.blk b).core.isSome then pokeMarker (s.updGrp b j (fun g => { g with wait := .none })) b j else s
  | _ => s

/-- YIELD_END (R355): the period is over. -/
def execYieldEnd (s : State) : Out := .next <|
  s.updGrp s.arg.x s.arg.y (fun g => if g.notBefore ≤ s.gts ∧ g.stall = 5 then { g with stall := 0 } else g)

end Sys2Proof.Machine
end

