-- ==== Sys2Proof/Machine/Integer.lean ====
section
/-!
DEFINITION. Integer, address, constant, predicate and vote instructions (14_integer.md R334 to R346).
-/

namespace Sys2Proof.Machine

/-! ### Values -/

/-- A sum clamped to the signed 32-bit range (R336 sat). -/
def satSum (a b : Int) : Word :=
  if a + b < -(2 ^ 31) then 0x8000_0000 else if 2 ^ 31 - 1 < a + b then 0x7FFF_FFFF else BitVec.ofInt 32 (a + b)

/-- Bits [63:32] of the signed product (R336). -/
def highSigned (a b : Word) : Word := (a.signExtend 64 * b.signExtend 64).extractLsb' 32 32
/-- Bits [63:32] of the unsigned product (R336). -/
def highUnsigned (a b : Word) : Word := (a.setWidth 64 * b.setWidth 64).extractLsb' 32 32

/-- The number of 1 bits among the low `n` (R336 POPC). -/
def onesOf (x : Nat) : Nat → Nat
  | 0 => 0
  | n + 1 => (if x.testBit n then 1 else 0) + onesOf x n

/-- The number of leading 0 bits among the low `n` (R336 CLZ). -/
def leadingZeros (x : Nat) : Nat → Nat
  | 0 => 0
  | n + 1 => if x.testBit n then 0 else 1 + leadingZeros x n

/-- Bit i of the low 32 goes to bit 31 - i (R336 BREV); `n` bits are still to come. -/
def reversedBits (x : Nat) : Nat → Nat
  | 0 => 0
  | n + 1 => (if x.testBit n then 2 ^ (31 - n) else 0) + reversedBits x n

/-- SHL, SHR and SAR by n (R337). -/
def shiftLeft (a : Word) (n : Nat) : Word := if n < 32 then a <<< n else 0
def shiftRight (a : Word) (n : Nat) : Word := if n < 32 then a >>> n else 0
def shiftArith (a : Word) (n : Nat) : Word := if n < 32 then a.sshiftRight n else if a.getLsbD 31 then 0xFFFF_FFFF else 0

/-- Position and width of a bit field from its descriptor (R338). -/
def fieldPosOf (b : Word) : Nat := b.toNat % 32
def fieldWidthOf (b : Word) : Nat := min (min (b.toNat / 256 % 64) 32) (32 - fieldPosOf b)

/-- The mask m of R338. -/
def fieldMask (b : Word) : Word := BitVec.ofNat 32 ((2 ^ fieldWidthOf b - 1) * 2 ^ fieldPosOf b)

def fieldExtract (a b : Word) : Word := (a &&& fieldMask b) >>> fieldPosOf b
def fieldExtractSigned (a b : Word) : Word :=
  if fieldWidthOf b = 0 then 0 else BitVec.ofInt 32 (sextNat (fieldExtract a b).toNat (fieldWidthOf b))
def fieldInsert (d a b : Word) : Word := (d &&& ~~~fieldMask b) ||| ((a <<< fieldPosOf b) &&& fieldMask b)

/-- A 6-bit constant as a signed and an unsigned word (R125). -/
def signedK6 (k : BitVec 6) : Word := k.signExtend 32
def plainK6 (k : BitVec 6) : Word := k.setWidth 32

/-- The integer comparisons of R133 and R341. -/
def intCompare (cond : Nat) (a b : Word) : Bool :=
  match cond with
  | 0 => a == b
  | 1 => a != b
  | 2 => decide (a.toInt < b.toInt)
  | 3 => decide (a.toInt ≤ b.toInt)
  | 4 => decide (b.toInt < a.toInt)
  | 5 => decide (b.toInt ≤ a.toInt)
  | 6 => decide (a.toNat < b.toNat)
  | 7 => decide (a.toNat ≤ b.toNat)
  | 8 => decide (b.toNat < a.toNat)
  | _ => decide (b.toNat ≤ a.toNat)

/-! ### 32-bit integer arithmetic and logic -/

/-- ADD (R336). -/
def execAdd (f : WA) (s : State) : Out := .next <|
  plain (.add f) s (fun s => lanesW s f.pr.toNat f.d.toNat (fun m => rdW s m f.a.toNat + rdW s m f.b.toNat))

/-- SUB (R336). -/
def execSub (f : WA) (s : State) : Out := .next <|
  plain (.sub f) s (fun s => lanesW s f.pr.toNat f.d.toNat (fun m => rdW s m f.a.toNat - rdW s m f.b.toNat))

/-- ADDS (R336). -/
def execAdds (f : WA) (s : State) : Out := .next <|
  plain (.adds f) s (fun s => lanesW s f.pr.toNat f.d.toNat (fun m => satSum (rdW s m f.a.toNat).toInt (rdW s m f.b.toNat).toInt))

/-- SUBS (R336). -/
def execSubs (f : WA) (s : State) : Out := .next <|
  plain (.subs f) s (fun s => lanesW s f.pr.toNat f.d.toNat (fun m => satSum (rdW s m f.a.toNat).toInt (-(rdW s m f.b.toNat).toInt)))

/-- MUL (R336). -/
def execMul (f : WA) (s : State) : Out := .next <|
  plain (.mul f) s (fun s => lanesW s f.pr.toNat f.d.toNat (fun m => rdW s m f.a.toNat * rdW s m f.b.toNat))

/-- MULH (R336). -/
def execMulh (f : WA) (s : State) : Out := .next <|
  plain (.mulh f) s (fun s => lanesW s f.pr.toNat f.d.toNat (fun m => highSigned (rdW s m f.a.toNat) (rdW s m f.b.toNat)))

/-- MULHU (R336). -/
def execMulhu (f : WA) (s : State) : Out := .next <|
  plain (.mulhu f) s (fun s => lanesW s f.pr.toNat f.d.toNat (fun m => highUnsigned (rdW s m f.a.toNat) (rdW s m f.b.toNat)))

/-- MAD (R336). -/
def execMad (f : WA) (s : State) : Out := .next <|
  plain (.mad f) s (fun s => lanesW s f.pr.toNat f.d.toNat (fun m => rdW s m f.a.toNat * rdW s m f.b.toNat + rdW s m f.d.toNat))

/-- MIN (R336). -/
def execMin (f : WA) (s : State) : Out := .next <|
  plain (.min f) s (fun s => lanesW s f.pr.toNat f.d.toNat (fun m => if (rdW s m f.a.toNat).toInt ≤ (rdW s m f.b.toNat).toInt then rdW s m f.a.toNat else rdW s m f.b.toNat))

/-- MAX (R336). -/
def execMax (f : WA) (s : State) : Out := .next <|
  plain (.max f) s (fun s => lanesW s f.pr.toNat f.d.toNat (fun m => if (rdW s m f.b.toNat).toInt ≤ (rdW s m f.a.toNat).toInt then rdW s m f.a.toNat else rdW s m f.b.toNat))

/-- MINU (R336). -/
def execMinu (f : WA) (s : State) : Out := .next <|
  plain (.minu f) s (fun s => lanesW s f.pr.toNat f.d.toNat (fun m => if (rdW s m f.a.toNat).toNat ≤ (rdW s m f.b.toNat).toNat then rdW s m f.a.toNat else rdW s m f.b.toNat))

/-- MAXU (R336). -/
def execMaxu (f : WA) (s : State) : Out := .next <|
  plain (.maxu f) s (fun s => lanesW s f.pr.toNat f.d.toNat (fun m => if (rdW s m f.b.toNat).toNat ≤ (rdW s m f.a.toNat).toNat then rdW s m f.a.toNat else rdW s m f.b.toNat))

/-- AND (R336). -/
def execAnd (f : WA) (s : State) : Out := .next <|
  plain (.and f) s (fun s => lanesW s f.pr.toNat f.d.toNat (fun m => rdW s m f.a.toNat &&& rdW s m f.b.toNat))

/-- OR (R336). -/
def execOr (f : WA) (s : State) : Out := .next <|
  plain (.or f) s (fun s => lanesW s f.pr.toNat f.d.toNat (fun m => rdW s m f.a.toNat ||| rdW s m f.b.toNat))

/-- XOR (R336). -/
def execXor (f : WA) (s : State) : Out := .next <|
  plain (.xor f) s (fun s => lanesW s f.pr.toNat f.d.toNat (fun m => rdW s m f.a.toNat ^^^ rdW s m f.b.toNat))

/-- ANDN (R336). -/
def execAndn (f : WA) (s : State) : Out := .next <|
  plain (.andn f) s (fun s => lanesW s f.pr.toNat f.d.toNat (fun m => rdW s m f.a.toNat &&& ~~~rdW s m f.b.toNat))

/-- SHL (R337). -/
def execShl (f : WA) (s : State) : Out := .next <|
  plain (.shl f) s (fun s => lanesW s f.pr.toNat f.d.toNat (fun m => shiftLeft (rdW s m f.a.toNat) ((rdW s m f.b.toNat).toNat % 256)))

/-- SHR (R337). -/
def execShr (f : WA) (s : State) : Out := .next <|
  plain (.shr f) s (fun s => lanesW s f.pr.toNat f.d.toNat (fun m => shiftRight (rdW s m f.a.toNat) ((rdW s m f.b.toNat).toNat % 256)))

/-- SAR (R337). -/
def execSar (f : WA) (s : State) : Out := .next <|
  plain (.sar f) s (fun s => lanesW s f.pr.toNat f.d.toNat (fun m => shiftArith (rdW s m f.a.toNat) ((rdW s m f.b.toNat).toNat % 256)))

/-- SEL (R336). -/
def execSel (f : WA) (s : State) : Out := .next <|
  plain (.sel f) s (fun s => lanesW s f.pr.toNat f.d.toNat (fun m => (rdW s m f.a.toNat &&& rdW s m f.d.toNat) ||| (rdW s m f.b.toNat &&& ~~~rdW s m f.d.toNat)))

/-- POPC (R336). -/
def execPopc (f : WA) (s : State) : Out := .next <|
  plain (.popc f) s (fun s => lanesW s f.pr.toNat f.d.toNat (fun m => BitVec.ofNat 32 (onesOf (rdW s m f.a.toNat).toNat 32)))

/-- CLZ (R336). -/
def execClz (f : WA) (s : State) : Out := .next <|
  plain (.clz f) s (fun s => lanesW s f.pr.toNat f.d.toNat (fun m => BitVec.ofNat 32 (leadingZeros (rdW s m f.a.toNat).toNat 32)))

/-- BREV (R336). -/
def execBrev (f : WA) (s : State) : Out := .next <|
  plain (.brev f) s (fun s => lanesW s f.pr.toNat f.d.toNat (fun m => BitVec.ofNat 32 (reversedBits (rdW s m f.a.toNat).toNat 32)))

/-- BFX (R338). -/
def execBfx (f : WA) (s : State) : Out := .next <|
  plain (.bfx f) s (fun s => lanesW s f.pr.toNat f.d.toNat (fun m => fieldExtract (rdW s m f.a.toNat) (rdW s m f.b.toNat)))

/-- BFXS (R338). -/
def execBfxs (f : WA) (s : State) : Out := .next <|
  plain (.bfxs f) s (fun s => lanesW s f.pr.toNat f.d.toNat (fun m => fieldExtractSigned (rdW s m f.a.toNat) (rdW s m f.b.toNat)))

/-- BFI (R338). -/
def execBfi (f : WA) (s : State) : Out := .next <|
  plain (.bfi f) s (fun s => lanesW s f.pr.toNat f.d.toNat (fun m => fieldInsert (rdW s m f.d.toNat) (rdW s m f.a.toNat) (rdW s m f.b.toNat)))

/-- MOV (R336). -/
def execMov (f : WA) (s : State) : Out := .next <|
  plain (.mov f) s (fun s => lanesW s f.pr.toNat f.d.toNat (fun m => rdW s m f.a.toNat))

/-- ADDK (R340). -/
def execAddk (f : WI) (s : State) : Out := .next <|
  plain (.addk f) s (fun s => lanesW s f.pr.toNat f.d.toNat (fun m => rdW s m f.a.toNat + signedK6 f.k))

/-- SHLI (R337). -/
def execShli (f : WI) (s : State) : Out := .next <|
  plain (.shli f) s (fun s => lanesW s f.pr.toNat f.d.toNat (fun m => shiftLeft (rdW s m f.a.toNat) f.k.toNat))

/-- SHRI (R337). -/
def execShri (f : WI) (s : State) : Out := .next <|
  plain (.shri f) s (fun s => lanesW s f.pr.toNat f.d.toNat (fun m => shiftRight (rdW s m f.a.toNat) f.k.toNat))

/-- SARI (R337). -/
def execSari (f : WI) (s : State) : Out := .next <|
  plain (.sari f) s (fun s => lanesW s f.pr.toNat f.d.toNat (fun m => shiftArith (rdW s m f.a.toNat) f.k.toNat))

/-- MOVK (R339). -/
def execMovk (f : WK) (s : State) : Out := .next <|
  plain (.movk f) s (fun s => lanesW s f.pr.toNat f.d.toNat (fun _ => f.k.signExtend 32))

/-- SHLK (R339). -/
def execShlk (f : WK) (s : State) : Out := .next <|
  plain (.shlk f) s (fun s => lanesW s f.pr.toNat f.d.toNat (fun m => (rdW s m f.d.toNat <<< 13) ||| f.k.setWidth 32))

/-! ### 64-bit values and addresses -/

/-- ADD64 (R340). -/
def execAdd64 (f : WA) (s : State) : Out := .next <|
  plain (.add64 f) s (fun s => lanesX s f.pr.toNat f.d.toNat (fun m => rdX s m f.a.toNat + rdX s m f.b.toNat))

/-- SUB64 (R340). -/
def execSub64 (f : WA) (s : State) : Out := .next <|
  plain (.sub64 f) s (fun s => lanesX s f.pr.toNat f.d.toNat (fun m => rdX s m f.a.toNat - rdX s m f.b.toNat))

/-- ADDK64 (R340). -/
def execAddk64 (f : WI) (s : State) : Out := .next <|
  plain (.addk64 f) s (fun s => lanesX s f.pr.toNat f.d.toNat (fun m => rdX s m f.a.toNat + f.k.signExtend 64))

/-- SHL64 (R340). -/
def execShl64 (f : WA) (s : State) : Out := .next <|
  plain (.shl64 f) s (fun s => lanesX s f.pr.toNat f.d.toNat (fun m => if (rdW s m f.b.toNat).toNat % 256 < 64 then rdX s m f.a.toNat <<< ((rdW s m f.b.toNat).toNat % 256) else 0))

/-- SHR64 (R340). -/
def execShr64 (f : WA) (s : State) : Out := .next <|
  plain (.shr64 f) s (fun s => lanesX s f.pr.toNat f.d.toNat (fun m => if (rdW s m f.b.toNat).toNat % 256 < 64 then rdX s m f.a.toNat >>> ((rdW s m f.b.toNat).toNat % 256) else 0))

/-- SEXT64 (R340). -/
def execSext64 (f : WA) (s : State) : Out := .next <|
  plain (.sext64 f) s (fun s => lanesX s f.pr.toNat f.d.toNat (fun m => (rdW s m f.a.toNat).signExtend 64))

/-- ZEXT64 (R340). -/
def execZext64 (f : WA) (s : State) : Out := .next <|
  plain (.zext64 f) s (fun s => lanesX s f.pr.toNat f.d.toNat (fun m => (rdW s m f.a.toNat).setWidth 64))

/-- LEA.s (R340). -/
def execLea (sh : BitVec 3) (f : WA) (s : State) : Out := .next <|
  plain (.lea sh f) s (fun s => lanesX s f.pr.toNat f.d.toNat
    (fun m => rdX s m f.a.toNat + ((rdW s m f.b.toNat).signExtend 64 <<< sh.toNat)))

/-! ### Predicates and votes -/

/-- PSET.cond (R341). -/
def execPset (cond : BitVec 4) (f : WA) (s : State) : Out := .next <|
  plain (.pset cond f) s (fun s => lanesP s f.pr.toNat f.d.toNat (fun m => intCompare cond.toNat (rdW s m f.a.toNat) (rdW s m f.b.toNat)))

/-- PSETK.cond (R341): the constant is unsigned for the unsigned conditions. -/
def execPsetk (cond : BitVec 4) (f : WI) (s : State) : Out := .next <|
  plain (.psetk cond f) s (fun s => lanesP s f.pr.toNat f.d.toNat
    (fun m => intCompare cond.toNat (rdW s m f.a.toNat) (if cond.toNat < 6 then signedK6 f.k else plainK6 f.k)))

/-- PAND (R342). -/
def execPand (f : WA) (s : State) : Out := .next <|
  plain (.pand f) s (fun s => busy (lanesP s f.pr.toNat f.d.toNat (fun m => rdP s m f.a.toNat && rdP s m f.b.toNat)) 2 8)

/-- POR (R342). -/
def execPor (f : WA) (s : State) : Out := .next <|
  plain (.por f) s (fun s => busy (lanesP s f.pr.toNat f.d.toNat (fun m => rdP s m f.a.toNat || rdP s m f.b.toNat)) 2 8)

/-- PXOR (R342). -/
def execPxor (f : WA) (s : State) : Out := .next <|
  plain (.pxor f) s (fun s => busy (lanesP s f.pr.toNat f.d.toNat (fun m => rdP s m f.a.toNat != rdP s m f.b.toNat)) 2 8)

/-- PNOT (R342). -/
def execPnot (f : WA) (s : State) : Out := .next <|
  plain (.pnot f) s (fun s => busy (lanesP s f.pr.toNat f.d.toNat (fun m => !rdP s m f.a.toNat)) 2 8)

/-- PRD (R343). -/
def execPrd (f : WA) (s : State) : Out := .next <|
  plain (.prd f) s (fun s => busy (lanesW s f.pr.toNat f.d.toNat (fun m => if rdP s m f.a.toNat then 0xFFFF_FFFF else 0)) 2 8)

/-- PWR (R343). -/
def execPwr (f : WA) (s : State) : Out := .next <|
  plain (.pwr f) s (fun s => busy (lanesP s f.pr.toNat f.d.toNat (fun m => decide (rdW s m f.a.toNat ≠ 0))) 2 8)

/-- v(l) of R344: the predicate of field A, negated when B[0] = 1. -/
def voteOf (s : State) (f : WA) (m : Nat × Nat) : Bool := rdP s m f.a.toNat != f.b.getLsbD 0

/-- VOTE.ANY (R344). -/
def execVoteAny (f : WA) (s : State) : Out := .next <|
  plain (.voteAny f) s (fun s => busy (lanesP s f.pr.toNat f.d.toNat (fun _ => (guarded s f.pr.toNat).any (voteOf s f))) 4 8)

/-- VOTE.ALL (R344). -/
def execVoteAll (f : WA) (s : State) : Out := .next <|
  plain (.voteAll f) s (fun s => busy (lanesP s f.pr.toNat f.d.toNat (fun _ => (guarded s f.pr.toNat).all (voteOf s f))) 4 8)

/-- VOTE.BAL (R344): a bit for each lane of the group. -/
def execVoteBal (f : WA) (s : State) : Out := .next <|
  plain (.voteBal f) s (fun s =>
    busy (lanesW s f.pr.toNat f.d.toNat (fun _ =>
      BitVec.ofNat 32 (((guarded s f.pr.toNat).filter (voteOf s f)).foldl (fun n m => n + 2 ^ m.2) 0))) 4 8)

/-! ### Group registers -/

/-- Whether the issue in progress is converged in its group: every non-exited thread takes part (R258); a wide issue always is (R345). -/
def converged (s : State) : Bool :=
  decide (0 < s.cur.sc) || (s.srcGrp s.cur.j).alive.all (fun l => s.cur.members.contains (s.cur.j, l))

/-- The check of R259: a second divergent write traps UDIV when UDT = 1, before the write. -/
def divergentCheck (s : State) (pr d : Nat) : Check :=
  let g := s.grp s.cur.blk s.cur.j
  if (lowest s pr).isSome && !converged s && tget false g.gflag d && g.udt then .trap { cause := cUDIV, det := d } else .pass

/-- Writes a group register of one group by a converged or divergent issue (R258, R259). -/
def writeGroupReg (conv : Bool) (d : Nat) (v : Word) (g : Group) : Group :=
  if conv then { g with g := tset g.g d v, gflag := tset g.gflag d false }
  else { g with g := tset g.g d v, gflag := tset g.gflag d true, udiv := g.udiv || tget false g.gflag d }

/-- MOVG (R345): the w A of the lowest guarded member, into every group of the scope. -/
def execMovg (f : WA) (s : State) : Out := .next <|
  word (.movg f) s (fun s => divergentCheck s f.pr.toNat f.d.toNat) (fun s =>
    busy (match lowest s f.pr.toNat with
      | none => s
      | some m => s.foldl s.cur.groups (fun t j =>
          t.updGrp s.cur.blk j (writeGroupReg (converged s) f.d.toNat (rdW s m f.a.toNat)))) 2 8)

/-- MOVW (R346): each guarded lane reads its own group's register. -/
def execMovw (f : WA) (s : State) : Out := .next <|
  plain (.movw f) s (fun s => busy (lanesW s f.pr.toNat f.d.toNat (fun m => (s.srcGrp m.1).rg f.a.toNat)) 2 8)

end Sys2Proof.Machine
end

