-- ==== Sys2Proof/Decode.lean ====
section
/-!
DEFINITION. The decoder and the encoder (05_encoding.md R119, R125, R133 to R135). Decoding is total: a word that is no instruction is
rejected by name. It accepts every value of the fields C, S, SC and the registers; what the machine does with a value that an
instruction refuses is the machine's (R122, R123, R128). A decode error raises ILL when the word issues (R133).
-/

namespace Sys2Proof

/-- Why bytes are no instruction. -/
inductive DecodeError where
  /-- The opcode is reserved in the native map (R133). -/
  | reservedOpcode (op : Nat)
  /-- The value of field B that selects the form is reserved (R387, R398). -/
  | reservedForm (b : BitVec 5)
  /-- Fewer than four bytes. -/
  | tooShort
deriving DecidableEq, Repr

/-! ### The fields of the eight formats (R125) -/

def opField (w : BitVec 32) : Nat := (w.extractLsb' 20 10).toNat

def fieldsA (w : BitVec 32) : WA :=
  ⟨w.getLsbD 31, w.getLsbD 30, w.extractLsb' 18 2, w.extractLsb' 16 2, w.getLsbD 15, w.extractLsb' 10 5, w.extractLsb' 5 5, w.extractLsb' 0 5⟩
def fieldsI (w : BitVec 32) : WI :=
  ⟨w.getLsbD 31, w.getLsbD 30, w.extractLsb' 18 2, w.extractLsb' 16 2, w.extractLsb' 11 5, w.extractLsb' 6 5, w.extractLsb' 0 6⟩
def fieldsK (w : BitVec 32) : WK :=
  ⟨w.getLsbD 31, w.getLsbD 30, w.extractLsb' 18 2, w.extractLsb' 13 5, w.extractLsb' 0 13⟩
def fieldsJ (w : BitVec 32) : WJ :=
  ⟨w.getLsbD 31, w.getLsbD 30, w.extractLsb' 18 2, w.extractLsb' 0 18⟩
def fieldsM (w : BitVec 32) : WM :=
  ⟨w.getLsbD 31, w.getLsbD 30, w.extractLsb' 18 2, w.extractLsb' 16 2, w.extractLsb' 11 5, w.extractLsb' 6 5, w.extractLsb' 0 6⟩
def fieldsMA (w : BitVec 32) : WMA :=
  ⟨w.getLsbD 31, w.getLsbD 30, w.extractLsb' 18 2, w.extractLsb' 16 2, w.getLsbD 15, w.extractLsb' 10 5, w.extractLsb' 5 5, w.extractLsb' 0 5⟩
def fieldsS (w : BitVec 32) : WS :=
  ⟨w.getLsbD 31, w.getLsbD 30, w.extractLsb' 18 2, w.extractLsb' 16 2, w.extractLsb' 11 5, w.extractLsb' 0 11⟩
def fieldsP (w : BitVec 32) : WP :=
  ⟨w.getLsbD 31, w.getLsbD 30, w.extractLsb' 16 4, w.extractLsb' 14 2, w.extractLsb' 12 2, w.extractLsb' 10 2, w.extractLsb' 0 10⟩

/-- Control and predicate, 0x000 to 0x03F (R133). -/
def decodeOps0 (op : Nat) (w : BitVec 32) : Except DecodeError Instr :=
  if op = 0x000 then .ok (.nop (fieldsK w)) else
  if op = 0x001 then .ok (.bra (fieldsJ w)) else
  if op = 0x002 then .ok (.brx (fieldsA w)) else
  if op = 0x003 then .ok (.call (fieldsJ w)) else
  if op = 0x004 then .ok (.callx (fieldsA w)) else
  if op = 0x005 then .ok (.ret (fieldsA w)) else
  if op = 0x006 then .ok (.exit (fieldsA w)) else
  if op = 0x007 then .ok (.yield (fieldsK w)) else
  if op = 0x008 then .ok (.sleep (fieldsK w)) else
  if op = 0x009 then .ok (.pand (fieldsA w)) else
  if op = 0x00A then .ok (.por (fieldsA w)) else
  if op = 0x00B then .ok (.pxor (fieldsA w)) else
  if op = 0x00C then .ok (.pnot (fieldsA w)) else
  if op = 0x00D then .ok (.voteAny (fieldsA w)) else
  if op = 0x00E then .ok (.voteAll (fieldsA w)) else
  if op = 0x00F then .ok (.voteBal (fieldsA w)) else
  if 0x010 ≤ op ∧ op < 0x01A then .ok (.pset (BitVec.ofNat 4 (op - 0x010)) (fieldsA w)) else
  if 0x020 ≤ op ∧ op < 0x02A then .ok (.psetk (BitVec.ofNat 4 (op - 0x020)) (fieldsI w)) else
  if op = 0x030 then .ok (.prd (fieldsA w)) else
  if op = 0x031 then .ok (.pwr (fieldsA w)) else
  if op = 0x03F then .ok (.rep (fieldsP w)) else
  .error (.reservedOpcode op)

/-- Integer and address, 0x040 to 0x07F (R133). -/
def decodeOps1 (op : Nat) (w : BitVec 32) : Except DecodeError Instr :=
  if op = 0x040 then .ok (.add (fieldsA w)) else
  if op = 0x041 then .ok (.sub (fieldsA w)) else
  if op = 0x042 then .ok (.addk (fieldsI w)) else
  if op = 0x043 then .ok (.adds (fieldsA w)) else
  if op = 0x044 then .ok (.subs (fieldsA w)) else
  if op = 0x045 then .ok (.mul (fieldsA w)) else
  if op = 0x046 then .ok (.mulh (fieldsA w)) else
  if op = 0x047 then .ok (.mulhu (fieldsA w)) else
  if op = 0x048 then .ok (.mad (fieldsA w)) else
  if op = 0x049 then .ok (.min (fieldsA w)) else
  if op = 0x04A then .ok (.max (fieldsA w)) else
  if op = 0x04B then .ok (.minu (fieldsA w)) else
  if op = 0x04C then .ok (.maxu (fieldsA w)) else
  if op = 0x04D then .ok (.and (fieldsA w)) else
  if op = 0x04E then .ok (.or (fieldsA w)) else
  if op = 0x04F then .ok (.xor (fieldsA w)) else
  if op = 0x050 then .ok (.andn (fieldsA w)) else
  if op = 0x051 then .ok (.shl (fieldsA w)) else
  if op = 0x052 then .ok (.shr (fieldsA w)) else
  if op = 0x053 then .ok (.sar (fieldsA w)) else
  if op = 0x054 then .ok (.shli (fieldsI w)) else
  if op = 0x055 then .ok (.shri (fieldsI w)) else
  if op = 0x056 then .ok (.sari (fieldsI w)) else
  if op = 0x057 then .ok (.sel (fieldsA w)) else
  if op = 0x058 then .ok (.popc (fieldsA w)) else
  if op = 0x059 then .ok (.clz (fieldsA w)) else
  if op = 0x05A then .ok (.brev (fieldsA w)) else
  if op = 0x05B then .ok (.bfx (fieldsA w)) else
  if op = 0x05C then .ok (.bfxs (fieldsA w)) else
  if op = 0x05D then .ok (.bfi (fieldsA w)) else
  if op = 0x05E then .ok (.mov (fieldsA w)) else
  if op = 0x05F then .ok (.movk (fieldsK w)) else
  if op = 0x060 then .ok (.shlk (fieldsK w)) else
  if op = 0x061 then .ok (.movg (fieldsA w)) else
  if op = 0x062 then .ok (.movw (fieldsA w)) else
  if op = 0x063 then .ok (.add64 (fieldsA w)) else
  if op = 0x064 then .ok (.sub64 (fieldsA w)) else
  if op = 0x065 then .ok (.addk64 (fieldsI w)) else
  if op = 0x066 then .ok (.shl64 (fieldsA w)) else
  if op = 0x067 then .ok (.shr64 (fieldsA w)) else
  if op = 0x068 then .ok (.sext64 (fieldsA w)) else
  if op = 0x069 then .ok (.zext64 (fieldsA w)) else
  if 0x070 ≤ op ∧ op < 0x078 then .ok (.lea (BitVec.ofNat 3 (op - 0x070)) (fieldsA w)) else
  .error (.reservedOpcode op)

/-- FP32 and BF16 vector, 0x0C0 to 0x0FF (R133). -/
def decodeOps3 (op : Nat) (w : BitVec 32) : Except DecodeError Instr :=
  if 0x0C0 ≤ op ∧ op < 0x0C4 then .ok (.fadd (BitVec.ofNat 2 (op - 0x0C0)) (fieldsA w)) else
  if 0x0C4 ≤ op ∧ op < 0x0C8 then .ok (.fsub (BitVec.ofNat 2 (op - 0x0C4)) (fieldsA w)) else
  if 0x0C8 ≤ op ∧ op < 0x0CC then .ok (.fmul (BitVec.ofNat 2 (op - 0x0C8)) (fieldsA w)) else
  if 0x0CC ≤ op ∧ op < 0x0D0 then .ok (.ffma (BitVec.ofNat 2 (op - 0x0CC)) (fieldsA w)) else
  if op = 0x0D0 then .ok (.fmin (fieldsA w)) else
  if op = 0x0D1 then .ok (.fmax (fieldsA w)) else
  if op = 0x0D2 then .ok (.fabs (fieldsA w)) else
  if op = 0x0D3 then .ok (.fneg (fieldsA w)) else
  if 0x0D4 ≤ op ∧ op < 0x0D8 then .ok (.fsetEqToLe (BitVec.ofNat 2 (op - 0x0D4)) (fieldsA w)) else
  if 0x0D8 ≤ op ∧ op < 0x0DC then .ok (.fsetGtToOr (BitVec.ofNat 2 (op - 0x0D8)) (fieldsA w)) else
  if 0x0E0 ≤ op ∧ op < 0x0E4 then .ok (.hadd2 (BitVec.ofNat 2 (op - 0x0E0)) (fieldsA w)) else
  if 0x0E4 ≤ op ∧ op < 0x0E8 then .ok (.hsub2 (BitVec.ofNat 2 (op - 0x0E4)) (fieldsA w)) else
  if 0x0E8 ≤ op ∧ op < 0x0EC then .ok (.hmul2 (BitVec.ofNat 2 (op - 0x0E8)) (fieldsA w)) else
  if 0x0EC ≤ op ∧ op < 0x0F0 then .ok (.hfma2 (BitVec.ofNat 2 (op - 0x0EC)) (fieldsA w)) else
  if op = 0x0F0 then .ok (.hmin2 (fieldsA w)) else
  if op = 0x0F1 then .ok (.hmax2 (fieldsA w)) else
  if op = 0x0F2 then .ok (.habs2 (fieldsA w)) else
  if op = 0x0F3 then .ok (.hneg2 (fieldsA w)) else
  if 0x0F4 ≤ op ∧ op < 0x0F8 then .ok (.hdot2 (BitVec.ofNat 2 (op - 0x0F4)) (fieldsA w)) else
  .error (.reservedOpcode op)

/-- Conversion, special functions and lane exchange, 0x140 to 0x17F (R133). -/
def decodeOps5 (op : Nat) (w : BitVec 32) : Except DecodeError Instr :=
  if 0x140 ≤ op ∧ op < 0x144 then .ok (.cvtBf16F32 (BitVec.ofNat 2 (op - 0x140)) (fieldsA w)) else
  if op = 0x144 then .ok (.cvtF32Bf16l (fieldsA w)) else
  if op = 0x145 then .ok (.cvtF32Bf16h (fieldsA w)) else
  if 0x148 ≤ op ∧ op < 0x14C then .ok (.cvtE4m3Bf16 (BitVec.ofNat 2 (op - 0x148)) (fieldsA w)) else
  if 0x14C ≤ op ∧ op < 0x150 then .ok (.cvtE5m2Bf16 (BitVec.ofNat 2 (op - 0x14C)) (fieldsA w)) else
  if op = 0x150 then .ok (.cvtBf16E4m3l (fieldsA w)) else
  if op = 0x151 then .ok (.cvtBf16E4m3h (fieldsA w)) else
  if op = 0x152 then .ok (.cvtBf16E5m2l (fieldsA w)) else
  if op = 0x153 then .ok (.cvtBf16E5m2h (fieldsA w)) else
  if 0x154 ≤ op ∧ op < 0x158 then .ok (.cvtS32F32 (BitVec.ofNat 2 (op - 0x154)) (fieldsA w)) else
  if 0x158 ≤ op ∧ op < 0x15C then .ok (.cvtU32F32 (BitVec.ofNat 2 (op - 0x158)) (fieldsA w)) else
  if 0x15C ≤ op ∧ op < 0x160 then .ok (.cvtF32S32 (BitVec.ofNat 2 (op - 0x15C)) (fieldsA w)) else
  if 0x160 ≤ op ∧ op < 0x164 then .ok (.cvtF32U32 (BitVec.ofNat 2 (op - 0x160)) (fieldsA w)) else
  if op = 0x164 then .ok (.cvtS4S8 (fieldsA w)) else
  if op = 0x165 then .ok (.cvtS8S4l (fieldsA w)) else
  if op = 0x166 then .ok (.cvtS8S4h (fieldsA w)) else
  if op = 0x168 then .ok (.frred (fieldsA w)) else
  if op = 0x169 then .ok (.fsinr (fieldsA w)) else
  if op = 0x16A then .ok (.fcosr (fieldsA w)) else
  if op = 0x16B then .ok (.fexp2 (fieldsA w)) else
  if op = 0x16C then .ok (.flog2 (fieldsA w)) else
  if op = 0x16D then .ok (.frcp (fieldsA w)) else
  if op = 0x16E then .ok (.frsq (fieldsA w)) else
  if op = 0x16F then .ok (.fsqrt (fieldsA w)) else
  if op = 0x170 then .ok (.lswpP (fieldsA w)) else
  if op = 0x171 then .ok (.lshf (fieldsI w)) else
  if op = 0x172 then .ok (.lbcast (fieldsI w)) else
  if op = 0x173 then .ok (.lxor (fieldsI w)) else
  if op = 0x174 then .ok (.lidx (fieldsA w)) else
  if op = 0x175 then .ok (.lrot (fieldsI w)) else
  .error (.reservedOpcode op)

/-- Loads and stores, 0x180 to 0x1BF (R133). -/
def decodeOps6 (op : Nat) (w : BitVec 32) : Except DecodeError Instr :=
  if 0x180 ≤ op ∧ op < 0x187 then .ok (.ldG (BitVec.ofNat 3 (op - 0x180)) (fieldsM w)) else
  if 0x188 ≤ op ∧ op < 0x18F then .ok (.ldS (BitVec.ofNat 3 (op - 0x188)) (fieldsM w)) else
  if 0x190 ≤ op ∧ op < 0x197 then .ok (.ldE (BitVec.ofNat 3 (op - 0x190)) (fieldsM w)) else
  if 0x198 ≤ op ∧ op < 0x19D then .ok (.stG (BitVec.ofNat 3 (op - 0x198)) (fieldsM w)) else
  if 0x1A0 ≤ op ∧ op < 0x1A5 then .ok (.stS (BitVec.ofNat 3 (op - 0x1A0)) (fieldsM w)) else
  if 0x1A8 ≤ op ∧ op < 0x1AD then .ok (.stE (BitVec.ofNat 3 (op - 0x1A8)) (fieldsM w)) else
  if op = 0x1B0 then .ok (.prefL1 (fieldsM w)) else
  if op = 0x1B1 then .ok (.prefL2 (fieldsM w)) else
  .error (.reservedOpcode op)

/-- Atomics and fences, 0x200 to 0x23F (R133). -/
def decodeOps8 (op : Nat) (w : BitVec 32) : Except DecodeError Instr :=
  if 0x200 ≤ op ∧ op < 0x204 then .ok (.atomAdd (BitVec.ofNat 2 (op - 0x200)) (fieldsMA w)) else
  if 0x204 ≤ op ∧ op < 0x208 then .ok (.atomMin (BitVec.ofNat 2 (op - 0x204)) (fieldsMA w)) else
  if 0x208 ≤ op ∧ op < 0x20C then .ok (.atomMax (BitVec.ofNat 2 (op - 0x208)) (fieldsMA w)) else
  if 0x20C ≤ op ∧ op < 0x210 then .ok (.atomMinu (BitVec.ofNat 2 (op - 0x20C)) (fieldsMA w)) else
  if 0x210 ≤ op ∧ op < 0x214 then .ok (.atomMaxu (BitVec.ofNat 2 (op - 0x210)) (fieldsMA w)) else
  if 0x214 ≤ op ∧ op < 0x218 then .ok (.atomAnd (BitVec.ofNat 2 (op - 0x214)) (fieldsMA w)) else
  if 0x218 ≤ op ∧ op < 0x21C then .ok (.atomOr (BitVec.ofNat 2 (op - 0x218)) (fieldsMA w)) else
  if 0x21C ≤ op ∧ op < 0x220 then .ok (.atomXor (BitVec.ofNat 2 (op - 0x21C)) (fieldsMA w)) else
  if 0x220 ≤ op ∧ op < 0x224 then .ok (.atomExch (BitVec.ofNat 2 (op - 0x220)) (fieldsMA w)) else
  if 0x224 ≤ op ∧ op < 0x228 then .ok (.atomCas (BitVec.ofNat 2 (op - 0x224)) (fieldsMA w)) else
  if 0x228 ≤ op ∧ op < 0x22C then .ok (.atomLd (BitVec.ofNat 2 (op - 0x228)) (fieldsMA w)) else
  if 0x22C ≤ op ∧ op < 0x230 then .ok (.atomSt (BitVec.ofNat 2 (op - 0x22C)) (fieldsMA w)) else
  if 0x230 ≤ op ∧ op < 0x234 then .ok (.atomFadd (BitVec.ofNat 2 (op - 0x230)) (fieldsMA w)) else
  if 0x234 ≤ op ∧ op < 0x238 then .ok (.atomAdd64 (BitVec.ofNat 2 (op - 0x234)) (fieldsMA w)) else
  if op = 0x238 then .ok (.fenceE (fieldsA w)) else
  if op = 0x239 then .ok (.dfence (fieldsA w)) else
  if op = 0x23A then
    let f := fieldsA w
    if f.b = 0 then .ok (.drainst f) else
    if f.b = 1 then .ok (.sfrd f) else
    if f.b = 2 then .ok (.sfpop f) else
    if f.b = 3 then .ok (.sfcnt f) else
    .error (.reservedForm f.b)
  else
  .error (.reservedOpcode op)

/-- Maps, register blocks and sets, 0x240 to 0x27F (R133). -/
def decodeOps9 (op : Nat) (w : BitVec 32) : Except DecodeError Instr :=
  if op = 0x240 then .ok (.smap (fieldsA w)) else
  if op = 0x241 then .ok (.sunmap (fieldsA w)) else
  if op = 0x242 then .ok (.swb (fieldsA w)) else
  if op = 0x243 then .ok (.sinv (fieldsA w)) else
  if op = 0x244 then .ok (.xacq (fieldsA w)) else
  if op = 0x245 then .ok (.xrel (fieldsA w)) else
  if op = 0x246 then .ok (.xtry (fieldsA w)) else
  if op = 0x247 then .ok (.sdecl (fieldsA w)) else
  if op = 0x248 then .ok (.sleave (fieldsA w)) else
  if op = 0x249 then .ok (.sinfo (fieldsA w)) else
  .error (.reservedOpcode op)

/-- Barriers and the bridle, 0x280 to 0x2BF (R133). -/
def decodeOps10 (op : Nat) (w : BitVec 32) : Except DecodeError Instr :=
  if op = 0x280 then .ok (.binit (fieldsA w)) else
  if op = 0x281 then .ok (.barv (fieldsA w)) else
  if op = 0x282 then .ok (.bwait (fieldsA w)) else
  if op = 0x283 then .ok (.bsync (fieldsA w)) else
  if op = 0x284 then .ok (.bgen (fieldsA w)) else
  if op = 0x285 then .ok (.redb (fieldsA w)) else
  if op = 0x286 then .ok (.redw (fieldsA w)) else
  if op = 0x287 then .ok (.redq (fieldsA w)) else
  .error (.reservedOpcode op)

/-- Tile, 0x2C0 to 0x2FF (R133). -/
def decodeOps11 (op : Nat) (w : BitVec 32) : Except DecodeError Instr :=
  if op = 0x2C0 then .ok (.tmma (fieldsA w)) else
  if op = 0x2C1 then .ok (.tzero (fieldsA w)) else
  if op = 0x2C2 then .ok (.tres (fieldsA w)) else
  if op = 0x2C3 then .ok (.tcmp (fieldsA w)) else
  if 0x2C4 ≤ op ∧ op < 0x2C8 then .ok (.tdrain (BitVec.ofNat 2 (op - 0x2C4)) (fieldsA w)) else
  if op = 0x2C8 then .ok (.tcmpX (fieldsA w)) else
  if op = 0x2C9 then .ok (.tsave (fieldsA w)) else
  if op = 0x2CA then .ok (.tsaveC (fieldsA w)) else
  if op = 0x2CB then .ok (.tload (fieldsA w)) else
  if op = 0x2CC then .ok (.tplane (fieldsA w)) else
  if op = 0x2CD then
    let f := fieldsA w
    if f.b = 0 then .ok (.twait f) else
    if f.b = 1 then .ok (.twaitAll f) else
    .error (.reservedForm f.b)
  else
  if op = 0x2CE then .ok (.tstat (fieldsA w)) else
  if op = 0x2CF then .ok (.tmov (fieldsA w)) else
  .error (.reservedOpcode op)

/-- Engines, feeds, messages and market, 0x300 to 0x33F (R133). -/
def decodeOps12 (op : Nat) (w : BitVec 32) : Except DecodeError Instr :=
  if 0x300 ≤ op ∧ op < 0x304 then .ok (.cpy (BitVec.ofNat 2 (op - 0x300)) (fieldsA w)) else
  if op = 0x304 then .ok (.cpyN (fieldsA w)) else
  if op = 0x305 then .ok (.gath (fieldsA w)) else
  if op = 0x306 then .ok (.cseal (fieldsA w)) else
  if op = 0x307 then .ok (.cwait (fieldsI w)) else
  if op = 0x308 then .ok (.sleepP (fieldsA w)) else
  if op = 0x309 then .ok (.qfence (fieldsI w)) else
  if op = 0x30A then .ok (.coll (fieldsA w)) else
  if op = 0x30B then .ok (.leader (fieldsA w)) else
  if op = 0x30C then .ok (.wpop (fieldsA w)) else
  if op = 0x30D then .ok (.wpopSleep (fieldsA w)) else
  if op = 0x30E then .ok (.wpush (fieldsA w)) else
  if op = 0x30F then .ok (.wlen (fieldsA w)) else
  if op = 0x310 then .ok (.amsg (fieldsA w)) else
  if op = 0x311 then .ok (.ampoll (fieldsA w)) else
  if op = 0x312 then .ok (.amend (fieldsA w)) else
  if op = 0x318 then .ok (.bidset (fieldsA w)) else
  if op = 0x319 then .ok (.price (fieldsA w)) else
  if op = 0x31A then .ok (.bidget (fieldsA w)) else
  .error (.reservedOpcode op)

/-- System and trap, 0x340 to 0x37F (R133). -/
def decodeOps13 (op : Nat) (w : BitVec 32) : Except DecodeError Instr :=
  if op = 0x340 then .ok (.mfs (fieldsS w)) else
  if op = 0x341 then .ok (.mts (fieldsS w)) else
  if op = 0x342 then .ok (.trap (fieldsK w)) else
  if op = 0x343 then .ok (.rett (fieldsA w)) else
  if op = 0x344 then .ok (.brk (fieldsK w)) else
  if op = 0x345 then .ok (.dtload (fieldsI w)) else
  if op = 0x346 then .ok (.dtsel (fieldsI w)) else
  if op = 0x347 then .ok (.kchk (fieldsA w)) else
  if 0x348 ≤ op ∧ op < 0x350 then .ok (.kcanc (op.testBit 2) (BitVec.ofNat 2 op) (fieldsA w)) else
  if op = 0x350 then .ok (.probe (fieldsA w)) else
  if op = 0x351 then .ok (.tlbi (fieldsA w)) else
  if op = 0x352 then .ok (.icinv (fieldsA w)) else
  if op = 0x358 then .ok (.mcfgr (fieldsS w)) else
  if op = 0x359 then .ok (.mcfgw (fieldsS w)) else
  .error (.reservedOpcode op)

/-- The native opcode map, decode table 0 (R133): every opcode that is not listed is rejected by name. -/
def decodeNative (op : Nat) (w : BitVec 32) : Except DecodeError Instr :=
  match op / 64 with
  | 0 => decodeOps0 op w
  | 1 => decodeOps1 op w
  | 3 => decodeOps3 op w
  | 5 => decodeOps5 op w
  | 6 => decodeOps6 op w
  | 8 => decodeOps8 op w
  | 9 => decodeOps9 op w
  | 10 => decodeOps10 op w
  | 11 => decodeOps11 op w
  | 12 => decodeOps12 op w
  | 13 => decodeOps13 op w
  | _ => .error (.reservedOpcode op)

/-- The allocated native opcodes as ascending ranges `(first, last, format code)`, the format codes being those of R135. -/
def opRanges : List (Nat × Nat × Nat) :=
  [(0x000, 0x000, 2), (0x001, 0x001, 3), (0x002, 0x002, 0), (0x003, 0x003, 3), (0x004, 0x006, 0), (0x007, 0x008, 2)] ++
  [(0x009, 0x019, 0), (0x020, 0x029, 1), (0x030, 0x031, 0), (0x03F, 0x03F, 7), (0x040, 0x041, 0), (0x042, 0x042, 1)] ++
  [(0x043, 0x053, 0), (0x054, 0x056, 1), (0x057, 0x05E, 0), (0x05F, 0x060, 2), (0x061, 0x064, 0), (0x065, 0x065, 1)] ++
  [(0x066, 0x069, 0), (0x070, 0x077, 0), (0x0C0, 0x0DB, 0), (0x0E0, 0x0F7, 0), (0x140, 0x145, 0), (0x148, 0x166, 0)] ++
  [(0x168, 0x170, 0), (0x171, 0x173, 1), (0x174, 0x174, 0), (0x175, 0x175, 1), (0x180, 0x186, 4), (0x188, 0x18E, 4)] ++
  [(0x190, 0x196, 4), (0x198, 0x19C, 4), (0x1A0, 0x1A4, 4), (0x1A8, 0x1AC, 4), (0x1B0, 0x1B1, 4), (0x200, 0x237, 5)] ++
  [(0x238, 0x23A, 0), (0x240, 0x249, 0), (0x280, 0x287, 0), (0x2C0, 0x2CF, 0), (0x300, 0x306, 0), (0x307, 0x307, 1)] ++
  [(0x308, 0x308, 0), (0x309, 0x309, 1), (0x30A, 0x312, 0), (0x318, 0x31A, 0), (0x340, 0x341, 6), (0x342, 0x342, 2)] ++
  [(0x343, 0x343, 0), (0x344, 0x344, 2), (0x345, 0x346, 1), (0x347, 0x352, 0), (0x358, 0x359, 6)]

/-- The instruction a 32-bit word is under the native map. -/
def decode (w : BitVec 32) : Except DecodeError Instr := decodeNative (opField w) w

/-- The instruction at the head of a list of bytes, little-endian (R3), with the bytes after it. -/
def decodeBytes : List Byte → Except DecodeError (Instr × List Byte)
  | b0 :: b1 :: b2 :: b3 :: rest =>
    match decode (b3 ++ b2 ++ b1 ++ b0) with
    | .ok i => .ok (i, rest)
    | .error e => .error e
  | _ => .error .tooShort

/-- The four bytes of a word, lowest address first (R3). -/
def wordBytes (w : BitVec 32) : List Byte :=
  [w.extractLsb' 0 8, w.extractLsb' 8 8, w.extractLsb' 16 8, w.extractLsb' 24 8]

/-- The instruction the decoder reads from a word numbered as the opcode table numbers it; every word instruction has 32 bits. -/
def decodeTableWord (nbits w : Nat) : Option Instr :=
  if nbits > 32 then none else
  match decodeBytes (wordBytes (BitVec.ofNat 32 w)) with
  | .ok (i, _) => some i
  | .error _ => none


/-- Whether a native opcode is allocated (R133). -/
def opAllocated (op : Nat) : Bool := opRanges.any (fun r => decide (r.1 ≤ op ∧ op ≤ r.2.1))

/-- The internal operation number of an allocated native opcode: the number of allocated opcodes below it (R134). -/
def iopOf (op : Nat) : Nat := opRanges.foldl (fun n r => n + (min op (r.2.1 + 1) - min op r.1)) 0

/-- The native opcode of an internal operation, if it names one (R134). -/
def nativeOfIop (k : Nat) : Option Nat :=
  opRanges.foldl (fun acc r => match acc with
    | some n => some n
    | none => if iopOf r.1 ≤ k ∧ k < iopOf (r.2.1 + 1) then some (r.1 + (k - iopOf r.1)) else none) none

/-- The format code of an allocated native opcode (R134, R135). -/
def formatOf (op : Nat) : Option Nat :=
  (opRanges.find? (fun r => decide (r.1 ≤ op ∧ op ≤ r.2.1))).map (fun r => r.2.2)

/-- A word read through an entry of a decode table (R135): `none` raises ILL, as V = 0 does. -/
def decodeEntry (e : Nat) (w : BitVec 32) : Option Instr :=
  if e.testBit 12 then
    match nativeOfIop (e % 512) with
    | some op => match decodeNative op w with
      | .ok i => some i
      | .error _ => none
    | none => none
  else none

/-! ### The encoder -/

def bit1 (b : Bool) : BitVec 1 := BitVec.ofBool b

def packA (op : Nat) (f : WA) : BitVec 32 :=
  bit1 f.c ++ bit1 f.s ++ BitVec.ofNat 10 op ++ f.sc ++ f.pr ++ bit1 f.h ++ f.d ++ f.a ++ f.b
def packI (op : Nat) (f : WI) : BitVec 32 :=
  bit1 f.c ++ bit1 f.s ++ BitVec.ofNat 10 op ++ f.sc ++ f.pr ++ f.d ++ f.a ++ f.k
def packK (op : Nat) (f : WK) : BitVec 32 := bit1 f.c ++ bit1 f.s ++ BitVec.ofNat 10 op ++ f.pr ++ f.d ++ f.k
def packJ (op : Nat) (f : WJ) : BitVec 32 := bit1 f.c ++ bit1 f.s ++ BitVec.ofNat 10 op ++ f.pr ++ f.off
def packM (op : Nat) (f : WM) : BitVec 32 :=
  bit1 f.c ++ bit1 f.s ++ BitVec.ofNat 10 op ++ f.sc ++ f.pr ++ f.d ++ f.a ++ f.off
def packMA (op : Nat) (f : WMA) : BitVec 32 :=
  bit1 f.c ++ bit1 f.s ++ BitVec.ofNat 10 op ++ f.mo ++ f.pr ++ bit1 f.h ++ f.d ++ f.a ++ f.b
def packS (op : Nat) (f : WS) : BitVec 32 :=
  bit1 f.c ++ bit1 f.s ++ BitVec.ofNat 10 op ++ f.sc ++ f.pr ++ f.d ++ f.sreg
def packP (op : Nat) (f : WP) : BitVec 32 :=
  bit1 f.c ++ bit1 f.s ++ BitVec.ofNat 10 op ++ f.cnt ++ f.sd ++ f.sa ++ f.sb ++ f.zero

/-- The native opcode of a word instruction; an event or command has none (R133). -/
def opcodeOf : Instr → Option Nat
  | .nop _ => some 0x000
  | .bra _ => some 0x001
  | .brx _ => some 0x002
  | .call _ => some 0x003
  | .callx _ => some 0x004
  | .ret _ => some 0x005
  | .exit _ => some 0x006
  | .yield _ => some 0x007
  | .sleep _ => some 0x008
  | .pand _ => some 0x009
  | .por _ => some 0x00A
  | .pxor _ => some 0x00B
  | .pnot _ => some 0x00C
  | .voteAny _ => some 0x00D
  | .voteAll _ => some 0x00E
  | .voteBal _ => some 0x00F
  | .pset cond _ => some (0x010 + cond.toNat)
  | .psetk cond _ => some (0x020 + cond.toNat)
  | .prd _ => some 0x030
  | .pwr _ => some 0x031
  | .rep _ => some 0x03F
  | .add _ => some 0x040
  | .sub _ => some 0x041
  | .addk _ => some 0x042
  | .adds _ => some 0x043
  | .subs _ => some 0x044
  | .mul _ => some 0x045
  | .mulh _ => some 0x046
  | .mulhu _ => some 0x047
  | .mad _ => some 0x048
  | .min _ => some 0x049
  | .max _ => some 0x04A
  | .minu _ => some 0x04B
  | .maxu _ => some 0x04C
  | .and _ => some 0x04D
  | .or _ => some 0x04E
  | .xor _ => some 0x04F
  | .andn _ => some 0x050
  | .shl _ => some 0x051
  | .shr _ => some 0x052
  | .sar _ => some 0x053
  | .shli _ => some 0x054
  | .shri _ => some 0x055
  | .sari _ => some 0x056
  | .sel _ => some 0x057
  | .popc _ => some 0x058
  | .clz _ => some 0x059
  | .brev _ => some 0x05A
  | .bfx _ => some 0x05B
  | .bfxs _ => some 0x05C
  | .bfi _ => some 0x05D
  | .mov _ => some 0x05E
  | .movk _ => some 0x05F
  | .shlk _ => some 0x060
  | .movg _ => some 0x061
  | .movw _ => some 0x062
  | .add64 _ => some 0x063
  | .sub64 _ => some 0x064
  | .addk64 _ => some 0x065
  | .shl64 _ => some 0x066
  | .shr64 _ => some 0x067
  | .sext64 _ => some 0x068
  | .zext64 _ => some 0x069
  | .lea sh _ => some (0x070 + sh.toNat)
  | .fadd rm _ => some (0x0C0 + rm.toNat)
  | .fsub rm _ => some (0x0C4 + rm.toNat)
  | .fmul rm _ => some (0x0C8 + rm.toNat)
  | .ffma rm _ => some (0x0CC + rm.toNat)
  | .fmin _ => some 0x0D0
  | .fmax _ => some 0x0D1
  | .fabs _ => some 0x0D2
  | .fneg _ => some 0x0D3
  | .fsetEqToLe cond _ => some (0x0D4 + cond.toNat)
  | .fsetGtToOr cond _ => some (0x0D8 + cond.toNat)
  | .hadd2 rm _ => some (0x0E0 + rm.toNat)
  | .hsub2 rm _ => some (0x0E4 + rm.toNat)
  | .hmul2 rm _ => some (0x0E8 + rm.toNat)
  | .hfma2 rm _ => some (0x0EC + rm.toNat)
  | .hmin2 _ => some 0x0F0
  | .hmax2 _ => some 0x0F1
  | .habs2 _ => some 0x0F2
  | .hneg2 _ => some 0x0F3
  | .hdot2 rm _ => some (0x0F4 + rm.toNat)
  | .cvtBf16F32 rm _ => some (0x140 + rm.toNat)
  | .cvtF32Bf16l _ => some 0x144
  | .cvtF32Bf16h _ => some 0x145
  | .cvtE4m3Bf16 rm _ => some (0x148 + rm.toNat)
  | .cvtE5m2Bf16 rm _ => some (0x14C + rm.toNat)
  | .cvtBf16E4m3l _ => some 0x150
  | .cvtBf16E4m3h _ => some 0x151
  | .cvtBf16E5m2l _ => some 0x152
  | .cvtBf16E5m2h _ => some 0x153
  | .cvtS32F32 rm _ => some (0x154 + rm.toNat)
  | .cvtU32F32 rm _ => some (0x158 + rm.toNat)
  | .cvtF32S32 rm _ => some (0x15C + rm.toNat)
  | .cvtF32U32 rm _ => some (0x160 + rm.toNat)
  | .cvtS4S8 _ => some 0x164
  | .cvtS8S4l _ => some 0x165
  | .cvtS8S4h _ => some 0x166
  | .frred _ => some 0x168
  | .fsinr _ => some 0x169
  | .fcosr _ => some 0x16A
  | .fexp2 _ => some 0x16B
  | .flog2 _ => some 0x16C
  | .frcp _ => some 0x16D
  | .frsq _ => some 0x16E
  | .fsqrt _ => some 0x16F
  | .lswpP _ => some 0x170
  | .lshf _ => some 0x171
  | .lbcast _ => some 0x172
  | .lxor _ => some 0x173
  | .lidx _ => some 0x174
  | .lrot _ => some 0x175
  | .ldG sz _ => some (0x180 + sz.toNat)
  | .ldS sz _ => some (0x188 + sz.toNat)
  | .ldE sz _ => some (0x190 + sz.toNat)
  | .stG sz _ => some (0x198 + sz.toNat)
  | .stS sz _ => some (0x1A0 + sz.toNat)
  | .stE sz _ => some (0x1A8 + sz.toNat)
  | .prefL1 _ => some 0x1B0
  | .prefL2 _ => some 0x1B1
  | .atomAdd ms _ => some (0x200 + ms.toNat)
  | .atomMin ms _ => some (0x204 + ms.toNat)
  | .atomMax ms _ => some (0x208 + ms.toNat)
  | .atomMinu ms _ => some (0x20C + ms.toNat)
  | .atomMaxu ms _ => some (0x210 + ms.toNat)
  | .atomAnd ms _ => some (0x214 + ms.toNat)
  | .atomOr ms _ => some (0x218 + ms.toNat)
  | .atomXor ms _ => some (0x21C + ms.toNat)
  | .atomExch ms _ => some (0x220 + ms.toNat)
  | .atomCas ms _ => some (0x224 + ms.toNat)
  | .atomLd ms _ => some (0x228 + ms.toNat)
  | .atomSt ms _ => some (0x22C + ms.toNat)
  | .atomFadd ms _ => some (0x230 + ms.toNat)
  | .atomAdd64 ms _ => some (0x234 + ms.toNat)
  | .fenceE _ => some 0x238
  | .dfence _ => some 0x239
  | .drainst _ => some 0x23A
  | .sfrd _ => some 0x23A
  | .sfpop _ => some 0x23A
  | .sfcnt _ => some 0x23A
  | .smap _ => some 0x240
  | .sunmap _ => some 0x241
  | .swb _ => some 0x242
  | .sinv _ => some 0x243
  | .xacq _ => some 0x244
  | .xrel _ => some 0x245
  | .xtry _ => some 0x246
  | .sdecl _ => some 0x247
  | .sleave _ => some 0x248
  | .sinfo _ => some 0x249
  | .binit _ => some 0x280
  | .barv _ => some 0x281
  | .bwait _ => some 0x282
  | .bsync _ => some 0x283
  | .bgen _ => some 0x284
  | .redb _ => some 0x285
  | .redw _ => some 0x286
  | .redq _ => some 0x287
  | .tmma _ => some 0x2C0
  | .tzero _ => some 0x2C1
  | .tres _ => some 0x2C2
  | .tcmp _ => some 0x2C3
  | .tdrain rm _ => some (0x2C4 + rm.toNat)
  | .tcmpX _ => some 0x2C8
  | .tsave _ => some 0x2C9
  | .tsaveC _ => some 0x2CA
  | .tload _ => some 0x2CB
  | .tplane _ => some 0x2CC
  | .twait _ => some 0x2CD
  | .twaitAll _ => some 0x2CD
  | .tstat _ => some 0x2CE
  | .tmov _ => some 0x2CF
  | .cpy q _ => some (0x300 + q.toNat)
  | .cpyN _ => some 0x304
  | .gath _ => some 0x305
  | .cseal _ => some 0x306
  | .cwait _ => some 0x307
  | .sleepP _ => some 0x308
  | .qfence _ => some 0x309
  | .coll _ => some 0x30A
  | .leader _ => some 0x30B
  | .wpop _ => some 0x30C
  | .wpopSleep _ => some 0x30D
  | .wpush _ => some 0x30E
  | .wlen _ => some 0x30F
  | .amsg _ => some 0x310
  | .ampoll _ => some 0x311
  | .amend _ => some 0x312
  | .bidset _ => some 0x318
  | .price _ => some 0x319
  | .bidget _ => some 0x31A
  | .mfs _ => some 0x340
  | .mts _ => some 0x341
  | .trap _ => some 0x342
  | .rett _ => some 0x343
  | .brk _ => some 0x344
  | .dtload _ => some 0x345
  | .dtsel _ => some 0x346
  | .kchk _ => some 0x347
  | .kcanc hard lv _ => some (0x348 + (if hard then 4 else 0) + lv.toNat)
  | .probe _ => some 0x350
  | .tlbi _ => some 0x351
  | .icinv _ => some 0x352
  | .mcfgr _ => some 0x358
  | .mcfgw _ => some 0x359
  | .create => none
  | .activate => none
  | .suspend => none
  | .resume => none
  | .destroy => none
  | .migrate => none
  | .contextCommandComplete => none
  | .migrationComplete => none
  | .migrationAborted => none
  | .vfcfgWrite => none
  | .watchdogExpiry => none
  | .resetComplete => none
  | .noticeAppend => none
  | .energyPeriodBoundary => none
  | .sealing => none
  | .publication => none
  | .intervalBoundary => none
  | .handoverEnd => none
  | .priceExchangeReceived => none
  | .peerPriceEntryExpiry => none
  | .doorbell => none
  | .qcfgWrite => none
  | .retry => none
  | .skip => none
  | .rafterEventTake => none
  | .launchPacket => none
  | .feedPacket => none
  | .fencePacket => none
  | .waitPacket => none
  | .waitReevaluation => none
  | .waitTimeout => none
  | .indirectPacket => none
  | .copyPacket => none
  | .signalPacket => none
  | .cancelPacket => none
  | .markPacket => none
  | .dtloadPacket => none
  | .dispatchDecision => none
  | .powerGatingBegin => none
  | .gatingCommit => none
  | .coreWake => none
  | .blockExit => none
  | .blockResume => none
  | .trapEntry => none
  | .switchMarkerComplete => none
  | .loadResultReturn => none
  | .sleepWake => none
  | .yieldEnd => none
  | .storeQueuePerform => none
  | .mapFillComplete => none
  | .engineOperationTurn => none
  | .engineOperationComplete => none
  | .promiseWake => none
  | .tmmaTurn => none
  | .tzeroTurn => none
  | .tresTurn => none
  | .tcmpTurn => none
  | .tcmpXTurn => none
  | .tdrainTurn => none
  | .tsaveTurn => none
  | .tsaveCTurn => none
  | .tloadTurn => none
  | .tplaneTurn => none
  | .tmovTurn => none
  | .bridleGenerationComplete => none
  | .pageReWalk => none
  | .pageRequest => none
  | .prqdoneWrite => none
  | .gutterDrain => none
  | .pageMove => none
  | .pageMoveComplete => none
  | .tlbih => none
  | .tlbiCompletion => none
  | .frrCommit => none
  | .portEnable => none
  | .portDisable => none
  | .retrain => none
  | .portDrain => none
  | .trainingAttemptEnd => none
  | .laneFailure => none
  | .drainingEnd => none
  | .flitReceived => none
  | .linkRetryRequest => none
  | .deviceUnreachable => none
  | .peerRequestArrival => none
  | .peerResponseArrival => none
  | .messageArrival => none
  | .messageAnswerArrival => none
  | .collFragmentArrival => none
  | .ethernetFrameReceived => none
  | .perrRead => none
  | .pdiscRead => none
  | .nsqNdiscRead => none
  | .hostLinkWrite => none
  | .l2RequestAccept => none
  | .l2LineReturn => none
  | .dbgctlWrite => none
  | .drelRun => none
  | .drelStep => none
  | .daccRead => none
  | .daccWrite => none
  | .traceRecordWrite => none
  | .sampleTake => none
  | .sensorSample => none
  | .supplyUpdate => none
  | .throttleEvaluation => none
  | .powerExcursion => none
  | .excursionHoldEnd => none
  | .telemetrySnapshot => none
  | .thermalTrip => none
  | .functionLevelReset => none
  | .powerUp => none
  | .boot => none
  | .attestationRequest => none
  | .correctedSoftError => none
  | .uncorrectableSoftError => none
  | .sercntRead => none
  | .registerWrite => none
  | .engineOperationStop => none
  | .icinvCompletion => none
  | .attestationReportWritten => none
  | .hostLinkTraining => none
  | .gtsSynchronisation => none
  | .packetRetransmission => none

/-- The encoder: the word of an instruction, from the layouts of R125 and the opcodes of R133; an event or command has no encoding. -/
def encode : Instr → Option (BitVec 32)
  | .nop f => some (packK 0x000 f)
  | .bra f => some (packJ 0x001 f)
  | .brx f => some (packA 0x002 f)
  | .call f => some (packJ 0x003 f)
  | .callx f => some (packA 0x004 f)
  | .ret f => some (packA 0x005 f)
  | .exit f => some (packA 0x006 f)
  | .yield f => some (packK 0x007 f)
  | .sleep f => some (packK 0x008 f)
  | .pand f => some (packA 0x009 f)
  | .por f => some (packA 0x00A f)
  | .pxor f => some (packA 0x00B f)
  | .pnot f => some (packA 0x00C f)
  | .voteAny f => some (packA 0x00D f)
  | .voteAll f => some (packA 0x00E f)
  | .voteBal f => some (packA 0x00F f)
  | .pset cond f => some (packA (0x010 + cond.toNat) f)
  | .psetk cond f => some (packI (0x020 + cond.toNat) f)
  | .prd f => some (packA 0x030 f)
  | .pwr f => some (packA 0x031 f)
  | .rep f => some (packP 0x03F f)
  | .add f => some (packA 0x040 f)
  | .sub f => some (packA 0x041 f)
  | .addk f => some (packI 0x042 f)
  | .adds f => some (packA 0x043 f)
  | .subs f => some (packA 0x044 f)
  | .mul f => some (packA 0x045 f)
  | .mulh f => some (packA 0x046 f)
  | .mulhu f => some (packA 0x047 f)
  | .mad f => some (packA 0x048 f)
  | .min f => some (packA 0x049 f)
  | .max f => some (packA 0x04A f)
  | .minu f => some (packA 0x04B f)
  | .maxu f => some (packA 0x04C f)
  | .and f => some (packA 0x04D f)
  | .or f => some (packA 0x04E f)
  | .xor f => some (packA 0x04F f)
  | .andn f => some (packA 0x050 f)
  | .shl f => some (packA 0x051 f)
  | .shr f => some (packA 0x052 f)
  | .sar f => some (packA 0x053 f)
  | .shli f => some (packI 0x054 f)
  | .shri f => some (packI 0x055 f)
  | .sari f => some (packI 0x056 f)
  | .sel f => some (packA 0x057 f)
  | .popc f => some (packA 0x058 f)
  | .clz f => some (packA 0x059 f)
  | .brev f => some (packA 0x05A f)
  | .bfx f => some (packA 0x05B f)
  | .bfxs f => some (packA 0x05C f)
  | .bfi f => some (packA 0x05D f)
  | .mov f => some (packA 0x05E f)
  | .movk f => some (packK 0x05F f)
  | .shlk f => some (packK 0x060 f)
  | .movg f => some (packA 0x061 f)
  | .movw f => some (packA 0x062 f)
  | .add64 f => some (packA 0x063 f)
  | .sub64 f => some (packA 0x064 f)
  | .addk64 f => some (packI 0x065 f)
  | .shl64 f => some (packA 0x066 f)
  | .shr64 f => some (packA 0x067 f)
  | .sext64 f => some (packA 0x068 f)
  | .zext64 f => some (packA 0x069 f)
  | .lea sh f => some (packA (0x070 + sh.toNat) f)
  | .fadd rm f => some (packA (0x0C0 + rm.toNat) f)
  | .fsub rm f => some (packA (0x0C4 + rm.toNat) f)
  | .fmul rm f => some (packA (0x0C8 + rm.toNat) f)
  | .ffma rm f => some (packA (0x0CC + rm.toNat) f)
  | .fmin f => some (packA 0x0D0 f)
  | .fmax f => some (packA 0x0D1 f)
  | .fabs f => some (packA 0x0D2 f)
  | .fneg f => some (packA 0x0D3 f)
  | .fsetEqToLe cond f => some (packA (0x0D4 + cond.toNat) f)
  | .fsetGtToOr cond f => some (packA (0x0D8 + cond.toNat) f)
  | .hadd2 rm f => some (packA (0x0E0 + rm.toNat) f)
  | .hsub2 rm f => some (packA (0x0E4 + rm.toNat) f)
  | .hmul2 rm f => some (packA (0x0E8 + rm.toNat) f)
  | .hfma2 rm f => some (packA (0x0EC + rm.toNat) f)
  | .hmin2 f => some (packA 0x0F0 f)
  | .hmax2 f => some (packA 0x0F1 f)
  | .habs2 f => some (packA 0x0F2 f)
  | .hneg2 f => some (packA 0x0F3 f)
  | .hdot2 rm f => some (packA (0x0F4 + rm.toNat) f)
  | .cvtBf16F32 rm f => some (packA (0x140 + rm.toNat) f)
  | .cvtF32Bf16l f => some (packA 0x144 f)
  | .cvtF32Bf16h f => some (packA 0x145 f)
  | .cvtE4m3Bf16 rm f => some (packA (0x148 + rm.toNat) f)
  | .cvtE5m2Bf16 rm f => some (packA (0x14C + rm.toNat) f)
  | .cvtBf16E4m3l f => some (packA 0x150 f)
  | .cvtBf16E4m3h f => some (packA 0x151 f)
  | .cvtBf16E5m2l f => some (packA 0x152 f)
  | .cvtBf16E5m2h f => some (packA 0x153 f)
  | .cvtS32F32 rm f => some (packA (0x154 + rm.toNat) f)
  | .cvtU32F32 rm f => some (packA (0x158 + rm.toNat) f)
  | .cvtF32S32 rm f => some (packA (0x15C + rm.toNat) f)
  | .cvtF32U32 rm f => some (packA (0x160 + rm.toNat) f)
  | .cvtS4S8 f => some (packA 0x164 f)
  | .cvtS8S4l f => some (packA 0x165 f)
  | .cvtS8S4h f => some (packA 0x166 f)
  | .frred f => some (packA 0x168 f)
  | .fsinr f => some (packA 0x169 f)
  | .fcosr f => some (packA 0x16A f)
  | .fexp2 f => some (packA 0x16B f)
  | .flog2 f => some (packA 0x16C f)
  | .frcp f => some (packA 0x16D f)
  | .frsq f => some (packA 0x16E f)
  | .fsqrt f => some (packA 0x16F f)
  | .lswpP f => some (packA 0x170 f)
  | .lshf f => some (packI 0x171 f)
  | .lbcast f => some (packI 0x172 f)
  | .lxor f => some (packI 0x173 f)
  | .lidx f => some (packA 0x174 f)
  | .lrot f => some (packI 0x175 f)
  | .ldG sz f => some (packM (0x180 + sz.toNat) f)
  | .ldS sz f => some (packM (0x188 + sz.toNat) f)
  | .ldE sz f => some (packM (0x190 + sz.toNat) f)
  | .stG sz f => some (packM (0x198 + sz.toNat) f)
  | .stS sz f => some (packM (0x1A0 + sz.toNat) f)
  | .stE sz f => some (packM (0x1A8 + sz.toNat) f)
  | .prefL1 f => some (packM 0x1B0 f)
  | .prefL2 f => some (packM 0x1B1 f)
  | .atomAdd ms f => some (packMA (0x200 + ms.toNat) f)
  | .atomMin ms f => some (packMA (0x204 + ms.toNat) f)
  | .atomMax ms f => some (packMA (0x208 + ms.toNat) f)
  | .atomMinu ms f => some (packMA (0x20C + ms.toNat) f)
  | .atomMaxu ms f => some (packMA (0x210 + ms.toNat) f)
  | .atomAnd ms f => some (packMA (0x214 + ms.toNat) f)
  | .atomOr ms f => some (packMA (0x218 + ms.toNat) f)
  | .atomXor ms f => some (packMA (0x21C + ms.toNat) f)
  | .atomExch ms f => some (packMA (0x220 + ms.toNat) f)
  | .atomCas ms f => some (packMA (0x224 + ms.toNat) f)
  | .atomLd ms f => some (packMA (0x228 + ms.toNat) f)
  | .atomSt ms f => some (packMA (0x22C + ms.toNat) f)
  | .atomFadd ms f => some (packMA (0x230 + ms.toNat) f)
  | .atomAdd64 ms f => some (packMA (0x234 + ms.toNat) f)
  | .fenceE f => some (packA 0x238 f)
  | .dfence f => some (packA 0x239 f)
  | .drainst f => some (packA 0x23A f)
  | .sfrd f => some (packA 0x23A f)
  | .sfpop f => some (packA 0x23A f)
  | .sfcnt f => some (packA 0x23A f)
  | .smap f => some (packA 0x240 f)
  | .sunmap f => some (packA 0x241 f)
  | .swb f => some (packA 0x242 f)
  | .sinv f => some (packA 0x243 f)
  | .xacq f => some (packA 0x244 f)
  | .xrel f => some (packA 0x245 f)
  | .xtry f => some (packA 0x246 f)
  | .sdecl f => some (packA 0x247 f)
  | .sleave f => some (packA 0x248 f)
  | .sinfo f => some (packA 0x249 f)
  | .binit f => some (packA 0x280 f)
  | .barv f => some (packA 0x281 f)
  | .bwait f => some (packA 0x282 f)
  | .bsync f => some (packA 0x283 f)
  | .bgen f => some (packA 0x284 f)
  | .redb f => some (packA 0x285 f)
  | .redw f => some (packA 0x286 f)
  | .redq f => some (packA 0x287 f)
  | .tmma f => some (packA 0x2C0 f)
  | .tzero f => some (packA 0x2C1 f)
  | .tres f => some (packA 0x2C2 f)
  | .tcmp f => some (packA 0x2C3 f)
  | .tdrain rm f => some (packA (0x2C4 + rm.toNat) f)
  | .tcmpX f => some (packA 0x2C8 f)
  | .tsave f => some (packA 0x2C9 f)
  | .tsaveC f => some (packA 0x2CA f)
  | .tload f => some (packA 0x2CB f)
  | .tplane f => some (packA 0x2CC f)
  | .twait f => some (packA 0x2CD f)
  | .twaitAll f => some (packA 0x2CD f)
  | .tstat f => some (packA 0x2CE f)
  | .tmov f => some (packA 0x2CF f)
  | .cpy q f => some (packA (0x300 + q.toNat) f)
  | .cpyN f => some (packA 0x304 f)
  | .gath f => some (packA 0x305 f)
  | .cseal f => some (packA 0x306 f)
  | .cwait f => some (packI 0x307 f)
  | .sleepP f => some (packA 0x308 f)
  | .qfence f => some (packI 0x309 f)
  | .coll f => some (packA 0x30A f)
  | .leader f => some (packA 0x30B f)
  | .wpop f => some (packA 0x30C f)
  | .wpopSleep f => some (packA 0x30D f)
  | .wpush f => some (packA 0x30E f)
  | .wlen f => some (packA 0x30F f)
  | .amsg f => some (packA 0x310 f)
  | .ampoll f => some (packA 0x311 f)
  | .amend f => some (packA 0x312 f)
  | .bidset f => some (packA 0x318 f)
  | .price f => some (packA 0x319 f)
  | .bidget f => some (packA 0x31A f)
  | .mfs f => some (packS 0x340 f)
  | .mts f => some (packS 0x341 f)
  | .trap f => some (packK 0x342 f)
  | .rett f => some (packA 0x343 f)
  | .brk f => some (packK 0x344 f)
  | .dtload f => some (packI 0x345 f)
  | .dtsel f => some (packI 0x346 f)
  | .kchk f => some (packA 0x347 f)
  | .kcanc hard lv f => some (packA (0x348 + (if hard then 4 else 0) + lv.toNat) f)
  | .probe f => some (packA 0x350 f)
  | .tlbi f => some (packA 0x351 f)
  | .icinv f => some (packA 0x352 f)
  | .mcfgr f => some (packS 0x358 f)
  | .mcfgw f => some (packS 0x359 f)
  | .create => none
  | .activate => none
  | .suspend => none
  | .resume => none
  | .destroy => none
  | .migrate => none
  | .contextCommandComplete => none
  | .migrationComplete => none
  | .migrationAborted => none
  | .vfcfgWrite => none
  | .watchdogExpiry => none
  | .resetComplete => none
  | .noticeAppend => none
  | .energyPeriodBoundary => none
  | .sealing => none
  | .publication => none
  | .intervalBoundary => none
  | .handoverEnd => none
  | .priceExchangeReceived => none
  | .peerPriceEntryExpiry => none
  | .doorbell => none
  | .qcfgWrite => none
  | .retry => none
  | .skip => none
  | .rafterEventTake => none
  | .launchPacket => none
  | .feedPacket => none
  | .fencePacket => none
  | .waitPacket => none
  | .waitReevaluation => none
  | .waitTimeout => none
  | .indirectPacket => none
  | .copyPacket => none
  | .signalPacket => none
  | .cancelPacket => none
  | .markPacket => none
  | .dtloadPacket => none
  | .dispatchDecision => none
  | .powerGatingBegin => none
  | .gatingCommit => none
  | .coreWake => none
  | .blockExit => none
  | .blockResume => none
  | .trapEntry => none
  | .switchMarkerComplete => none
  | .loadResultReturn => none
  | .sleepWake => none
  | .yieldEnd => none
  | .storeQueuePerform => none
  | .mapFillComplete => none
  | .engineOperationTurn => none
  | .engineOperationComplete => none
  | .promiseWake => none
  | .tmmaTurn => none
  | .tzeroTurn => none
  | .tresTurn => none
  | .tcmpTurn => none
  | .tcmpXTurn => none
  | .tdrainTurn => none
  | .tsaveTurn => none
  | .tsaveCTurn => none
  | .tloadTurn => none
  | .tplaneTurn => none
  | .tmovTurn => none
  | .bridleGenerationComplete => none
  | .pageReWalk => none
  | .pageRequest => none
  | .prqdoneWrite => none
  | .gutterDrain => none
  | .pageMove => none
  | .pageMoveComplete => none
  | .tlbih => none
  | .tlbiCompletion => none
  | .frrCommit => none
  | .portEnable => none
  | .portDisable => none
  | .retrain => none
  | .portDrain => none
  | .trainingAttemptEnd => none
  | .laneFailure => none
  | .drainingEnd => none
  | .flitReceived => none
  | .linkRetryRequest => none
  | .deviceUnreachable => none
  | .peerRequestArrival => none
  | .peerResponseArrival => none
  | .messageArrival => none
  | .messageAnswerArrival => none
  | .collFragmentArrival => none
  | .ethernetFrameReceived => none
  | .perrRead => none
  | .pdiscRead => none
  | .nsqNdiscRead => none
  | .hostLinkWrite => none
  | .l2RequestAccept => none
  | .l2LineReturn => none
  | .dbgctlWrite => none
  | .drelRun => none
  | .drelStep => none
  | .daccRead => none
  | .daccWrite => none
  | .traceRecordWrite => none
  | .sampleTake => none
  | .sensorSample => none
  | .supplyUpdate => none
  | .throttleEvaluation => none
  | .powerExcursion => none
  | .excursionHoldEnd => none
  | .telemetrySnapshot => none
  | .thermalTrip => none
  | .functionLevelReset => none
  | .powerUp => none
  | .boot => none
  | .attestationRequest => none
  | .correctedSoftError => none
  | .uncorrectableSoftError => none
  | .sercntRead => none
  | .registerWrite => none
  | .engineOperationStop => none
  | .icinvCompletion => none
  | .attestationReportWritten => none
  | .hostLinkTraining => none
  | .gtsSynchronisation => none
  | .packetRetransmission => none

end Sys2Proof
end

