-- ==== Sys2Proof/Machine/Issue.lean ====
section
/-!
DEFINITION. From a group to an issue (05_encoding.md R118 to R123, R128, R131, R136; 10_group.md R252 to R256, R262): fetch through
translation, decoding through the selected table, the chain and REP rules, rendezvous, SCOPE deadlocks, eligibility and choice; and the
stops of the debugger (20_observe.md R461 to R463).
-/

namespace Sys2Proof.Machine

/-! ### Fetch and decode -/

/-- A word as fetched: its PC, its bits, what it decodes to, and its opcode and IOP. -/
structure FWord where
  pc : Nat
  raw : BitVec 32
  ins : Option Instr
  op : Nat
  iop : Nat
deriving DecidableEq, Repr

/-- Decoding through table `sel` of a context (R134 to R136). -/
def decodeSel (c : Ctx) (sel : Nat) (w : BitVec 32) : Option Instr × Nat :=
  let op := opField w
  if sel = 0 then
    (match decode w with | .ok i => some i | .error _ => none, iopOf op)
  else
    let e := tget 0 (tget [] c.slots sel) op
    (decodeEntry e w, e % 512)

/-- The outcome of reading a code word. -/
inductive FetchRes where
  | word (w : BitVec 32)
  | wait (stage : Nat) (need : Lack)
  | fault (syn det : Nat)
deriving DecidableEq, Repr

/-- Reads the word at a PC (R118, 12 R298); a plane window refuses a fetch as it refuses any access of a core (03 R86, log 32). -/
def fetchWord (s : State) (ctx priv pc : Nat) : FetchRes :=
  match translate s ctx (vaOf pc) aFETCH priv with
  | .wait _ stage _ need => .wait stage need
  | .fault k stage lvl => .fault (syndrome aFETCH lvl stage k) 0
  | .remote k stage lvl => .fault (if k = 0 then 0 else syndrome aFETCH lvl stage k) 0x0D
  | .ok dev pa _ =>
    if !peerUp s dev then .fault 0 0x0D
    else if pa.testBit 39 then .fault 0 0x0B
    else if dev ≠ s.devNo then
      -- R97, R118: the part of the packet that lies in the word's line comes by one request (log 73)
      let lo := max (pc / 12 * 12) (pc / 128 * 128)
      let hi := min (pc / 12 * 12 + 12) (pc / 128 * 128 + 128)
      match peerRead s dev (pa - (pc - lo)) (hi - lo) with
      | .done bs => .word (BitVec.ofNat 32 (leNat ((bs.drop (pc - lo)).take 4)))
      | .wait _ stage _ need => .wait stage need
      | .fail syn det => .fault syn det
    else if windowBars s (s.ctx ctx).vf pa 4 false then .fault 0 0x0C
    else .word (BitVec.ofNat 32 (leNat (physRead s dev pa 4)))

/-- The outcome of reading an issue. -/
inductive GatherRes where
  | ok (ws : List FWord)
  | wait (pc stage : Nat) (need : Lack)
  | fault (pc syn det : Nat)
deriving DecidableEq, Repr

def FWord.c (w : FWord) : Bool := w.raw.getLsbD 31
def FWord.s (w : FWord) : Bool := w.raw.getLsbD 30

def isRepWord (w : FWord) : Bool := match w.ins with | some (.rep _) => true | _ => false

/-- Reads the words of the issue whose head is at a PC: the words joined by C, and the word after a REP prefix; one that C joins to the repeated
word too, though such an issue only traps (R120, R122, R131). -/
def gather (s : State) (ctx priv sel : Nat) : Nat → Nat → Bool → GatherRes
  | 0, _, _ => .ok []
  | fuel + 1, pc, rep =>
    match fetchWord s ctx priv pc with
    | .wait stage need => .wait pc stage need
    | .fault syn det => .fault pc syn det
    | .word raw =>
      let d := decodeSel (s.ctx ctx) sel raw
      let w : FWord := ⟨pc, raw, d.1, opField raw, d.2⟩
      let more := (isRepWord w && !rep && !w.c) || (w.c && decide (pc % 12 ≠ 8))
      if !more then .ok [w]
      else match gather s ctx priv sel fuel (pc + 4) (rep || (isRepWord w && !w.c)) with
        | .ok ws => .ok (w :: ws)
        | r => r

/-- The first word of the packet of a PC that waits to be fetched: a group gets whole packets (R118). -/
def packetWait (s : State) (ctx priv pc : Nat) : Option (Nat × Nat × Lack) :=
  ((upto 3).map (fun k => pc / 12 * 12 + 4 * k)).findSome? (fun a => match fetchWord s ctx priv a with
    | .wait stage need => some (a, stage, need)
    | _ => none)

/-- Fetches the issue whose head is at a PC, with the packets that hold it; a word that no issue asks for faults nothing (R118, 12 R298, log 73). -/
def fetchIssue (s : State) (ctx priv sel head : Nat) : GatherRes :=
  match packetWait s ctx priv head with
  | some (a, stage, need) => .wait a stage need
  | none =>
    match gather s ctx priv sel 6 head false with
    | .ok ws =>
      let last := (ws.getLast?.map FWord.pc).getD head
      (match if last / 12 = head / 12 then none else packetWait s ctx priv last with
      | some (a, stage, need) => .wait a stage need
      | none => .ok ws)
    | r => r

/-! ### The rules of a whole issue (R120, R122, R131) -/

/-- What an issue consists of: its words, the repeated word apart when a REP heads it. -/
structure IssueForm where
  words : List FWord
  rep : Option WP := none
deriving DecidableEq, Repr

def issueForm (ws : List FWord) : IssueForm :=
  match ws with
  | w :: rest => match w.ins with
    | some (.rep f) => if rest.isEmpty then { words := ws } else
        { words := rest, rep := some f }
    | _ => { words := ws }
  | [] => { words := [] }

/-- Bit position of field D, A or B in a format, where the format has it. -/
def fieldPos (fmt : Nat) (which : Nat) : Option Nat :=
  match which, fmt with
  | 0, 0 | 0, 5 => some 10
  | 0, 1 | 0, 4 => some 11
  | 1, 0 | 1, 5 => some 5
  | 1, 1 | 1, 4 => some 6
  | 2, 0 | 2, 5 => some 0
  | _, _ => none

/-- Adds a step to a field; the flag says that the sum left the field. -/
def stepField (fmt which step : Nat) (w : Nat) : Nat × Bool :=
  match fieldPos fmt which with
  | none => (w, decide (step ≠ 0))
  | some p =>
    let v := w / 2 ^ p % 32
    (w - v * 2 ^ p + (v + step) % 32 * 2 ^ p, decide (31 < v + step))

/-- The repeated word at repetition `i` (R131): its bits, and whether a stepped field left its range. -/
def stepWord (fmt sd sa sb i : Nat) (w : BitVec 32) : BitVec 32 × Bool × Bool × Bool :=
  let d := stepField fmt 0 (i * sd) w.toNat
  let a := stepField fmt 1 (i * sa) d.1
  let b := stepField fmt 2 (i * sb) a.1
  (BitVec.ofNat 32 b.1, d.2, a.2, b.2)

/-- Whether a word uses a field: changing it changes the registers the word names (R128). -/
def usesField (c : Ctx) (sel fmt which : Nat) (w : BitVec 32) : Bool :=
  match fieldPos fmt which with
  | none => false
  | some p =>
    let z := w.toNat - w.toNat / 2 ^ p % 32 * 2 ^ p
    match (decodeSel c sel (BitVec.ofNat 32 z)).1, (decodeSel c sel (BitVec.ofNat 32 (z + 2 ^ (p + 1)))).1 with
    | some i, some k => decide ((wordInfo i).uses ≠ (wordInfo k).uses)
    | _, _ => false

/-- The repetitions of a word, or `none` where one is refused with ILL (R128, R131). -/
def repWords (c : Ctx) (sel : Nat) (w : FWord) (r : Nat × Nat × Nat × Nat) : Option (List Instr) :=
  match w.ins with
  | none => none
  | some i0 =>
    let fmt := (wordInfo i0).fmt
    (upto r.1).foldr (fun i acc =>
      let t := stepWord fmt r.2.1 r.2.2.1 r.2.2.2 i w.raw
      let out := (t.2.1 && usesField c sel fmt 0 w.raw) || (t.2.2.1 && usesField c sel fmt 1 w.raw) || (t.2.2.2 && usesField c sel fmt 2 w.raw)
      match acc, (decodeSel c sel t.1).1 with
      | some l, some k => if out || illStatic k then none else some (k :: l)
      | _, _ => none) (some [])

/-- Whether the repeated word may stand behind a prefix (R131). -/
def repeatable (i : Instr) (r : Nat × Nat × Nat × Nat) : Bool :=
  let f := wordInfo i
  !(f.fmt == 2 || f.fmt == 3 || f.fmt == 6 || f.fmt == 7) && decide (f.pipe ≠ .ct) && decide (f.pipe ≠ .en) &&
    !((f.fmt == 1 || f.fmt == 4) && r.2.2.2 != 0)

/-- ILL at a prefix of an issue, wherever it stands: its word may not be repeated, or a repetition is refused (R128, R131). -/
def repeatIll (c : Ctx) (sel : Nat) : List FWord → Bool
  | p :: w :: ws =>
    (match p.ins, w.ins with
      | some (.rep f), some i => !p.c && (!repeatable i (repOf f) || (repWords c sel w (repOf f)).isNone)
      | _, _ => false) || repeatIll c sel (w :: ws)
  | _ => false

/-- ILL of a whole issue (R122 item 1). -/
def issueIll (c : Ctx) (sel : Nat) (ws : List FWord) : Bool :=
  ws.any (fun w => w.ins.isNone || (w.c && decide (w.pc % 12 = 8)) ||
    (match w.ins with | some i => illStatic i || (isRepWord w && w.c) | none => true)) ||
  repeatIll c sel ws

/-- Whether two words of a list write one register. -/
def destClash : List Instr → Bool
  | [] => false
  | i :: is => is.any (fun k => sameDest i k) || destClash is

def pipeCount (is : List Instr) (p : Pipe) : Nat := (is.filter (fun i => (wordInfo i).pipe = p)).length

/-- CHAIN of a whole issue (R120). -/
def issueChain (ws : List FWord) : Bool :=
  let is := ws.filterMap FWord.ins
  let form := issueForm ws
  match form.rep with
  | some _ => form.words.any FWord.c
  | none =>
    (ws.any (fun w => w.c && (match w.ins with | some i => isTransfer i | none => false))) ||
    (decide (1 < ws.length) &&
      (ws.any isRepWord || decide (2 < pipeCount is .v) || decide (1 < pipeCount is .sf) || decide (1 < pipeCount is .me) ||
        decide (1 < pipeCount is .ct) || decide (1 < pipeCount is .en) || destClash is))

/-- The widest scope of an issue (R254). -/
def issueScope (is : List Instr) : Nat := is.foldl (fun n i => max n (wordInfo i).sc) 0

/-! ### Rendezvous and deadlock (R254 to R256) -/

/-- Whether a rendezvous of a scope is complete and its issue can execute: the debugger has stopped none of its groups (R254, 20 R462). -/
def canRendezvous (b : Block) (js : List Nat) (sc : Nat) : Bool :=
  parkedTogether b js sc && js.all (fun j => !(b.grp j).dbgStop)

/-- The instances of a block, smallest first: groups, complete sets, the block. -/
def instances (b : Block) : List (List Nat × Nat) :=
  ((b.groupIds.filter (fun j => !(b.grp j).done)).map (fun j => ([j], 1))) ++
  ((b.sets.filter (fun e => decide (1 < e.2.members.length))).map (fun e => (e.2.members, 2))) ++
  [(b.groupIds.filter (fun j => !(b.grp j).done), 3)]

/-- Whether every thread of an instance that is not EXITED is parked and one of them at the instance's own scope; RETT's is the group. -/
def allParkedAt (b : Block) (js : List Nat) (sc : Nat) : Bool :=
  let ts := membersOf b js sc
  !ts.isEmpty && ts.all (fun t => decide (t.2.mode = .parked)) && ts.any (fun t => decide (t.2.psc = sc ∨ (sc = 1 ∧ t.2.psc = 4)))

/-- Whether a rendezvous of an instance itself can complete. -/
def canComplete (b : Block) (js : List Nat) (sc : Nat) : Bool := parkedTogether b js sc || (decide (sc = 1) && parkedTogether b js 4)

/-- Whether an instance is deadlocked (R256). -/
def deadlocked (b : Block) (js : List Nat) (sc : Nat) : Bool :=
  allParkedAt b js sc &&
  (instances b).all (fun i => !(i.1.all (fun j => js.contains j) && decide (i.2 ≤ sc) && canComplete b i.1 i.2))

/-- Raises SCOPE in every member of a deadlocked instance, each thread at its own parked PC (R256, R448). -/
def raiseScope (s : State) (b : Nat) (js : List Nat) (sc : Nat) : State :=
  s.foldl js (fun t j =>
    let g := t.grp b j
    raiseGroup t b j { cause := cSCOPE, prec := true, sc := sc, det := 0, arg := 0, repi := g.repi
                       lanes := g.alive.map (fun l => (l, (g.th l).pc.toNat, (g.th l).pc.toNat, 0, 0)) })

/-- The check made when a thread of a block parks or exits: the smallest deadlocked instance takes SCOPE (R256). -/
def scopeCheck (s : State) (b : Nat) : State :=
  let k := s.blk b
  match (instances k).find? (fun i => deadlocked k i.1 i.2) with
  | some i => raiseScope s b i.1 i.2
  | none => s

/-- Withdraws declarations and raises SCOPE at the waiting SDECL (R262). -/
def declScope (s : State) (b : Nat) (js : List Nat) : State :=
  s.foldl js (fun t j =>
    let g := t.grp b j
    let t := t.updBlk b (fun k => withdrawDecl k j)
    raiseGroup t b j { cause := cSCOPE, prec := true, sc := 1, det := 0, arg := 0, repi := 0
                       lanes := g.living.map (fun l => (l, g.waitPc, g.waitPc, 0, 0)) })

/-- Every group that is left waits in SDECL: each declarer of an incomplete tag takes SCOPE (R262). -/
def declCheck (s : State) (b : Nat) : State :=
  let k := s.blk b
  let js := k.groupIds.filter (fun j => !(k.grp j).done && !(k.grp j).alive.isEmpty)
  if !js.isEmpty && js.all (fun j => match (k.grp j).wait with | .sdecl _ _ _ _ => true | _ => false) then declScope s b js else s

/-- The checks that follow the parking or the end of threads in a block: SCOPE of a deadlocked instance and of declarations that can no longer
complete. A group that ends at the SCOPE trap asks for another check. -/
def exitCheck (s : State) (b : Nat) : State := declCheck (scopeCheck s b) b

/-! ### The debugger (20 R461 to R463) -/

/-- Stops a group for the debugger: its ACTIVE threads are held, and the stop enters the queue. -/
def stopGroup (s : State) (b j kind lane num pc next : Nat) : State :=
  let c := (s.blk b).ctx
  let s := s.updGrp b j (fun g =>
    { g with dbgStop := true, dbgStep := false,
             thr := tmap (fun _ t => if t.mode = .active then { t with mode := .trapped, before := .active, held := true } else t) g.thr })
  let p : Stop := ⟨kind, b, j, lane, num, pc, s.gts, next⟩
  let s := s.updCtx c (fun x => { x with stops := x.stops ++ [p] })
  let s := if (s.ctx c).dbgctl.getLsbD 3 then sendMsix s (s.ctx c).vf 32 else s
  traceEvent s c 10 (s.blkCore b) s.gts (stopWord s c p / 2 ^ 16) pc 0

/-- The lane a HALT or a step stop lands on: the lowest ready thread, or the lowest non-exited one. -/
def haltLane (g : Group) : Nat := match g.ready with | l :: _ => l | [] => g.alive.headD 0

/-- The lane a step stop lands on: the lowest thread of the next issue set, or the lowest parked one (R463). -/
def stepLane (g : Group) : Nat :=
  match g.ready with
  | [] => g.alive.headD 0
  | l :: ls =>
    let m := ls.foldl (fun m l => min m (g.th l).pc.toNat) (g.th l).pc.toNat
    (g.ready.find? (fun l => (g.th l).pc.toNat = m)).getD l

/-- Releases the held threads of a group; a BRK stop resumes at the word after the BRK (R463). -/
def releaseGroup (s : State) (p : Stop) (step : Bool) : State :=
  let s := s.updCtx (s.blk p.blk).ctx (fun x => { x with stops := x.stops.filter (fun q => !(q.blk == p.blk && q.j == p.j)) })
  s.updGrp p.blk p.j (fun g =>
    { g with dbgStop := false, dbgPass := true, dbgStep := step,
             thr := tmap (fun _ t =>
               if t.held then
                 { t with mode := if t.mode = .trapped then .active else t.mode, held := false,
                          pc := if p.kind = 2 ∧ t.pc.toNat = p.pc then BitVec.ofNat 48 p.next else t.pc }
               else t) g.thr })

/-- The breakpoint that an issue matches, with the lane it lands on (R461). -/
def breakpointAt (c : Ctx) (j : Nat) (pcs lanes : List Nat) : Option (Nat × Nat) :=
  (upto 4).findSome? (fun k =>
    let v := (tget 0 c.dbp k)
    let ok (l : Nat) : Bool := (!v.getLsbD 62 || decide (fld v 60 56 = l)) && (!v.getLsbD 61 || decide (fld v 55 51 = j))
    if v.getLsbD 63 && pcs.contains (fld v 47 2 * 4) then (lanes.find? ok).map (fun l => (k, l)) else none)

/-! ### Choosing what to issue (R252, R253) -/

/-- Whether a group is kept from issuing by a set-scope fault of a member of its set, as long as that member runs its handler (R257). -/
def setSuspended (k : Block) (j : Nat) : Bool :=
  !(k.grp j).hm && (k.grp j).inSet.isSome && (scopeGroups k j 2).any (fun i => decide (i ≠ j) && (k.grp i).setFault)

/-- Whether a group of a core may go on with what it executes: it is resident, not stopped, and its context is not FAULTED (06 R147). -/
def mayRun (s : State) (b j : Nat) : Bool :=
  let k := s.blk b
  let g := k.grp j
  k.core.isSome && !k.stopped && !k.waking && !g.done && !g.dbgStop && g.trap.isNone && decide (g.notBefore ≤ s.gts) &&
  decide (g.wait = .none) && !issueWaits s b j && decide ((s.ctx k.ctx).st ≠ .faulted) && !setSuspended k j

/-- Whether the next repetition of a group's REP issue can execute (05 R131). -/
def repDue (s : State) (b j : Nat) : Bool := (s.grp b j).rep.isSome && mayRun s b j

/-- Whether a group may issue in this fc, but for what the issue itself finds (R252). -/
def canIssue (s : State) (b j : Nat) : Bool :=
  let k := s.blk b
  let g := k.grp j
  mayRun s b j && g.inRep.isNone && !((s.core (k.core.getD 0)).entering.any (fun e => decide (e.2.blk = b ∧ e.2.j = j))) &&
  ((decide (groupState k g = 1) && !g.ready.isEmpty) ||
   (decide (groupState k g = 3) && (upto 5).any (fun sc => decide (0 < sc) && (scopeGroups k j sc).contains j && canRendezvous k (scopeGroups k j sc) sc)))

/-- The groups resident on a core: block and group. -/
def residents (s : State) (core : Nat) : List (Nat × Nat) :=
  (s.blkIds.filter (fun b => (s.blk b).core = some core)).flatMap (fun b => ((s.blk b).groupIds.filter (fun j => !((s.blk b).grp j).done)).map (fun j => (b, j)))

/-- Older first: the age of the block's first dispatch, then the index (R252). -/
def olderThan (s : State) (p q : Nat × Nat) : Bool :=
  let a := (s.grp p.1 p.2).age
  let c := (s.grp q.1 q.2).age
  decide (a < c) || (decide (a = c) && (decide (p.2 < q.2) || (decide (p.2 = q.2) && decide (p.1 ≤ q.1))))

def oldest (s : State) (l : List (Nat × Nat)) : Option (Nat × Nat) :=
  l.foldl (fun r p => match r with | none => some p | some q => if olderThan s p q then some p else some q) none

/-- choose() of R252. -/
def chooseGroup (s : State) (l : List (Nat × Nat)) : Option (Nat × Nat) :=
  let hi := l.filter (fun p => 192 ≤ (s.grp p.1 p.2).waitc)
  if hi.isEmpty then oldest s l
  else
    let m := hi.foldl (fun n p => max n (s.grp p.1 p.2).waitc) 0
    oldest s (hi.filter (fun p => (s.grp p.1 p.2).waitc = m))

/-- The issue set of a group: its ready threads at the smallest PC (R253), or its parked threads when their rendezvous is complete. -/
def issueSet (g : Group) : List Nat :=
  let ls := if g.ready.isEmpty then g.living else g.ready
  match ls with
  | [] => []
  | l :: _ =>
    let m := ls.foldl (fun m k => min m (g.th k).pc.toNat) (g.th l).pc.toNat
    ls.filter (fun k => (g.th k).pc.toNat = m)

/-- Whether an issue set is converged (R258). -/
def convergedSet (g : Group) (ls : List Nat) : Bool := g.alive.all (fun l => ls.contains l)

end Sys2Proof.Machine
end

