-- ==== Sys2Proof/Machine/LoadStore.lean ====
section
/-!
DEFINITION. Loads, stores, prefetches, atomics, fences, store-fault records and scratchpad maps (16_access.md R376 to R394, 04_ordering.md
R99 to R116), and the events of the memory pipe.
-/

namespace Sys2Proof.Machine

/-! ### Addresses and the checks of R377 -/

/-- One lane's access as a word forms it: member, space and address; a tag that names no space is `none` (R127). -/
abbrev LaneAddr := (Nat × Nat) × Option (Nat × Nat)

/-- The effective address of a load or store (R376). -/
def effAddr (s : State) (m : Nat × Nat) (sp a unit : Nat) (off : BitVec 6) : Nat :=
  if sp = 0 then (rdX s m a + off.signExtend 64 * BitVec.ofNat 64 unit).toNat
  else (rdW s m a + off.signExtend 32 * BitVec.ofNat 32 unit).toNat

/-- Space and address of the tagged address of an atomic (R127). -/
def tagOf (x : Nat) : Option (Nat × Nat) :=
  let tag := x / 2 ^ 56 % 256
  if tag = 0 ∨ tag = 255 then some (0, x)
  else if tag = 0xFE ∧ x / 2 ^ 32 % 2 ^ 24 = 0 then some (1, x % 2 ^ 32)
  else if tag = 0xFD ∧ x / 2 ^ 32 % 2 ^ 24 = 0 then some (2, x % 2 ^ 32)
  else none

/-- A canonical global address has bits [63:57] equal to bit 56 (R66). -/
def canonicalAddr (a : Nat) : Bool := decide (a / 2 ^ 56 % 256 = 0 ∨ a / 2 ^ 56 % 256 = 255)

/-- Whether an access lies in its space (R66). -/
def inSpace (b : Block) (sp a n : Nat) : Bool :=
  match sp with
  | 0 => canonicalAddr a
  | 1 => decide (a + n ≤ padSize b)
  | _ => decide (a + n ≤ eavesSize b)

/-- Whether a scratchpad access touches a line of an entry with RO = 1 (R72). -/
def onReadOnly (b : Block) (sp a : Nat) : Bool :=
  decide (sp = 1) && (match mapOf b (a / 128) with | some (e, _) => (b.map e).ro | none => false)

/-- The checks of R377, in order, over every guarded lane. `raw` is the address before its tag is read; `acc` is 0 load, 1 store, 2 atomic,
and 3 for a prefetch, to which only checks 1 and 3 apply. -/
def accessCheck (s : State) (as : List LaneAddr) (raw : Nat × Nat → Nat) (size acc : Nat) : Check :=
  let b := s.cur.blk
  let k := s.blk b
  let addrs := as.map (fun a => (a.1, match a.2 with | some p => tagged p.1 p.2 | none => raw a.1, 0))
  let any (p : Nat × Nat → Nat × Nat → Bool) (bad : Bool) : Bool := as.any (fun a => match a.2 with | some q => p a.1 q | none => bad)
  if acc ≠ 3 ∧ as.any (fun a => decide (raw a.1 % size ≠ 0)) then .trap { cause := cALIGN, addr := addrs }
  else if any (fun _ q => !inSpace k q.1 q.2 size) true then .trap { cause := cPROT, addr := addrs }
  else if (acc = 1 ∨ acc = 2) ∧ any (fun _ q => onReadOnly k q.1 q.2) false then .trap { cause := cPROT, addr := addrs }
  else if acc ≠ 3 ∧ any (fun m q => decide (q.1 = 1) && raceAt k m.1 q.2 size) false then .trap { cause := cRACE, addr := addrs }
  else .pass

/-- Whether a format range register is enabled for the VF of the issue's context (R378). -/
def frrEnabled (s : State) : Bool := (frrOn s).any (fun e => decide (frrVf e.2 = blkVf s s.cur.blk))

/-- The precise check of format ranges (R378). While a range is enabled for the VF, a store or an atomic that waits for its page is translated
before the group issues on: the issue itself is held, charged to PIPE. A store that lands in the gutter waits for nothing (12 R298, log 32). -/
def formatCheck (s : State) (as : List LaneAddr) (acc : Nat) : Check :=
  if s.frr.isEmpty then .pass
  else
    let b := s.cur.blk
    let k := s.blk b
    let gs := as.filterMap (fun a => match a.2 with | some (0, x) => some (a.1, x) | _ => none)
    if gs.any (fun g => fmtProt s b g.2 acc) then .trap { cause := cFMTPROT, addr := gs.map (fun g => (g.1, g.2, 0)) }
    else if acc = aLOAD || !frrEnabled s then .pass
    else match gs.findSome? (fun g => match laneProbe s b 0 g.2 1 acc with | .wait _ stage _ need => some (vaOf g.2, stage, need) | _ => none) with
      | some (va, stage, need) => .page k.ctx va acc stage need 8
      | none => .pass

/-- One check after another. -/
def Check.andThen (c d : Check) : Check := match c with | .pass => d | c => c

/-- The lanes of a group among the accesses, in lane order. -/
def lanesOf (as : List LaneAddr) (j : Nat) : List (Nat × Nat × Nat) :=
  as.filterMap (fun a => if a.1.1 = j then a.2.map (fun p => (a.1.2, p.1, p.2)) else none)

def groupsOf (as : List LaneAddr) : List Nat := (as.map (fun a => a.1.1)).eraseDups

/-! ### Room in the store queue and the operand log (R99, R100) -/

def queueRoom (s : State) (js : List Nat) : Bool := js.all (fun j => decide ((s.grp s.cur.blk j).sq.length < 16))
def logRoom (s : State) (js : List Nat) : Bool := js.all (fun j => decide (logUsed (s.grp s.cur.blk j) < 8))

/-- Holds the issue, charged to DRAIN, while there is no room. -/
def roomCheck (s : State) (js : List Nat) (queue log : Bool) : Check :=
  if (queue && !queueRoom s js) || (log && !logRoom s js) then .hold 9 else .pass

/-! ### Loads -/

def loadSize (sz : BitVec 3) : Nat := match sz.toNat with | 0 | 1 => 1 | 2 | 3 => 2 | 4 => 4 | 5 => 8 | _ => 16
def storeSize (sz : BitVec 3) : Nat := match sz.toNat with | 0 => 1 | 1 => 2 | 2 => 4 | 3 => 8 | _ => 16

/-- The accesses of a load or store word. -/
def wordAddrs (s : State) (sp size : Nat) (f : WM) : List LaneAddr :=
  (guarded s f.pr.toNat).map (fun m => (m, some (sp, effAddr s m sp f.a.toNat size f.off)))

/-- Whether a load takes an operand log entry: global loads, and scratchpad loads that touch an INVALID line (R381). -/
def loadLogged (s : State) (sp : Nat) (as : List LaneAddr) (j : Nat) : Bool :=
  decide (sp = 0) || (decide (sp = 1) && (lanesOf as j).any (fun a => (invalidLine (s.blk s.cur.blk) (a.2.2 / 128)).isSome))

/-- The checks of a load. -/
def loadCheck (s : State) (sp size : Nat) (f : WM) : Check :=
  let as := wordAddrs s sp size f
  (accessCheck s as (fun m => effAddr s m sp f.a.toNat size f.off) size 0).andThen
    ((if sp = 0 then formatCheck s as 0 else .pass).andThen
      (roomCheck s ((groupsOf as).filter (loadLogged s sp as)) false true))

/-- Whether a core's L1 holds the line of an address. -/
def inL1 (s : State) (core va pa : Nat) : Bool := (tget [] s.l1 (l1Key core va)).any (fun x => x.line == pa / 128)

/-- The requests that the misses of one load issue send to the L2: in lane order, one for each line, one in each half nanosecond (22 R493). -/
def sendMisses (s : State) (addrs : List Nat) : State :=
  let k := s.blk s.cur.blk
  let core := s.blkCore s.cur.blk
  let lines := addrs.filterMap (fun a => match translate s k.ctx (vaOf a) aLOAD k.priv with
    | .ok dev pa _ => if dev ≠ s.devNo ∨ pa.testBit 39 ∨ inL1 s core (vaOf a) pa then none else some (pa / 128)
    | _ => none)
  s.foldl lines.eraseDups (fun t line =>
    let at_ := max (2 * t.gts) (t.core core).l2Next
    let slice := sliceOf (line * 128)
    (t.updCore core (fun c => { c with l2Next := at_ + 1 })).post (at_ / 2) (256 + slice) .l2RequestAccept { x := slice, y := line, z := core })

/-- Enters the pending result of one group's load (R379, R381). -/
def issueLoad (s : State) (sp size d : Nat) (signed : Bool) (as : List LaneAddr) (iss j : Nat) : State :=
  let b := s.cur.blk
  let logged := loadLogged s sp as j
  let (id, s) := s.fresh
  let (seq, s) := takeSeq s b j
  let accs := (lanesOf as j).map (fun a => ({ j := j, lane := a.1, sp := a.2.1, addr := a.2.2 } : Acc))
  addPend s b j { id := id, kind := .load, logged := logged, seq := seq, size := size, signed := signed, d := d, accs := accs, pc := s.cur.pc, sc := s.cur.sc, iss := iss } (latency sp)

/-- The identity that the accesses of one issue share where they belong to several groups (R380). -/
def issueMates (s : State) (as : List LaneAddr) : Nat × State := if 1 < (groupsOf as).length then s.fresh else (0, s)

/-- A load (R376 to R381). -/
def load (i : Instr) (sp : Nat) (sz : BitVec 3) (f : WM) (s : State) : State :=
  word i s (fun s => loadCheck s sp (loadSize sz) f) (fun s =>
    let as := wordAddrs s sp (loadSize sz) f
    let (iss, t) := issueMates (if sp = 0 then sendMisses s (as.filterMap (fun a => a.2.map Prod.snd)) else s) as
    t.foldl (groupsOf as) (fun t j => issueLoad t sp (loadSize sz) f.d.toNat (decide (sz = 1 ∨ sz = 3)) as iss j))

/-- LD.G (R379). -/
def execLdG (sz : BitVec 3) (f : WM) (s : State) : Out := .next <| load (.ldG sz f) 0 sz f s
/-- LD.S (R379). -/
def execLdS (sz : BitVec 3) (f : WM) (s : State) : Out := .next <| load (.ldS sz f) 1 sz f s
/-- LD.E (R379). -/
def execLdE (sz : BitVec 3) (f : WM) (s : State) : Out := .next <| load (.ldE sz f) 2 sz f s

/-! ### Stores -/

/-- The store data of a lane: bytes 0 to 7 and 8 to 15, zero-extended (R379, R393). -/
def storeData (s : State) (m : Nat × Nat) (d size : Nat) : DWord × DWord :=
  match size with
  | 16 => (rdX s m d, rdX s m (d + 2))
  | 8 => (rdX s m d, 0)
  | n => (BitVec.ofNat 64 ((rdW s m d).toNat % 2 ^ (8 * n)), 0)

/-- The checks of a store. -/
def storeCheck (s : State) (sp size : Nat) (f : WM) : Check :=
  let as := wordAddrs s sp size f
  (accessCheck s as (fun m => effAddr s m sp f.a.toNat size f.off) size 1).andThen
    ((if sp = 0 then formatCheck s as 1 else .pass).andThen (roomCheck s (groupsOf as) true false))

/-- Adds an entry to the store queue of a group and asks for its head to be performed (R99). -/
def enqueue (s : State) (j : Nat) (e : SqEntry) : State :=
  let b := s.cur.blk
  pokeQueue (s.updGrp b j (fun g => { g with sq := g.sq ++ [e] })) b j

/-- Marks the scratchpad words that the accesses of a store or atomic write (11 R291). -/
def markWords (s : State) (size : Nat) (as : List LaneAddr) : State :=
  if (s.blk s.cur.blk).checked then
    as.foldl (fun t a => match a.2 with
      | some (1, x) => t.updBlk t.cur.blk (fun k => shadowSet k a.1.1 x size)
      | _ => t) s
  else s

/-- The repetition index a fault record carries (R393). -/
def recordRep (s : State) : Nat := if s.cur.rep.isSome then s.cur.repi else 0

/-- Enters one group's store in its queue (R382). -/
def issueStore (s : State) (size d : Nat) (as : List LaneAddr) (iss j : Nat) : State :=
  let b := s.cur.blk
  let (id, s) := s.fresh
  let (seq, s) := takeSeq s b j
  let accs := (lanesOf as j).map (fun a =>
    let v := storeData s (j, a.1) d size
    ({ j := j, lane := a.1, sp := a.2.1, addr := a.2.2, lo := v.1, hi := v.2 } : Acc))
  enqueue s j { id := id, kind := .store, seq := seq, size := size, op := s.cur.op, repi := recordRep s, pc := s.cur.pc, sc := s.cur.sc, accs := accs, iss := iss }

/-- The hold of the next issue until the accesses of a store or an atomic have been translated, while a format range is enabled: none for hits in the
translation cache, and the time of the walk, which is free, for a miss, charged to PIPE (R378, log 12). -/
def walkHold (s : State) (as : List LaneAddr) (acc : Nat) : State :=
  let k := s.blk s.cur.blk
  let misses := as.any (fun a => match a.2 with
    | some (0, x) => (match walk s k.ctx (vaOf x) acc k.priv with | .ok _ _ _ => (tlbFind s k.ctx (vaOf x)).isNone | _ => false)
    | _ => false)
  if frrEnabled s && misses then (busy s (1 + Config.extraLatency s.freeCtr) 8).tick else s

/-- A store (R376 to R382). -/
def store (i : Instr) (sp : Nat) (sz : BitVec 3) (f : WM) (s : State) : State :=
  word i s (fun s => storeCheck s sp (storeSize sz) f) (fun s =>
    let as := wordAddrs s sp (storeSize sz) f
    let (iss, t) := issueMates (walkHold (markWords s (storeSize sz) as) (if sp = 0 then as else []) aSTORE) as
    t.foldl (groupsOf as) (fun t j => issueStore t (storeSize sz) f.d.toNat as iss j))

/-- ST.G (R382). -/
def execStG (sz : BitVec 3) (f : WM) (s : State) : Out := .next <| store (.stG sz f) 0 sz f s
/-- ST.S (R382). -/
def execStS (sz : BitVec 3) (f : WM) (s : State) : Out := .next <| store (.stS sz f) 1 sz f s
/-- ST.E (R382). -/
def execStE (sz : BitVec 3) (f : WM) (s : State) : Out := .next <| store (.stE sz f) 2 sz f s

/-! ### Prefetch (R383) and the L2 request queue (03 R82, R83, 22 R492) -/

/-- Requests one line into the L2 (1), or into the L1 as well (2), or drops the prefetch: it would fault, wait, reach control space, a peer or a window, or find the queue full. -/
def prefetchLane (s : State) (level addr : Nat) : State :=
  let b := s.cur.blk
  let k := s.blk b
  match translate s k.ctx (vaOf addr) aLOAD k.priv with
  | .ok dev pa _ =>
    if dev ≠ s.devNo ∨ pa.testBit 39 ∨ (frrWindow s pa).isSome ∨ s.badLines.contains (domAddr dev pa / 128) then s
    else if 16 ≤ (s.core (sliceOf pa)).l2Q.length then s
    else s.post s.gts (256 + sliceOf pa) .l2RequestAccept
      { x := sliceOf pa, y := pa / 128, z := s.blkCore b, u := level, l := [k.ctx, vaOf addr] }
  | _ => s

/-- A prefetch completes at issue in 1 fc (R383). -/
def prefetch (i : Instr) (level : Nat) (f : WM) (s : State) : State :=
  let addr (s : State) (m : Nat × Nat) : Nat := effAddr s m 0 f.a.toNat 128 f.off
  word i s (fun s => accessCheck s ((guarded s f.pr.toNat).map (fun m => (m, some (0, addr s m)))) (addr s) 1 3) (fun s =>
    (guarded s f.pr.toNat).foldl (fun t m => prefetchLane t level (addr s m)) s)

/-- PREF.L1 (R383). -/
def execPrefL1 (f : WM) (s : State) : Out := .next <| prefetch (.prefL1 f) 2 f s
/-- PREF.L2 (R383). -/
def execPrefL2 (f : WM) (s : State) : Out := .next <| prefetch (.prefL2 f) 1 f s

/-! ### Atomics -/

/-- The accesses of an atomic, by the tagged addresses of field A (R127). -/
def atomAddrs (s : State) (f : WMA) : List LaneAddr :=
  (guarded s f.pr.toNat).map (fun m => (m, tagOf (rdX s m f.a.toNat).toNat))

/-- The checks of an atomic. -/
def atomCheck (s : State) (op : Nat) (f : WMA) : Check :=
  let as := atomAddrs s f
  (accessCheck s as (fun m => (rdX s m f.a.toNat).toNat) (atomSize op) 2).andThen
    ((formatCheck s as 2).andThen (roomCheck s (groupsOf as) true true))

/-- The operands of one lane (R384): for CAS the expected and the new value. -/
def atomOperands (s : State) (m : Nat × Nat) (op b : Nat) : DWord × DWord :=
  match op with
  | 9 => ((rdW s m b).setWidth 64, (rdW s m (b + 1)).setWidth 64)
  | 10 => (0, 0)
  | 13 => (rdX s m b, 0)
  | _ => ((rdW s m b).setWidth 64, 0)

/-- Whether an atomic acquires (R112, R114): .AR on ATOM.ST is .REL. -/
def acquires (op mo : Nat) : Bool := decide (mo = 1) || (decide (mo = 3) && decide (op ≠ 11))

/-- Later engine commands of the thread wait for everything it has issued (R111, R113). -/
def fenceThread (s : State) (j l : Nat) : State :=
  let b := s.cur.blk
  s.updGrp b j (fun g => g.updTh l (fun t => { t with fenceAt := g.nextSeq }))

/-- Enters one group's atomic in its queue and its log (R385). -/
def issueAtom (s : State) (op ms : Nat) (f : WMA) (as : List LaneAddr) (j : Nat) : State :=
  let b := s.cur.blk
  let (id, s) := s.fresh
  let (seq, s) := takeSeq s b j
  let accs := (lanesOf as j).map (fun a =>
    let v := atomOperands s (j, a.1) op f.b.toNat
    ({ j := j, lane := a.1, sp := a.2.1, addr := a.2.2, lo := v.1, hi := v.2 } : Acc))
  let s := addPend s b j
    { id := id, kind := .atom, logged := true, seq := seq, size := atomSize op, d := f.d.toNat, accs := accs, pc := s.cur.pc
      cancel := if op = 11 then [f.d.toNat] else [] } 0
  let s := enqueue s j { id := id, kind := .atom op ms, seq := seq, size := atomSize op, op := s.cur.op, mo := f.mo.toNat,
                         repi := recordRep s, pc := s.cur.pc, d := f.d.toNat, accs := accs }
  if acquires op f.mo.toNat then s.foldl (lanesOf as j) (fun t a => fenceThread t j a.1) else s

/-- An atomic (R384 to R386). -/
def atomic (i : Instr) (op : Nat) (ms : BitVec 2) (f : WMA) (s : State) : State :=
  word i s (fun s => atomCheck s op f) (fun s =>
    let as := atomAddrs s f
    (walkHold (markWords s (atomSize op) as) as aATOM).foldl (groupsOf as) (fun t j => issueAtom t op ms.toNat f as j))

/-- ATOM.ADD (R384, R385). -/
def execAtomAdd (ms : BitVec 2) (f : WMA) (s : State) : Out := .next <| atomic (.atomAdd ms f) 0 ms f s
/-- ATOM.MIN (R384, R385). -/
def execAtomMin (ms : BitVec 2) (f : WMA) (s : State) : Out := .next <| atomic (.atomMin ms f) 1 ms f s
/-- ATOM.MAX (R384, R385). -/
def execAtomMax (ms : BitVec 2) (f : WMA) (s : State) : Out := .next <| atomic (.atomMax ms f) 2 ms f s
/-- ATOM.MINU (R384, R385). -/
def execAtomMinu (ms : BitVec 2) (f : WMA) (s : State) : Out := .next <| atomic (.atomMinu ms f) 3 ms f s
/-- ATOM.MAXU (R384, R385). -/
def execAtomMaxu (ms : BitVec 2) (f : WMA) (s : State) : Out := .next <| atomic (.atomMaxu ms f) 4 ms f s
/-- ATOM.AND (R384, R385). -/
def execAtomAnd (ms : BitVec 2) (f : WMA) (s : State) : Out := .next <| atomic (.atomAnd ms f) 5 ms f s
/-- ATOM.OR (R384, R385). -/
def execAtomOr (ms : BitVec 2) (f : WMA) (s : State) : Out := .next <| atomic (.atomOr ms f) 6 ms f s
/-- ATOM.XOR (R384, R385). -/
def execAtomXor (ms : BitVec 2) (f : WMA) (s : State) : Out := .next <| atomic (.atomXor ms f) 7 ms f s
/-- ATOM.EXCH (R384, R385). -/
def execAtomExch (ms : BitVec 2) (f : WMA) (s : State) : Out := .next <| atomic (.atomExch ms f) 8 ms f s
/-- ATOM.CAS (R384, R385). -/
def execAtomCas (ms : BitVec 2) (f : WMA) (s : State) : Out := .next <| atomic (.atomCas ms f) 9 ms f s
/-- ATOM.LD (R384, R385). -/
def execAtomLd (ms : BitVec 2) (f : WMA) (s : State) : Out := .next <| atomic (.atomLd ms f) 10 ms f s
/-- ATOM.ST (R384, R385). -/
def execAtomSt (ms : BitVec 2) (f : WMA) (s : State) : Out := .next <| atomic (.atomSt ms f) 11 ms f s
/-- ATOM.FADD (R384, R385). -/
def execAtomFadd (ms : BitVec 2) (f : WMA) (s : State) : Out := .next <| atomic (.atomFadd ms f) 12 ms f s
/-- ATOM.ADD64 (R384, R385). -/
def execAtomAdd64 (ms : BitVec 2) (f : WMA) (s : State) : Out := .next <| atomic (.atomAdd64 ms f) 13 ms f s

/-! ### Fences (R105, R111, R387) -/

/-- FENCE.E (R111). -/
def execFenceE (f : WA) (s : State) : Out := .next <|
  plain (.fenceE f) s (fun s => forLanes s f.pr.toNat (fun m t => fenceThread t m.1 m.2))

/-- The traps due at a report point in the member groups, when at least one thread is guarded. -/
def dueList (s : State) (pr : Nat) (p : Point) : List (Nat × Due) :=
  if (guarded s pr).isEmpty then []
  else
    let k := s.srcBlk
    ((s.cur.members.map Prod.fst).eraseDups).filterMap (fun j => (dueAt k (k.grp j) p).map (fun d => (j, d)))

/-- A report point, on the groups as they stood before the issue: a trap that is due, else a wait while `waits` holds in a member group. -/
def reportCheck (s : State) (pr : Nat) (p : Point) (waits : Group → Bool) (why : Nat) : Check :=
  if (guarded s pr).isEmpty then .pass
  else if ((s.cur.members.map Prod.fst).eraseDups).any (fun j => waits (s.srcGrp j)) then .hold why
  else if (dueList s pr p).isEmpty then .pass else .due (dueList s pr p)

/-- Whether an entry that DRAINST still waits for stands in the queue: one ahead of the first that is stuck (R105, R491). -/
def draining (g : Group) : Bool := !g.runnable.isEmpty

/-- Whether an arrival must still wait for an access of the group that does not stand behind a fault: it counts as a store (R116, log 71). -/
def arriving (g : Group) : Bool :=
  draining g || g.pend.any (fun p => decide (p.kind = .load) && p.accs.any (fun a => !a.cap) && !loadStuck g p)

/-- The threads that arrived by BARV in a generation that failed take MASK at the DRAINST (11 R280). -/
def maskDueList (s : State) : List (Nat × Due) :=
  ((s.cur.members.map Prod.fst).eraseDups).filterMap (fun j =>
    let ds := (s.cur.members.filter (fun m => m.1 = j)).flatMap (fun m => (s.thr s.cur.blk m.1 m.2).maskDue)
    match ds with
    | n :: _ => some (j, { cause := cMASK, det := n })
    | [] => none)

/-- DRAINST (R105, R491). -/
def execDrainst (f : WA) (s : State) : Out := .next <|
  word (.drainst f) s (fun s =>
    (reportCheck s f.pr.toNat Point.drainst draining 9).andThen
      (if (guarded s f.pr.toNat).isEmpty ∨ (maskDueList s).isEmpty then .pass else .due (maskDueList s))) (fun s => s)

/-- Whether an access that stands in the queue is bound for a peer home, or for a page that may come to lie at one. -/
def peerBound (s : State) (a : Acc) (acc : Nat) : Bool :=
  let k := s.blk s.cur.blk
  decide (a.sp = 0) && (a.st == 3 || a.st == 0 && (match translate s k.ctx (vaOf a.addr) acc k.priv with
    | .ok dev _ _ => decide (dev ≠ s.devNo)
    | .wait _ _ _ _ => true
    | _ => false))

/-- The stores and atomics to peer homes that guarded threads have issued and no home has acknowledged, but for those behind a fault (R111). -/
def unacknowledged (s : State) (pr : Nat) : Bool :=
  (guarded s pr).any (fun m => (s.srcGrp m.1).runnable.any (fun e => e.accs.any (fun a => a.lane == m.2 && peerBound s a e.kind.acc)))

/-- DFENCE (R111, R387): it waits for the threads' stores to peer homes alone; where the queue of their group has a fault it is a report point. -/
def execDfence (f : WA) (s : State) : Out := .next <|
  word (.dfence f) s (fun s => if unacknowledged s f.pr.toNat then .hold 9 else reportCheck s f.pr.toNat Point.dfence (fun _ => false) 9) (fun s => s)

/-! ### Store-fault records (R391 to R393) -/

/-- ILL outside a handler that the record queue caused (R392). -/
def handlerCheck (s : State) : Check :=
  if ((s.cur.members.map Prod.fst).eraseDups).all (fun j => (s.srcGrp j).hm && (s.srcGrp j).sfh) then .pass
  else .trap { cause := cILL }

/-- Word `k` of the head record as lane `l` sees it (R393). -/
def recordWord (g : Group) (k l : Nat) : Nat :=
  match headRecord g with
  | none => 0
  | some e =>
    match k with
    | 0 => (e.accs.foldl (fun n a => n + 2 ^ a.lane) 0) * 2 ^ 32 + e.op % 1024 * 2 ^ 20 + e.mo % 4 * 2 ^ 18 + e.repi % 16 * 2 ^ 14 +
        (e.fault.getD 0) % 256
    | 5 => e.pc.toNat
    | k => match e.accs.find? (fun a => a.lane = l) with
      | none => 0
      | some a => match k with
        | 1 => if a.st = 2 then a.syn else 0
        | 2 => a.addr
        | 3 => a.lo.toNat
        | _ => a.hi.toNat

/-- A value determined at issue that returns to registers after a variable latency (R121). -/
def issueValue (s : State) (j d size lat : Nat) (lanes : List Nat) (v : Nat → Nat) : State :=
  let b := s.cur.blk
  let (id, s) := s.fresh
  let (seq, s) := takeSeq s b j
  let accs := lanes.map (fun l => ({ j := j, lane := l, addr := 0, cap := true, val := natLe size (v l) } : Acc))
  addPend s b j { id := id, kind := .value, seq := seq, size := size, d := d, accs := accs, pc := s.cur.pc } lat

/-- The guarded lanes of a group. -/
def guardedIn (s : State) (pr j : Nat) : List Nat := ((guarded s pr).filter (fun m => m.1 = j)).map Prod.snd

/-- SFRD (R392). -/
def execSfrd (f : WA) (s : State) : Out := .next <|
  word (.sfrd f) s handlerCheck (fun s =>
    s.foldl (guardedGroups s f.pr.toNat) (fun t j =>
      issueValue t j f.d.toNat 8 4 (guardedIn s f.pr.toNat j) (recordWord (s.grp s.cur.blk j) f.a.toNat)))

/-- Removes the head record and its entry, and frees an atomic's log entry (R392). -/
def popRecord (g : Group) : Group :=
  match headRecord g with
  | none => g
  | some e => { g with aside := g.aside.filter (fun x => x.id ≠ e.id), sq := g.sq.filter (fun x => x.id ≠ e.id)
                       pend := g.pend.filter (fun p => !(decide (p.id = e.id) && decide (p.kind = .atom))) }

/-- SFPOP (R392). -/
def execSfpop (f : WA) (s : State) : Out := .next <|
  word (.sfpop f) s handlerCheck (fun s =>
    busy (s.foldl (guardedGroups s f.pr.toNat) (fun t j => t.updGrp s.cur.blk j popRecord)) 2 8)

/-- SFCNT (R392). -/
def execSfcnt (f : WA) (s : State) : Out := .next <|
  word (.sfcnt f) s handlerCheck (fun s =>
    busy (lanesW s f.pr.toNat f.d.toNat (fun m => BitVec.ofNat 32 (records (s.grp s.cur.blk m.1)))) 2 8)

/-! ### Scratchpad maps (R388 to R390) -/

/-- The fields of a map descriptor. -/
def mapEntryNo (w : Word) : Nat := w.toNat / 2 ^ 16 % 16
def mapLines (w : Word) : Nat := w.toNat % 2 ^ 16 + 1
def mapRo (w : Word) : Bool := w.getLsbD 20

/-- The checks of SMAP, in order (R389). -/
def smapCheck (s : State) (f : WA) : Check :=
  match lowest s f.pr.toNat with
  | none => .pass
  | some m =>
    let k := s.blk s.cur.blk
    let dsc := rdW s m f.d.toNat
    let va := (rdX s m f.a.toNat).toNat
    let off := (rdW s m f.b.toNat).toNat
    let n := mapLines dsc
    let last := va + 128 * n - 1
    if dsc.toNat / 2 ^ 21 ≠ 0 then .trap { cause := cILL }
    else if va % 128 ≠ 0 ∨ off % 128 ≠ 0 then .trap { cause := cALIGN, addr := [(m, va, 0)] }
    else if !canonicalAddr va || !canonicalAddr last || decide (last / 2 ^ 56 ≠ va / 2 ^ 56) || decide (padSize k < off + 128 * n) then
      .trap { cause := cPROT, addr := [(m, va, 0)] }
    else if (k.map (mapEntryNo dsc)).v then .trap { cause := cPROT, addr := [(m, va, 0)] }
    else if k.maps.any (fun e => e.2.v && decide (e.2.sline ≤ off / 128 + n - 1 ∧ off / 128 ≤ e.2.sline + e.2.nlm1)) then
      .trap { cause := cPROT, addr := [(m, va, 0)] }
    else .pass

/-- SMAP (R389). -/
def execSmap (f : WA) (s : State) : Out := .next <|
  word (.smap f) s (fun s => smapCheck s f) (fun s =>
    match lowest s f.pr.toNat with
    | none => s
    | some m =>
      let dsc := rdW s m f.d.toNat
      let va := (rdX s m f.a.toNat).toNat
      busy (s.updBlk s.cur.blk (fun k => k.updMap (mapEntryNo dsc) (fun _ =>
        { v := true, ro := mapRo dsc, sline := (rdW s m f.b.toNat).toNat / 128, nlm1 := mapLines dsc - 1, vline := va / 128 }))) 4 8)

/-- FIRST and NM1 of a line range (R388). -/
def rangeFirst (w : Word) : Nat := w.toNat % 2 ^ 16
def rangeNm1 (w : Word) : Nat := w.toNat / 2 ^ 16

/-- PROT for a range that runs past a valid entry's last line (R390). -/
def rangeCheck (s : State) (f : WA) : Check :=
  match lowest s f.pr.toNat with
  | none => .pass
  | some m =>
    let e := (s.blk s.cur.blk).map (mapEntryNo (rdW s m f.a.toNat))
    let w := rdW s m f.b.toNat
    if e.v ∧ e.nlm1 < rangeFirst w + rangeNm1 w then .trap { cause := cPROT } else .pass

/-- Enters a write-back in the queue of the group of the lowest guarded lane (R99, R390). -/
def issueWriteBack (s : State) (m : Nat × Nat) (kind : SqKind) (addr : Nat) : State :=
  let b := s.cur.blk
  let (id, s) := s.fresh
  let (seq, s) := takeSeq s b m.1
  enqueue s m.1 { id := id, kind := kind, seq := seq, size := 128, op := s.cur.op, repi := recordRep s, pc := s.cur.pc, sc := s.cur.sc
                  accs := [{ j := m.1, lane := m.2, addr := addr }] }

/-- A write-back waits for room in the queue; on an invalid entry it has no effect and waits for nothing (R390). -/
def writeBackRoom (s : State) (f : WA) : Check :=
  match lowest s f.pr.toNat with
  | none => .pass
  | some m => if ((s.blk s.cur.blk).map (mapEntryNo (rdW s m f.a.toNat))).v then roomCheck s [m.1] true false else .pass

/-- SUNMAP (R390). -/
def execSunmap (f : WA) (s : State) : Out := .next <|
  word (.sunmap f) s (fun s => writeBackRoom s f) (fun s =>
    match lowest s f.pr.toNat with
    | none => s
    | some m =>
      let e := mapEntryNo (rdW s m f.a.toNat)
      let x := (s.blk s.cur.blk).map e
      if x.v then busy (issueWriteBack s m (.sunmap e) (lineVa x 0)) 2 8 else s)

/-- SWB (R390). -/
def execSwb (f : WA) (s : State) : Out := .next <|
  word (.swb f) s (fun s => (rangeCheck s f).andThen (writeBackRoom s f)) (fun s =>
    match lowest s f.pr.toNat with
    | none => s
    | some m =>
      let e := mapEntryNo (rdW s m f.a.toNat)
      let w := rdW s m f.b.toNat
      let x := (s.blk s.cur.blk).map e
      if x.v then busy (issueWriteBack s m (.swb e (rangeFirst w) (rangeNm1 w)) (lineVa x (rangeFirst w))) 2 8 else s)

/-- SINV (R390, R394): a line whose fill is in progress becomes INVALID once the fill has completed. -/
def execSinv (f : WA) (s : State) : Out := .next <|
  word (.sinv f) s (fun s => rangeCheck s f) (fun s =>
    match lowest s f.pr.toNat with
    | none => s
    | some m =>
      let b := s.cur.blk
      let e := mapEntryNo (rdW s m f.a.toNat)
      let w := rdW s m f.b.toNat
      let hit (i : Nat) : Bool := decide (rangeFirst w ≤ i ∧ i ≤ rangeFirst w + rangeNm1 w)
      -- a fill in progress: on its way, or waiting for its page or its home
      let fill (ev : Instr) (a : Arg) : Option Nat := if decide (ev = .mapFillComplete ∧ a.x = b ∧ a.y = e) && hit a.z then some a.z else none
      let filling := s.agenda.filterMap (fun v => fill v.ev v.arg) ++ s.page.waiters.filterMap (fun w => w.retry.bind (fun r => fill r.1 r.2))
      if ((s.blk b).map e).v then
        busy (s.updBlk b (fun k => k.updMap e (fun x =>
          { x with valid := x.valid.filter (fun i => !hit i), dirty := x.dirty.filter (fun d => !hit d.1), inval := x.inval ++ filling }))) 4 8
      else s)

/-! ### Events of the memory pipe -/

/-- STORE_QUEUE_PERFORM (R99, R101). -/
def execStoreQueuePerform (s : State) : Out := .next <| performHead s s.arg.x s.arg.y

/-- LOAD_RESULT_RETURN (R381). -/
def execLoadResultReturn (s : State) : Out := .next <| returnLane s s.arg.x s.arg.y s.arg.z s.arg.u

/-- SWITCH_MARKER_COMPLETE (05 R121, 10 R265). -/
def execSwitchMarkerComplete (s : State) : Out := .next <| exitCheck (tryMarker s s.arg.x s.arg.y) s.arg.x

/-- MAP_FILL_COMPLETE (03 R73, R76). -/
def execMapFillComplete (s : State) : Out := .next <| fillComplete s s.arg.x s.arg.y s.arg.z

/-- A request enters the queue of its slice: its line leaves after 40 fabric cycles of lookup, and a nanosecond after the line before it
(R492). -/
def acceptRequest (s : State) (n : Nat) (a : Arg) : State :=
  let last := ((s.agenda.filter (fun e => decide (e.ev = .l2LineReturn) && e.arg.x == n)).map Event.due).foldl max 0
  (s.updCore n (fun k => { k with l2Q := k.l2Q ++ [(a.y, a.z)] })).post (max (s.gts + 21) (last + 1)) (256 + n) .l2LineReturn a

/-- L2_REQUEST_ACCEPT (R83, R492): a request is accepted, or waits ahead of the slice behind those that wait; a prefetch that finds the queue full is
dropped (16 R383). -/
def execL2RequestAccept (s : State) : Out :=
  let n := s.arg.x
  if 256 ≤ n then .fault (.noSuchObject "slice" n)
  else if 16 ≤ (s.core n).l2Q.length ∨ (s.core n).l2Wait ≠ [] then
    .next (if s.arg.u ≠ 0 then s else s.updCore n (fun k => { k with l2Wait := k.l2Wait ++ [[s.arg.y, s.arg.z, s.arg.u] ++ s.arg.l] }))
  else .next (acceptRequest s n s.arg)

/-- L2_LINE_RETURN (R492): the line's two flits leave, the entry is freed, and a waiting request is accepted. The line of a prefetch is now in
its caches (16 R383). -/
def execL2LineReturn (s : State) : Out :=
  let a := s.arg
  let n := a.x
  if 256 ≤ n then .fault (.noSuchObject "slice" n)
  else
    let s := s.updCore n (fun k => { k with l2Q := k.l2Q.drop 1 })
    let s := match a.u with
      | 1 => touchHome s (some (a.l.getD 0 0)) (a.y * 128) 1 false
      | 2 => touchLine s a.z (a.l.getD 0 0) (a.l.getD 1 0) (a.y * 128) .load
      | _ => s
    match (s.core n).l2Wait with
    | r :: rest => .next (acceptRequest (s.updCore n (fun k => { k with l2Wait := rest })) n
        { x := n, y := r.getD 0 0, z := r.getD 1 0, u := r.getD 2 0, l := r.drop 3 })
    | [] => .next s

end Sys2Proof.Machine
end

