-- ==== Sys2Proof/Machine/Group.lean ====
section
/-!
DEFINITION. Register blocks and sets (10_group.md R261, R262).
-/

namespace Sys2Proof.Machine

/-! ### Register blocks (R261) -/

/-- XREG in a kernel whose descriptor has XREG = 0 (R261). -/
def granuleCheck (s : State) : Check := if (s.blk s.cur.blk).xreg then .pass else .trap { cause := cXREG, cls := 4 }

/-- Whether a free granule may be taken now: one is free and no group waits for one. -/
def granuleReady (s : State) : Bool :=
  let core := s.blkCore s.cur.blk
  !(granulesFree s core).isEmpty && (s.core core).xacqQ.isEmpty

/-- Gives one group the lowest free granule, or lets it wait in the core's queue. -/
def acquireGranule (s : State) (j : Nat) : State :=
  let b := s.cur.blk
  let core := s.blkCore b
  if (s.grp b j).xgran.isSome then s
  else if granuleReady s then s.updGrp b j (fun g => giveGranule g ((granulesFree s core).headD 0))
  else enterWait (s.updCore core (fun k => { k with xacqQ := k.xacqQ ++ [(b, j)] })) j .xacq s.cur.pc.toNat

/-- XACQ (R261). -/
def execXacq (f : WA) (s : State) : Out := .next <|
  word (.xacq f) s granuleCheck (fun s => busy (s.foldl (guardedGroups s f.pr.toNat) acquireGranule) 4 8)

/-- XTRY (R261): it never waits. -/
def execXtry (f : WA) (s : State) : Out := .next <|
  word (.xtry f) s granuleCheck (fun s =>
    let t := s.foldl (guardedGroups s f.pr.toNat) (fun t j => if granuleReady t then acquireGranule t j else t)
    busy (lanesW t f.pr.toNat f.d.toNat (fun m => if (t.grp t.cur.blk m.1).xgran.isSome then 1 else 0)) 4 8)

/-- XREL in one group: at once where nothing is outstanding in it, which `now` says; a word chained before it may have left a result to wait for,
and the granule returns at the marker (R121, R261). -/
def releaseGranule (now : Bool) (s : State) (j : Nat) : State :=
  if now then returnGranule s s.cur.blk j
  else setMarker s s.cur.blk j { kind := .exit, pc := s.cur.pc, sc := s.cur.sc, lanes := s.lanesOfGroup j, rel := true }

/-- XREL (R261): it waits as at a switch marker. -/
def execXrel (f : WA) (s : State) : Out := .next <|
  word (.xrel f) s (fun s => (granuleCheck s).andThen (if (guarded s f.pr.toNat).isEmpty then .pass else markerCheck s false)) (fun s =>
    busy (s.foldl (guardedGroups s f.pr.toNat) (fun t j =>
      releaseGranule (settledGroup (s.blk s.cur.blk) (s.grp s.cur.blk j) (s.lanesOfGroup j) false) t j)) 2 8)

/-! ### Sets (R262) -/

/-- The operands of SDECL from the lowest guarded lane: tag and count, SETK standing for a count of 0. -/
def declArgs (s : State) (f : WA) : Option (Nat × Nat) :=
  (lowest s f.pr.toNat).map (fun m =>
    let k := (rdW s m f.b.toNat).toNat
    ((rdW s m f.a.toNat).toNat, if k = 0 then (s.blk s.cur.blk).setk else k))

/-- The pending declarers of a tag that named another count. -/
def declClash (s : State) (f : WA) : List Nat :=
  match declArgs s f with
  | none => []
  | some (tag, k) =>
    let st := tget {} (s.blk s.cur.blk).sets tag
    if st.k = k then [] else st.declarers

/-- The checks of SDECL, in order. -/
def declCheckWord (s : State) (f : WA) : Check :=
  match declArgs s f with
  | none => .pass
  | some (tag, k) =>
    let b := s.blk s.cur.blk
    if 15 < tag ∨ k < 2 ∨ 8 < k then .trap { cause := cILL }
    else if (b.grp s.cur.j).inSet.isSome then .trap { cause := cSCOPE }
    else if !(tget {} b.sets tag).members.isEmpty then .trap { cause := cSCOPE }
    else if !(declClash s f).isEmpty then .trap { cause := cSCOPE }
    else .pass

/-- The declaration is complete: every declarer takes its position and goes on. -/
def completeSet (s : State) (b tag : Nat) : State :=
  let st := tget {} (s.blk b).sets tag
  let js := sortNat st.declarers
  let s := s.updBlk b (fun k => { k with sets := tset k.sets tag { st with declarers := [], members := js } })
  let s := s.foldl js (fun t j =>
    let pos : Word := BitVec.ofNat 32 (js.idxOf j)
    t.updGrp b j (fun g =>
      let g : Group := match g.wait with
        | .sdecl _ _ d ls => ls.foldl (fun (g : Group) l => g.updTh l (fun th => th.ww d pos)) g
        | _ => g
      { g with inSet := some tag, wait := .none }))
  pokeMarkers s b

/-- Adds the group to the declarers of a tag, and completes the set at the last one. -/
def declare (s : State) (f : WA) (tag k : Nat) : State :=
  let b := s.cur.blk
  let j := s.cur.j
  let s := s.updBlk b (fun x =>
    let st := tget {} x.sets tag
    { x with sets := tset x.sets tag { st with k := k, declarers := st.declarers ++ [j] } })
  let s := enterWait s j (.sdecl tag k f.d.toNat (guardedIn s f.pr.toNat j)) s.cur.pc.toNat
  if (tget {} (s.blk b).sets tag).declarers.length = k then completeSet s b tag else s

/-- SDECL (R262): a count that differs from the pending declarers' traps them too. -/
def execSdecl (f : WA) (s : State) : Out := .next <|
  let t := word (.sdecl f) s (fun s => declCheckWord s f) (fun s =>
    match declArgs s f with
    | none => s
    | some (tag, k) => busy (declare s f tag k) 4 8)
  if t.cur.verdict = 6 ∧ (staticTrap s (.sdecl f)).isNone then
    match declCheckWord s f, declArgs s f with
    | .trap i, some (tag, k) =>
      if i.cause = cSCOPE ∧ tag ≤ 15 ∧ 2 ≤ k ∧ k ≤ 8 ∧ ((s.blk s.cur.blk).grp s.cur.j).inSet.isNone ∧
          (tget {} (s.blk s.cur.blk).sets tag).members.isEmpty then declScope t s.cur.blk (declClash s f) else t
    | _, _ => t
  else t

/-- SLEAVE (R262). -/
def execSleave (f : WA) (s : State) : Out := .next <|
  plain (.sleave f) s (fun s =>
    busy (s.foldl (guardedGroups s f.pr.toNat) (fun t j => t.updBlk t.cur.blk (fun k => leaveSet k j))) 4 8)

/-- The set state that SINFO returns (R262). -/
def setState (b : Block) (j : Nat) : DWord :=
  match (b.grp j).inSet with
  | none => 0
  | some t =>
    let ms := (tget {} b.sets t).members
    BitVec.ofNat 64 (2 ^ 63 + t % 16 * 2 ^ 48 + ms.length % 16 * 2 ^ 44 + ms.idxOf j % 8 * 2 ^ 40 + ms.foldl (fun n m => n + 2 ^ m) 0)

/-- SINFO (R262). -/
def execSinfo (f : WA) (s : State) : Out := .next <|
  plain (.sinfo f) s (fun s => busy (lanesX s f.pr.toNat f.d.toNat (fun m => setState (s.blk s.cur.blk) m.1)) 2 8)

end Sys2Proof.Machine
end

