-- ==== Sys2Proof/Machine/Barrier.lean ====
section
/-!
DEFINITION. Barriers and the bridle (11_barrier.md R268 to R287).
-/

namespace Sys2Proof.Machine

/-! ### Arrivals (R269 to R272, R275, R280, R281) -/

/-- Lane and group masks of a membership (R269). -/
def lmOf (m : DWord) : Nat := m.toNat % 2 ^ 32
def gmOf (m : DWord) : Nat := m.toNat / 2 ^ 32

/-- Whether a thread may arrive with a membership: it is valid and names the thread (R269, R275). -/
def validFor (b : Block) (m : DWord) (j l : Nat) : Bool :=
  decide (lmOf m ≠ 0) && decide (gmOf m ≠ 0) && decide (gmOf m < 2 ^ b.grps) && memberOf m j l

/-- What one arrival would meet. -/
inductive Arrival where
  | ok
  /-- MASK, the barrier unchanged. -/
  | mask
  /-- Another membership than the FILLING generation's: the barrier enters FAULT. -/
  | clash
deriving DecidableEq, Repr

def arrivalOf (b : Block) (n : Nat) (m : DWord) (j l : Nat) : Arrival :=
  let r := b.bar n
  if !validFor b m j l || decide (r.st = 2) then .mask
  else if r.st = 1 then
    if r.who.contains (j, l) then .mask else if r.member ≠ m then .clash else .ok
  else .ok

/-- One thread arrives; the generation completes in the same step when its condition is met (R270 to R272). -/
def arriveAt (b : Block) (n : Nat) (m : DWord) (j l : Nat) : Block :=
  let r := b.bar n
  let r' : Barrier := if r.st = 0 then { r with st := 1, member := m, arr := 1, who := [(j, l)] }
                      else { r with arr := r.arr + 1, who := r.who ++ [(j, l)] }
  barComplete { b with bars := tset b.bars n r' } n

/-- One arrival as a word names it: member, barrier, membership. -/
abbrev Arr := (Nat × Nat) × Nat × DWord

/-- How the arrivals of a word fail, if one does, as each lane finds the block before any of them arrives: MASK before a clash (R275). -/
def badArrival (b : Block) (as : List Arr) : Option (Arrival × Nat) :=
  match as.find? (fun a => arrivalOf b a.2.1 a.2.2 a.1.1 a.1.2 = .mask) with
  | some a => some (.mask, a.2.1)
  | none => (as.find? (fun a => arrivalOf b a.2.1 a.2.2 a.1.1 a.1.2 = .clash)).map (fun a => (.clash, a.2.1))

/-- The arrivals of a word that meets no MASK, in member order: the block after them and each member's generation (R275). -/
def walkArrivals (b : Block) (as : List Arr) : Block × List ((Nat × Nat) × Nat × Nat) :=
  as.foldl (fun (r : Block × List ((Nat × Nat) × Nat × Nat)) a =>
    (arriveAt r.1 a.2.1 a.2.2 a.1.1 a.1.2, r.2 ++ [(a.1, a.2.1, (r.1.bar a.2.1).gen)])) (b, [])

/-- The threads of a waiting group that wait, with their PC. -/
def waitersOf (g : Group) : List (Nat × Nat × Nat × Bool) := match g.wait with | .barrier who => who | _ => []

/-- MASK or SCOPE in a waiting group, at once and precisely, at the PC of its wait (R280, R281). -/
def trapWaiters (s : State) (b j cause det : Nat) : State :=
  let g := s.grp b j
  let ls := sortNat ((waitersOf g).map (fun w => w.1))
  raiseGroup s b j { cause := cause, prec := true, sc := 0, det := det, arg := 0, repi := 0, lanes := ls.map (fun l => (l, g.waitPc, g.waitPc, 0, 0)) }

/-- A barrier enters FAULT: waiters that name it take MASK at once, and threads that arrived and went on at their next report (R280). -/
def faultBarrier (s : State) (b n : Nat) : State :=
  let who := ((s.blk b).bar n).who
  let names (j : Nat) : Bool := (waitersOf (s.grp b j)).any (fun w => decide (w.2.1 = n) && !w.2.2.2)
  let waiting (w : Nat × Nat) : Bool := names w.1 && (waitersOf (s.grp b w.1)).any (fun x => x.1 = w.2)
  let t := s.updBlk b (fun k => { k with bars := tset k.bars n { k.bar n with st := 2 } })
  let t := t.foldl (who.filter (fun w => !waiting w)) (fun t w => t.updThr b w.1 w.2 (fun th => { th with maskDue := th.maskDue ++ [n] }))
  t.foldl ((s.blk b).groupIds.filter names) (fun t j => trapWaiters t b j cMASK n)

/-- Whether a group that waits for generation `gen` of barrier `n` has a member that is not EXITED and has not arrived (R281). -/
def orphaned (b : Block) (j n gen : Nat) : Bool :=
  let r := b.bar n
  decide (r.st = 1 ∧ r.gen = gen) && (b.grp j).alive.any (fun l => memberOf r.member j l && !r.who.contains (j, l))

/-- The check of R281 made again at a generation's first arrival, in every waiting group. -/
def scopeWaiters (s : State) (b n : Nat) : State :=
  s.foldl (s.blk b).groupIds (fun t j =>
    if (waitersOf (t.grp b j)).any (fun w => decide (w.2.1 = n) && !w.2.2.2 && orphaned (t.blk b) j n w.2.2.1) then trapWaiters t b j cSCOPE 0 else t)

/-! ### The barrier words (R273 to R278) -/

/-- ILL for a barrier number above 15 in a guarded lane (R273). -/
def barrierNumber (s : State) (pr r : Nat) : Check :=
  if (guarded s pr).any (fun m => decide (15 < (rdW s m r).toNat)) then .trap { cause := cILL } else .pass

/-- BINIT's effect on a barrier, with its status (R272, R274). -/
def initBarrier (r : Barrier) (eng : Nat) : Barrier × Nat :=
  match r.st with
  | 1 => (r, 1)
  | 2 => ({ r with gen := (r.gen + 1) % 65536, st := 0, arr := 0, enga := 0, ecarry := 0, eng := eng, who := [] }, 0)
  | _ => ({ r with eng := eng }, 0)

/-- BINIT (R274). -/
def execBinit (f : WA) (s : State) : Out := .next <|
  word (.binit f) s (fun s => (barrierNumber s f.pr.toNat f.a.toNat).andThen
      (match lowest s f.pr.toNat with
        | some m => if 255 < (rdW s m f.b.toNat).toNat then .trap { cause := cILL } else .pass
        | none => .pass)) (fun s =>
    match lowest s f.pr.toNat with
    | none => s
    | some m =>
      let n := (rdW s m f.a.toNat).toNat
      let r := initBarrier ((s.blk s.cur.blk).bar n) (rdW s m f.b.toNat).toNat
      busy (lanesW (s.updBlk s.cur.blk (fun k => { k with bars := tset k.bars n r.1 })) f.pr.toNat f.d.toNat (fun _ => BitVec.ofNat 32 r.2)) 4 8)

/-- The arrivals of BARV or BSYNC. -/
def arrivals (s : State) (f : WA) : List Arr :=
  (guarded s f.pr.toNat).map (fun m => (m, (rdW s m f.b.toNat).toNat, rdX s m f.a.toNat))

/-- Whether two lanes that name one barrier present different memberships (R275). -/
def differing (as : List Arr) : Option Nat :=
  as.findSome? (fun a => if as.any (fun c => decide (c.2.1 = a.2.1 ∧ c.2.2 ≠ a.2.2)) then some a.2.1 else none)

/-- MASK at an arrival: the thread resumes at the word after the issue (R448). -/
def maskTrap (n : Nat) : Check := .trap { cause := cMASK, det := n, resumeNext := true }

/-- The check of an arrival: the barrier number, the report point of R116, and every MASK condition before any lane arrives (R275). -/
def arrivalCheck (s : State) (f : WA) : Check :=
  (barrierNumber s f.pr.toNat f.b.toNat).andThen ((reportCheck s f.pr.toNat Point.arrival arriving 9).andThen
    (let as := arrivals s f
     match differing as with
     | some n => maskTrap n
     | none => match badArrival (s.blk s.cur.blk) as with
       | some (_, n) => maskTrap n
       | none => .pass))

/-- SCOPE of R277: a member of the waiting group that would not have arrived. -/
def syncScope (s : State) (f : WA) : Check :=
  let w := walkArrivals (s.blk s.cur.blk) (arrivals s f)
  if w.2.any (fun e => orphaned w.1 e.1.1 e.2.1 e.2.2) then .trap { cause := cSCOPE } else .pass

/-- The barriers that a word's shared memberships put into FAULT: each FILLING one whose membership another one meets (R272, R275). -/
def clashes (s : State) (f : WA) : List Nat :=
  let as := arrivals s f
  match differing as, badArrival (s.blk s.cur.blk) as with
  | none, some (.clash, _) =>
    ((as.filter (fun a => arrivalOf (s.blk s.cur.blk) a.2.1 a.2.2 a.1.1 a.1.2 = .clash)).map (fun a => a.2.1)).eraseDups
  | _, _ => []

/-- Performs the arrivals and writes each lane's generation; generations begun are checked for waiters (R275, R281). -/
def performArrivals (s : State) (f : WA) : State :=
  let b := s.cur.blk
  let as := arrivals s f
  let gens := (walkArrivals (s.blk b) as).2
  let s := s.foldl as (fun t a =>
    let idle := decide (((t.blk b).bar a.2.1).st = 0)
    let t := t.updBlk b (fun k => arriveAt k a.2.1 a.2.2 a.1.1 a.1.2)
    if idle then scopeWaiters t b a.2.1 else t)
  let s := pokeMarkers s b
  s.foldl gens (fun t e => wrW t e.1 f.d.toNat (BitVec.ofNat 32 e.2.2))

/-- A group waits on barriers, unless every condition is met (R276). -/
def waitBarriers (s : State) (ws : List ((Nat × Nat) × Nat × Nat)) : State :=
  let b := s.cur.blk
  s.foldl ((ws.map (fun w => w.1.1)).eraseDups) (fun t j =>
    let who := (ws.filter (fun w => w.1.1 = j)).map (fun w => (w.1.2, w.2.1, w.2.2, genPassed ((t.blk b).bar w.2.1).gen w.2.2))
    if who.all (fun w => w.2.2.2) then t else enterWait t j (.barrier who) t.cur.pc.toNat)

/-- A word that may put barriers into FAULT: they enter it on the arrival, which then takes MASK for the first of them (R272, R280). -/
def withClash (i : Instr) (f : WA) (s : State) (check : State → Check) (effect : State → State) : State :=
  match clashes s f with
  | n :: ns =>
    if check s = maskTrap n ∧ (staticTrap s i).isNone ∧ !badSource s i then
      word i (s.foldl (n :: ns) (fun t m => faultBarrier t s.cur.blk m)) (fun _ => maskTrap n) effect
    else word i s check effect
  | [] => word i s check effect

/-- BARV (R275). -/
def execBarv (f : WA) (s : State) : Out := .next <|
  withClash (.barv f) f s (fun s => arrivalCheck s f) (fun s => busy (performArrivals s f) 2 8)

/-- BSYNC (R277): it arrives, then waits for the generation arrived in. -/
def execBsync (f : WA) (s : State) : Out := .next <|
  withClash (.bsync f) f s (fun s => (arrivalCheck s f).andThen (syncScope s f)) (fun s =>
    let gens := (walkArrivals (s.blk s.cur.blk) (arrivals s f)).2
    busy (waitBarriers (performArrivals s f) gens) 2 8)

/-- The barrier and generation each guarded thread of BWAIT names. -/
def waitArgs (s : State) (f : WA) : List ((Nat × Nat) × Nat × Nat) :=
  (guarded s f.pr.toNat).map (fun m => (m, (rdW s m f.b.toNat).toNat, (rdW s m f.a.toNat).toNat % 65536))

/-- The checks of BWAIT: MASK on a barrier in FAULT, SCOPE on an own member that cannot arrive (R276, R281). -/
def waitCheck (s : State) (f : WA) : Check :=
  let k := s.blk s.cur.blk
  let open_ := (waitArgs s f).filter (fun w => !genPassed (k.bar w.2.1).gen w.2.2)
  match open_.find? (fun w => decide ((k.bar w.2.1).st = 2)) with
  | some w => .trap { cause := cMASK, det := w.2.1, only := some (guarded s f.pr.toNat) }
  | none => if open_.any (fun w => orphaned k w.1.1 w.2.1 w.2.2) then .trap { cause := cSCOPE } else .pass

/-- BWAIT (R276). -/
def execBwait (f : WA) (s : State) : Out := .next <|
  word (.bwait f) s (fun s => (barrierNumber s f.pr.toNat f.b.toNat).andThen (waitCheck s f)) (fun s =>
    busy (waitBarriers s (waitArgs s f)) 2 8)

/-- The barrier state of BGEN (R278). -/
def barrierState (r : Barrier) : DWord :=
  BitVec.ofNat 64 (r.enga % 256 * 2 ^ 56 + r.eng % 256 * 2 ^ 48 + r.ecarry % 256 * 2 ^ 40 + r.st % 4 * 2 ^ 30 + r.arr % 2 ^ 11 * 2 ^ 16 + r.gen % 65536)

/-- BGEN (R278). -/
def execBgen (f : WA) (s : State) : Out := .next <|
  word (.bgen f) s (fun s => barrierNumber s f.pr.toNat f.b.toNat) (fun s =>
    match lowest s f.pr.toNat with
    | none => s
    | some m => busy (lanesX s f.pr.toNat f.d.toNat (fun _ => barrierState ((s.blk s.cur.blk).bar (rdW s m f.b.toNat).toNat))) 2 8)

/-- One engine arrival (R272, R279). -/
def engineArrive (s : State) (b n : Nat) : State :=
  let r := (s.blk b).bar n
  if r.st = 2 then s
  else if r.enga < r.eng then pokeMarkers (s.updBlk b (fun k => barComplete { k with bars := tset k.bars n { r with enga := r.enga + 1 } } n)) b
  else if r.ecarry < 255 then s.updBlk b (fun k => { k with bars := tset k.bars n { r with ecarry := r.ecarry + 1 } })
  else faultBarrier s b n

/-! ### The bridle (R283 to R287) -/

/-- The launch of the issuing block, as context and entry. -/
def bridleLaunch (s : State) (b : Nat) : Option (Nat × Nat) := (s.blk b).launch.map (fun e => ((s.blk b).ctx, e))

/-- The channel that a block's launch holds (R283). -/
def channelOf (s : State) (b : Nat) : Option Nat :=
  match bridleLaunch s b with
  | some (c, e) => ((s.ctx c).launch e).chan
  | none => none

def State.chan (s : State) (n : Nat) : Chan := tget {} s.chans n

/-- SCOPE in a launch without a channel (R283). -/
def channelCheck (s : State) : Check := if (channelOf s s.cur.blk).isSome then .pass else .trap { cause := cSCOPE }

/-- The blocks of the launch that holds a channel. -/
def channelBlocks (s : State) (n : Nat) : List Nat :=
  match (s.chan n).holder with
  | none => []
  | some (c, e) => s.blkIds.filter (fun b => decide ((s.blk b).ctx = c ∧ (s.blk b).launch = some e))

/-- Asks for a channel's completion once every block of the launch has arrived or exited (R285). -/
def pokeBridle (s : State) (n : Nat) : State :=
  let bs := channelBlocks s n
  let words := (bs.map (fun b => (s.blk b).bridleData.length) ++ (s.chan n).past.map (fun p => p.2.2.length)).foldl max 0
  if (!bs.isEmpty || !(s.chan n).past.isEmpty) && bs.all (fun b => (s.blk b).bridle.isSome) then
    s.postOnce (s.gts + 500 + 16 * words) 0 .bridleGenerationComplete { x := n }
  else s

/-- The contribution of a block that ends before its generation is complete stays (R286). -/
def keepContribution (s : State) (b : Nat) : State :=
  match channelOf s b, (s.blk b).bridle with
  | some n, some (kind, _) =>
    { s with chans := tset s.chans n { s.chan n with past := (s.chan n).past ++ [((s.blk b).index, kind, (s.blk b).bridleData)] } }
  | none, some (kind, _) => match bridleLaunch s b with
    -- a gang that has migrated and not resumed yet
    | some (c, e) => s.updLaunch c e (fun l => { l with chanSaved := l.chanSaved.map (fun ch =>
        { ch with past := ch.past ++ [((s.blk b).index, kind, (s.blk b).bridleData)] }) })
    | none => s
  | _, _ => s

/-- A block arrives; its groups wait (R285). -/
def arriveBridle (s : State) (kind off d words : Nat) (lanes : List (Nat × Nat)) : State :=
  let b := s.cur.blk
  let data := (upto words).map (fun i => BitVec.ofNat 64 (leNat (padRead s b (off + 8 * i) 8)))
  let s := s.updBlk b (fun k => { k with bridle := some (kind, off, d, lanes), bridleData := data })
  let s := s.foldl s.cur.groups (fun t j => enterWait t j .bridle t.cur.pc.toNat)
  match channelOf s b with
  | some n => pokeBridle s n
  | none => s

/-- A contribution counts as a store by the thread, so it waits as an arrival does and is a report point like it (04 R116, log 71). -/
def contributionCheck (s : State) : Check :=
  let k := s.srcBlk
  let js := (s.cur.members.map Prod.fst).eraseDups
  let ds := js.filterMap (fun j => (dueAt k (k.grp j) Point.arrival).map (fun d => (j, d)))
  if js.any (fun j => arriving (k.grp j)) then .hold 9
  else if ds.isEmpty then .pass else .due ds

/-- REDB (R285). -/
def execRedb (f : WA) (s : State) : Out := .next <|
  word (.redb f) s (fun s => (channelCheck s).andThen (contributionCheck s)) (fun s => busy (arriveBridle s 0 0 f.d.toNat 0 (guarded s f.pr.toNat)) 2 8)

/-- The word count of a REDW control word (R284). -/
def redWords (ctl : Nat) : Nat := ctl % 16 + 1

/-- The mapped lines of a vector that are still INVALID. -/
def vectorFills (s : State) (off n : Nat) : List (Nat × Nat) :=
  (upto (n / 128 + 2)).filterMap (fun i => if (off / 128 + i) * 128 < off + n then invalidLine (s.blk s.cur.blk) (off / 128 + i) else none)

/-- The checks of REDW: its control word, its offset, and the vector's lines (R284). -/
def redwCheck (s : State) (f : WA) : Check :=
  match lowest s f.pr.toNat with
  | none => .pass
  | some m =>
    let ctl := (rdW s m f.b.toNat).toNat
    let off := (rdW s m f.a.toNat).toNat
    let n := 8 * redWords ctl
    if 8 < ctl / 16 % 16 ∨ ctl / 256 ≠ 0 then .trap { cause := cILL }
    else if off % 8 ≠ 0 then .trap { cause := cALIGN, addr := [(m, tagged 1 off, 0)] }
    else if padSize (s.blk s.cur.blk) < off + n then .trap { cause := cPROT, addr := [(m, tagged 1 off, 0)] }
    else if (vectorFills s off n).isEmpty then .pass
    else match padFill s s.cur.blk [(off, n)] with
      -- a fill that meets a fault is the lane's, as for a load (03 R76)
      | .fail va syn det => .trap { cause := cLFAULT, det := det, addr := [(m, va, syn)] }
      | _ => .hold 8

/-- REDW (R285): a block with no guarded lane arrives and contributes nothing. -/
def execRedw (f : WA) (s : State) : Out := .next <|
  let t := word (.redw f) s (fun s => (channelCheck s).andThen ((redwCheck s f).andThen (contributionCheck s))) (fun s =>
    busy (match lowest s f.pr.toNat with
      | none => arriveBridle s 1 0 f.d.toNat 0 []
      | some m =>
        let ctl := (rdW s m f.b.toNat).toNat
        arriveBridle s (2 + ctl) (rdW s m f.a.toNat).toNat f.d.toNat (redWords ctl) (guarded s f.pr.toNat)) 2 8)
  if t.cur.verdict = 7 then
    match lowest s f.pr.toNat with
    | some m => t.foldl (vectorFills s (rdW s m f.a.toNat).toNat (8 * redWords (rdW s m f.b.toNat).toNat)) (fun t l => postFill t s.cur.blk l.1 l.2)
    | none => t
  else t

/-- The channel state of REDQ (R287). -/
def channelState (s : State) (n : Nat) : DWord :=
  let arrived := ((channelBlocks s n).filter (fun b => (s.blk b).bridle.isSome)).length + (s.chan n).past.length
  BitVec.ofNat 64 (2 ^ 63 + n % 16 * 2 ^ 48 + arrived % 65536 * 2 ^ 32 + (s.chan n).gen % 65536)

/-- REDQ (R287). -/
def execRedq (f : WA) (s : State) : Out := .next <|
  word (.redq f) s channelCheck (fun s =>
    busy (lanesX s f.pr.toNat f.d.toNat (fun _ => match channelOf s s.cur.blk with | some n => channelState s n | none => 0)) 4 8)

/-- One combination of two 64-bit words (R284, R286). -/
def combine (op : Nat) (a b : DWord) : DWord :=
  match op with
  | 0 => a + b
  | 1 => joinWords (BitVec.ofNat 32 (faddPlain (loWord a).toNat (loWord b).toNat)) (BitVec.ofNat 32 (faddPlain (hiWord a).toNat (hiWord b).toNat))
  | 2 => if a.toInt ≤ b.toInt then a else b
  | 3 => if a.toInt ≤ b.toInt then b else a
  | 4 => if a.toNat ≤ b.toNat then a else b
  | 5 => if a.toNat ≤ b.toNat then b else a
  | 6 => a &&& b
  | 7 => a ||| b
  | _ => a ^^^ b

/-- One level of the tree: a node whose side is absent passes its other side (R286). -/
def treeLevel (op : Nat) : List (Option (List DWord)) → List (Option (List DWord))
  | a :: b :: r =>
    (match a, b with
      | some x, some y => some (List.zipWith (combine op) x y)
      | some x, none => some x
      | none, y => y) :: treeLevel op r
  | l => l

/-- The reduction over linear block indices (R286). -/
def treeReduce (op : Nat) : Nat → List (Option (List DWord)) → Option (List DWord)
  | _, [x] => x
  | 0, l => l.headD none
  | n + 1, l => treeReduce op n (treeLevel op l)

/-- The lines of a block's vector that a pre-emption left INVALID are filled before the result is written there (R285, 03 R73). -/
def fillVector (s : State) (b words : Nat) : FillRes :=
  match (s.blk b).bridle with
  | some (kind, off, _, _) => if 2 ≤ kind then padFill s b [(off, 8 * words)] else .done s
  | none => .done s

/-- Writes the result at a block's own offset. A line whose fill meets a fault is left, and the group of the lowest guarded lane takes LFAULT after the
generation (03 R76, log 97). -/
def writeVector (s : State) (b off : Nat) (bs : List Byte) (lanes : List (Nat × Nat)) : State :=
  match fillVector s b (bs.length / 8), lanes with
  | .done t, _ =>
    (t.foldl ((upto (bs.length / 8)).map (fun i => 8 * i)) (fun t o => padWrite t b (off + o) ((bs.drop o).take 8))).updBlk b (fun k => shadowClear k off bs.length)
  | .fail va syn det, m :: _ =>
    raiseGroup (s.updGrp b m.1 (fun g => { g with wait := .none })) b m.1
      { cause := cLFAULT, prec := false, sc := 3, det := det, arg := 0, repi := 0
        lanes := (s.grp b m.1).alive.map (fun l => (l, ((s.grp b m.1).th l).pc.toNat, ((s.grp b m.1).th l).pc.toNat, if l = m.2 then va else 0, if l = m.2 then syn else 0)) }
  | _, _ => s

/-- Releases the blocks of a completed generation (R285). -/
def releaseBridle (s : State) (b gen : Nat) (res : List DWord) : State :=
  match (s.blk b).bridle with
  | none => s
  | some (kind, off, d, lanes) =>
    let s := if 2 ≤ kind then writeVector s b off (res.flatMap (fun v => natLe 8 v.toNat)) lanes else s
    let s := s.foldl lanes (fun t m => t.updThr b m.1 m.2 (fun th => th.ww d (BitVec.ofNat 32 gen)))
    pokeMarkers (s.updBlk b (fun k =>
      { k with bridle := none, bridleData := [], bgc := (k.bgc + 1) % 65536,
               groups := tmap (fun _ g => if g.wait = .bridle then { g with wait := .none } else g) k.groups })) b

/-- MASK in every waiting group of a block whose arrival differs in kind (R285, R448). -/
def maskBridle (s : State) (b : Nat) : State :=
  let s := s.foldl (s.blk b).groupIds (fun t j =>
    let g := t.grp b j
    if g.wait = .bridle then
      raiseGroup t b j { cause := cMASK, prec := true, sc := 3, det := 16, arg := 0, repi := 0, lanes := g.alive.map (fun l => (l, g.waitPc, g.waitPc, 0, 0)) }
    else t)
  s.updBlk b (fun k => { k with bridle := none, bridleData := [] })

/-- Whether the arrivals of a generation agree in kind, operation and word count (R285). -/
def kindsAgree (ks : List Nat) : Bool :=
  (ks.all (fun k => k = 0)) || (ks.all (fun k => decide (1 ≤ k)) && (ks.filter (fun k => decide (2 ≤ k))).eraseDups.length ≤ 1)

/-- BRIDLE_GENERATION_COMPLETE (R285, R286). -/
def execBridleGenerationComplete (s : State) : Out :=
  let n := s.arg.x
  if 16 ≤ n then .fault (.noSuchObject "bridle channel" n)
  else
    let bs := channelBlocks s n
    let past := (s.chan n).past
    if (bs.isEmpty && past.isEmpty) || bs.any (fun b => (s.blk b).bridle.isNone || (s.blk b).core.isNone) then .next s
    else
      let kinds := bs.map (fun b => match (s.blk b).bridle with | some (k, _) => k | none => 0) ++ past.map (fun p => p.2.1)
      if !kindsAgree kinds then
        .next { s.foldl bs maskBridle with chans := tset (s.foldl bs maskBridle).chans n { (s.foldl bs maskBridle).chan n with past := [] } }
      else
        let ctl := (kinds.find? (fun k => decide (2 ≤ k))).getD 2 - 2
        let size := match (s.chan n).holder with
          | some (c, e) => let l := (s.ctx c).launch e; l.gx * l.gy * l.gz
          | none => 0
        let m := Nat.log2 (max size 1) + (if 2 ^ Nat.log2 (max size 1) < size then 1 else 0)
        let leaf (i : Nat) : Option (List DWord) :=
          match bs.find? (fun b => (s.blk b).index = i) with
          | some b => if (s.blk b).bridleData.isEmpty then none else some (s.blk b).bridleData
          | none => match past.find? (fun p => p.1 = i) with
            | some p => if p.2.2.isEmpty then none else some p.2.2
            | none => none
        let res := (treeReduce (ctl / 16 % 16) m ((upto (2 ^ m)).map leaf)).getD []
        let gen := (s.chan n).gen
        match bs.findSome? (fun b => match fillVector s b res.length with | .wait va st need => some (b, va, st, need) | _ => none) with
        | some (b, va, st, need) => .next (waitOn s (s.blk b).ctx va aFILL st need (s.blkCore b) (.bridleGenerationComplete, s.arg))
        | none =>
        let s := s.foldl bs (fun t b => releaseBridle t b gen res)
        .next { s with chans := tset s.chans n { s.chan n with gen := (gen + 1) % 65536, past := [] } }

end Sys2Proof.Machine
end

