-- ==== Sys2Proof/Machine/Bid.lean ====
section
/-!
DEFINITION. Bids and prices (07_lease.md R173 to R178): the bid registers, what a class has on offer, and the market words.
-/

namespace Sys2Proof.Machine

/-- Units of a class (R167). -/
def classUnits (cls : Nat) : Nat := match cls with | 0 => 64 | 1 => 1792 | 2 => 48 | 3 => 2048 | _ => 128

def bidPrice (v : DWord) : Nat := fld v 31 0
def bidQty (v : DWord) : Nat := fld v 43 32
def bidMin (v : DWord) : Nat := fld v 55 44
def bidCfg (v : DWord) : Nat := fld v 57 56

/-- Whether a write of bits [63:0] of a bid register is refused (R174). -/
def bidRefused (cls : Nat) (v : DWord) : Bool :=
  decide (fld v 63 58 ≠ 0) || decide (bidQty v < bidMin v) || decide (classUnits cls < bidQty v) || decide (1 < bidCfg v) ||
  (decide (bidCfg v ≠ 0) && decide (cls ≠ 1))

def Ctx.bid (c : Ctx) (cls : Nat) : Bid := tget {} c.bids cls

/-- Writes a bid that is not refused; WGTS follows a change of PRICE (R173, R176). -/
def writeBid (s : State) (c cls : Nat) (v : DWord) : State :=
  s.updCtx c (fun x =>
    let old := x.bid cls
    let was := if old.last = s.gts then old.was else (old.lo, old.wgts)
    let wgts := if bidPrice v ≠ bidPrice old.lo then s.gts else old.wgts
    { x with bids := tset x.bids cls { lo := v, wgts := wgts, last := s.gts, was := was } })

/-- A bid register as it stood before an instant: a write of that very GTS is too late for it (R176, R179). -/
def Bid.before (b : Bid) (gts : Nat) : DWord × Nat := if b.last < gts ∨ b.last = 0 then (b.lo, b.wgts) else b.was

/-- Whether the sealing of the interval that begins at the coming T is still to come (R179). -/
def beforeSealing (s : State) : Bool := decide (s.gts + 40000 < s.mkt.t)

/-- BIDSET of R176: the state and the status. -/
def bidSet (s : State) (c cls : Nat) (v : DWord) : State × Nat :=
  if 4 < cls then (s, 3)
  else if bidRefused cls v then (s, 2)
  else (writeBid s c cls v, if beforeSealing s then 0 else 1)

/-- A unit of a class. -/
def unitKey (cls unit : Nat) : Nat := cls * 4096 + unit
def Market.unit (m : Market) (cls u : Nat) : LUnit := tget {} m.units (unitKey cls u)

/-- The units of a class that a context holds (R177); a unit in handover is held by no one. -/
def heldUnits (s : State) (c cls : Nat) : List Nat :=
  sortNat ((s.mkt.units.filter (fun e => decide (e.1 / 4096 = cls ∧ e.2.holder = some c))).map (fun e => e.1 % 4096))

/-- What a context pays for each unit of a class in this interval: those it holds, and those in handover to it (R177, R181). -/
def paidUnits (s : State) (c cls : Nat) : List Nat :=
  (s.mkt.units.filter (fun e => decide (e.1 / 4096 = cls ∧ (e.2.holder = some c ∨ e.2.incoming = some c)))).map (fun e => e.2.paid)

/-- BIDGET of R177. -/
def bidGet (s : State) (c sel : Nat) : DWord :=
  if sel ≤ 4 then ((s.ctx c).bid sel).lo
  else if 8 ≤ sel ∧ sel ≤ 12 then
    let cls := sel - 8
    let us := heldUnits s c cls
    let paid := (paidUnits s c cls).headD 0
    let granted := if s.mkt.published then (s.mkt.grants.filter (fun g => decide (g.cls = cls ∧ g.ctx = c))).length else 0xFFFF
    BitVec.ofNat 64 (paid % 2 ^ 32 * 2 ^ 32 + granted % 2 ^ 16 * 2 ^ 16 + us.length % 2 ^ 16)
  else if sel = 16 then BitVec.ofNat 64 (s.vf (s.ctx c).vf).bal
  else BitVec.allOnes 64

/-- The result word of PRICE: age in 256 µs, units left and price (R178). -/
def priceWord (gts stamp free price : Nat) : DWord :=
  BitVec.ofNat 64 (min ((gts - stamp) / 256000) 0xFFFE * 2 ^ 48 + free % 2 ^ 12 * 2 ^ 32 + price % 2 ^ 32)

/-- No price. -/
def noPrice : DWord := 0xFFFF_0000_0000_0000

/-- The latest clearing of this device (R178). -/
def spotPrice (s : State) (cls : Nat) : DWord :=
  match tfind s.mkt.spots cls with
  | some p => priceWord s.gts p.gts p.free p.price
  | none => noPrice

/-- An entry of the peer price table (R178, R192). -/
def peerPrice (s : State) (dev cls : Nat) : DWord :=
  match tfind s.mkt.peers dev with
  | some e => if dev ≤ 575 then priceWord s.gts e.stamp (e.free.getD cls 0) (e.prices.getD cls 0) else noPrice
  | none => noPrice

/-- PRICE of R178. -/
def priceOf (s : State) (sel : Nat) : DWord :=
  let cls := sel % 8
  let dev := bits sel 25 16
  if 4 < cls then noPrice
  else if sel.testBit 15 ∧ dev ≠ s.devNo then peerPrice s dev cls
  else spotPrice s cls

/-- A market word: nothing happens when no lane is guarded, and every guarded lane receives the result (R175). -/
def market (s : State) (pr : Nat) (f : Nat × Nat → State × Nat → State) (r : Nat × Nat → State × Nat) : State :=
  match lowest s pr with
  | none => s
  | some m => f m (r m)

/-- BIDSET (R175, R176). -/
def execBidset (f : WA) (s : State) : Out := .next <|
  plain (.bidset f) s (fun s => market s f.pr.toNat
    (fun _ r => busy (lanesW r.1 f.pr.toNat f.d.toNat (fun _ => BitVec.ofNat 32 r.2)) 8 8)
    (fun m => bidSet s s.curCtx (rdW s m f.b.toNat).toNat (rdX s m f.a.toNat)))

/-- Whether a selector of PRICE reads a peer's entry, which takes 12 fc (R175, R178). -/
def readsPeer (s : State) (sel : Nat) : Bool := decide (sel % 8 ≤ 4) && sel.testBit 15 && decide (bits sel 25 16 ≠ s.devNo)

/-- PRICE (R175, R178). -/
def execPrice (f : WA) (s : State) : Out := .next <|
  plain (.price f) s (fun s => market s f.pr.toNat
    (fun m r => busy (lanesX s f.pr.toNat f.d.toNat (fun _ => BitVec.ofNat 64 r.2)) (if readsPeer s (rdW s m f.a.toNat).toNat then 12 else 4) 8)
    (fun m => (s, (priceOf s (rdW s m f.a.toNat).toNat).toNat)))

/-- BIDGET (R175, R177). -/
def execBidget (f : WA) (s : State) : Out := .next <|
  plain (.bidget f) s (fun s => market s f.pr.toNat
    (fun _ r => busy (lanesX s f.pr.toNat f.d.toNat (fun _ => BitVec.ofNat 64 r.2)) 4 8)
    (fun m => (s, (bidGet s s.curCtx (rdW s m f.a.toNat).toNat).toNat)))

end Sys2Proof.Machine
end

