-- ==== Sys2Proof/Machine/Tile.lean ====
section
/-!
DEFINITION. The accumulator tiles and the tile queue (17_tile.md R395 to R416; 02_numbers.md R50 to R64): element arithmetic, plane forms,
the drain, images, the tile words, and the turns of their commands.
-/

namespace Sys2Proof.Machine

/-! ### Elements (R56 to R58, R61, R62) -/

/-- An element while terms enter it: its class, the exponent of its window and its significand. -/
structure Win where
  cls : ECls
  e : Int
  s : Int
deriving DecidableEq, Repr

/-- S, which SUM and CARRY add to (R61). -/
def elemS (x : Elem) : Int := (x.sum + x.carry).toInt

def winOf (x : Elem) : Win := ⟨x.cls, x.e, elemS x⟩

/-- The canonical form (R61). -/
def canonElem (x : Elem) : Elem := { x with sum := x.sum + x.carry, carry := 0 }

/-- A window held in redundant form: the carry vector is free, the sum vector is the rest (R61, log 11). -/
def redundant (n : Nat) (w : Win) : Elem :=
  { cls := w.cls, e := w.e, carry := Config.carrySplit n, sum := BitVec.ofInt 128 w.s - Config.carrySplit n }

/-- ⌊x × 2^d⌋. -/
def floorShift (x d : Int) : Int := if 0 ≤ d then x * 2 ^ d.toNat else x >>> (-d).toNat

/-- ⌊log₂|x|⌋ of a non-zero integer. -/
def msbOf (x : Int) : Int := Nat.log2 x.natAbs

/-- The class an element takes when its window would leave the exponent range: the sign of the exact sum (R57). -/
def overClass (w : Win) (t k : Int) : Win :=
  let lo := min w.e k
  { w with cls := if 0 < floorShift w.s (w.e - lo) + floorShift t (k - lo) then .pinf else .ninf }

/-- acc_add of a finite term `t × 2^k`, `t ≠ 0`, to a finite element (R57). -/
def addFinite (w : Win) (t k : Int) : Win :=
  let top := if w.s = 0 then msbOf t + k else max (msbOf w.s + w.e) (msbOf t + k)
  let e := if 110 < top - w.e then top - 110 else w.e
  if 2047 < e then overClass w t k
  else
    let s := floorShift w.s (w.e - e) + floorShift t (k - e)
    if s ≠ 0 ∧ 110 < msbOf s then
      let sh := msbOf s - 110
      if 2047 < e + sh then overClass w t k else { w with e := e + sh, s := s >>> sh.toNat }
    else { w with e := e, s := s }

/-- One term enters an element (R57, R58). -/
def accAdd (w : Win) (t : Fp) : Win :=
  match w.cls, t with
  | .nan, _ => w
  | _, .nan => { w with cls := .nan }
  | .fin, .inf neg => { w with cls := if neg then .ninf else .pinf }
  | .pinf, .inf neg => if neg then { w with cls := .nan } else w
  | .ninf, .inf neg => if neg then w else { w with cls := .nan }
  | .pinf, _ | .ninf, _ => w
  | .fin, .zero _ => w
  | .fin, .fin neg m k => if m = 0 then w else addFinite w (if neg then -(m : Int) else m) k

def clsCode : ECls → Nat
  | .fin => 0
  | .nan => 1
  | .pinf => 2
  | .ninf => 3

def clsOf : Nat → ECls
  | 0 => .fin
  | 1 => .nan
  | 2 => .pinf
  | _ => .ninf

/-- The low `n` bits of an integer in two's complement. -/
def wrapNat (x : Int) (n : Nat) : Nat := (x % 2 ^ n).toNat

/-- Element images (R62). -/
def redundantImage (x : Elem) : List Byte :=
  natLe 34 (x.sum.toNat + x.carry.toNat * 2 ^ 128 + wrapNat x.e 12 * 2 ^ 256 + clsCode x.cls * 2 ^ 270)
def canonicalImage (x : Elem) : List Byte :=
  natLe 17 (wrapNat (elemS x) 120 + wrapNat x.e 12 * 2 ^ 120 + clsCode x.cls * 2 ^ 134)

/-- The element an image holds, or `none` when it is malformed (R62). An element that is not finite takes none of the other fields: they are free
(log 11). -/
def elemOf (redun : Bool) (n : Nat) (bs : List Byte) : Option Elem :=
  let v := leNat bs
  let p := if redun then 256 else 120
  let cls := clsOf (bits v (p + 15) (p + 14))
  let x : Elem := { cls := cls, e := sextNat (bits v (p + 11) p) 12
                    sum := if redun then BitVec.ofNat 128 (bits v 127 0) else BitVec.ofInt 128 (sextNat (bits v 119 0) 120)
                    carry := if redun then BitVec.ofNat 128 (bits v 255 128) else 0 }
  if bits v (p + 13) (p + 12) ≠ 0 then none
  else if cls = .fin then (if (elemS x).natAbs < 2 ^ 111 then some x else none)
  else some { cls := cls, e := sextNat (Config.choice 11 n % 4096) 12, sum := Config.carrySplit n, carry := 0 }

/-! ### Operand tiles (R50 to R55) -/

/-- Bit (k, n) of a plane at a byte offset of a tile (R52). -/
def planeBit (t : List Byte) (off k n : Nat) : Bool := (t.getD (off + 4 * k + n / 8) 0).getLsbD (n % 8)

/-- The value of bit (k, n) of `count` planes from a byte offset, plane j weighing 2^j. -/
def planeSum (t : List Byte) (off count k n : Nat) : Nat :=
  (upto count).foldl (fun v j => if planeBit t (off + 128 * j) k n then v + 2 ^ j else v) 0

/-- A BF16 weight in plane form (R53). -/
def weightBf16 (t : List Byte) (k n : Nat) : Fp :=
  let neg := planeBit t 0 k n
  let e := (t.getD (1152 + 32 * k + n) 0).toNat
  let m := planeSum t 128 8 k n
  if e = 255 then (if m = 0 then .inf neg else .nan)
  else if m = 0 then .zero neg
  else .fin neg m ((if e = 0 then 1 else e : Nat) - 134)

/-- An integer weight of `b` planes with its group exponent (R49, R50, R52). -/
def weightInt (b : Nat) (t : List Byte) (k n : Nat) : Fp :=
  let g := (t.getD (128 * b + n) 0).toNat
  let q : Int := (planeSum t 0 (b - 1) k n : Int) - (if planeBit t (128 * (b - 1)) k n then 2 ^ (b - 1) else 0)
  if g = 255 then .nan else fpOfInt q ((g : Int) - 127)

/-- Element `k` of a row of an A slice (R400). -/
def activation (fmt : Nat) (row : List Byte) (k : Nat) : Fp :=
  match fmt with
  | 0 => fpDecode bf16 ((row.getD (2 * k) 0).toNat + 256 * (row.getD (2 * k + 1) 0).toNat)
  | 1 => fpDecode e4m3 (row.getD k 0).toNat
  | _ => fpDecode e5m2 (row.getD k 0).toNat

/-- Fields of a BF16 element as the plane form holds them (R53): sign, exponent byte, significand. -/
def planeFields (x : Nat) : Bool × Nat × Nat :=
  let e := x / 128 % 256
  let f := x % 128
  (x.testBit 15, e, if e = 0 ∨ e = 255 then f else 128 + f)

/-- A plane of 128 bytes from its bits (R52). -/
def planeBytes (p : Nat → Nat → Bool) : List Byte :=
  (upto 128).map (fun i => BitVec.ofNat 8 ((upto 8).foldl (fun v c => if p (i / 4) (8 * (i % 4) + c) then v + 2 ^ c else v) 0))

/-- The plane form of a 32 × 32 BF16 tile given by rows (R53). -/
def planeTile (x : List Nat) : List Byte :=
  let fs := x.map planeFields
  let at_ (k n : Nat) : Bool × Nat × Nat := fs.getD (32 * k + n) (false, 0, 0)
  planeBytes (fun k n => (at_ k n).1) ++
  (upto 8).flatMap (fun j => planeBytes (fun k n => (at_ k n).2.2.testBit j)) ++
  fs.map (fun f => BitVec.ofNat 8 f.2.1)

/-! ### The parameter block (R400) -/

def pbField (pb : List Byte) (hi lo : Nat) : Nat := bits (leNat pb) hi lo
def pbZt (pb : List Byte) : Nat := pbField pb 34 32
def pbShape (pb : List Byte) : Nat := pbField pb 35 35
def pbQuad (pb : List Byte) : Nat := pbField pb 37 36
def pbZf (pb : List Byte) : Bool := decide (pbField pb 38 38 = 1)
def pbNeg (pb : List Byte) : Bool := decide (pbField pb 39 39 = 1)
def pbDfmt (pb : List Byte) : Nat := pbField pb 41 40
def pbDpl (pb : List Byte) : Bool := decide (pbField pb 42 42 = 1)
def pbRse (pb : List Byte) : Bool := decide (pbField pb 43 43 = 1)
def pbCse (pb : List Byte) : Bool := decide (pbField pb 44 44 = 1)
/-- Space of A, B and the drain destination: 1 scratchpad, 2 eaves. -/
def pbAsp (pb : List Byte) : Nat := pbField pb 45 45 + 1
def pbBsp (pb : List Byte) : Nat := pbField pb 46 46 + 1
def pbDsp (pb : List Byte) : Nat := pbField pb 47 47 + 1
def pbAfmt (pb : List Byte) : Nat := pbField pb 23 20
def pbBfmt (pb : List Byte) : Nat := pbField pb 27 24
def pbKt (pb : List Byte) : Nat := pbField pb 79 64 + 1
def pbReserved (pb : List Byte) : Nat := pbField pb 19 0 + pbField pb 31 28 + pbField pb 63 48 + pbField pb 127 80
/-- Word `n` of the upper part: 0 AOFF, 1 ASTR, 2 BOFF, 3 BSTR, 4 ACSTR, 5 BCSTR, 6 DOFF, 7 DRS, 8 RSOFF, 9 CSOFF, 10 DRCS, 11 DCCS. -/
def pbWord (pb : List Byte) (n : Nat) : Nat := pbField pb (128 + 32 * n + 31) (128 + 32 * n)

/-- Side of the shape, and its first row and column (R402). -/
def pbSide (pb : List Byte) : Nat := if pbShape pb = 0 then 32 else 16
def pbRow0 (pb : List Byte) : Nat := if pbShape pb = 0 then 0 else 16 * (pbQuad pb / 2)
def pbCol0 (pb : List Byte) : Nat := if pbShape pb = 0 then 0 else 16 * (pbQuad pb % 2)
/-- K tiles per slice, slices, and bytes of a B tile. -/
def pbWide (pb : List Byte) : Nat := if pbAfmt pb = 0 then 1 else 2
def pbSlices (pb : List Byte) : Nat := pbKt pb / pbWide pb
def pbPlanes (pb : List Byte) : Nat := match pbBfmt pb with | 0 => 8 | 1 => 4 | _ => 3
def pbTile (pb : List Byte) : Nat := match pbBfmt pb with | 0 => 2176 | 1 => 544 | _ => 416
def pbSize (pb : List Byte) : Nat := match pbDfmt pb with | 0 => 4 | 1 => 2 | _ => 1

def wrap32 (n : Nat) : Nat := n % 2 ^ 32
def aBase (pb : List Byte) (c0 u : Nat) : Nat := wrap32 (pbWord pb 0 + c0 * pbWord pb 4 + u * pbWord pb 1)
def bBase (pb : List Byte) (c1 k : Nat) : Nat := wrap32 (pbWord pb 2 + c1 * pbWord pb 5 + k * pbWord pb 3)
def dBase (pb : List Byte) (c0 c1 : Nat) : Nat := wrap32 (pbWord pb 6 + c0 * pbWord pb 10 + c1 * pbWord pb 11)
def dAddr (pb : List Byte) (c0 c1 i j : Nat) : Nat := wrap32 (dBase pb c0 c1 + i * pbWord pb 7 + j * pbSize pb)
def rowScale (pb : List Byte) (c0 r : Nat) : Nat := wrap32 (pbWord pb 8 + 128 * c0 + 4 * r)
def colScale (pb : List Byte) (c1 c : Nat) : Nat := wrap32 (pbWord pb 9 + 128 * c1 + 4 * c)

/-- The places of a shape, row by row. -/
def places (n : Nat) : List (Nat × Nat) := (upto n).flatMap (fun i => (upto n).map (fun j => (i, j)))

/-- Ranges of bytes a drain writes and the scales it reads. -/
def drainRanges (pb : List Byte) (c0 c1 : Nat) : List (Nat × Nat) :=
  if pbDpl pb then [(dBase pb c0 c1, 2176)]
  else (places (pbSide pb)).map (fun p => (dAddr pb c0 c1 p.1 p.2, pbSize pb))
def scaleRanges (pb : List Byte) (c0 c1 : Nat) : List (Nat × Nat) :=
  (if pbRse pb then (upto (pbSide pb)).map (fun i => (rowScale pb c0 (pbRow0 pb + i), 4)) else []) ++
  (if pbCse pb then (upto (pbSide pb)).map (fun i => (colScale pb c1 (pbCol0 pb + i), 4)) else [])
/-- Ranges of bytes that slice `u` of a TMMA reads from A and from B. -/
def sliceA (pb : List Byte) (c0 u : Nat) : Nat × Nat := (aBase pb c0 u, 64 * pbSide pb)
def sliceB (pb : List Byte) (c1 u : Nat) : List (Nat × Nat) :=
  (upto (pbWide pb)).map (fun i => (bBase pb c1 (pbWide pb * u + i), pbTile pb))

/-- Size of a region: 1 scratchpad, 2 eaves. -/
def spaceSize (b : Block) (sp : Nat) : Nat := if sp = 1 then padSize b else eavesSize b
def fits (size : Nat) (rs : List (Nat × Nat)) : Bool := rs.all (fun r => decide (r.1 + r.2 ≤ size))

/-- The detail of R401 check 3, or 0. -/
def pbDetail (pb : List Byte) (drain : Bool) : Nat :=
  if pbReserved pb ≠ 0 then 1
  else if !drain && (decide (2 < pbAfmt pb ∨ 2 < pbBfmt pb) || (decide (pbAfmt pb ≠ 0) && decide (pbBfmt pb = 0))) then 2
  else if !drain && decide (pbAfmt pb ≠ 0 ∧ pbKt pb % 2 = 1) then 3
  else if drain && pbDpl pb && decide (pbDfmt pb ≠ 1 ∨ pbShape pb = 1) then 4
  else if pbQuad pb ≠ 0 ∧ pbShape pb = 0 then 5
  else 0

/-- Check 5 of R401. -/
def pbAligned (pb : List Byte) (drain : Bool) : Bool :=
  let m (n w : Nat) : Bool := decide (pbWord pb w % n = 0)
  if drain then
    let z := if pbDpl pb then 128 else pbSize pb
    m z 6 && m z 7 && m z 10 && m z 11 && (!pbRse pb || m 4 8) && (!pbCse pb || m 4 9)
  else m 64 0 && m 64 1 && m 64 4 && m 128 2 && m 128 3 && m 128 5

/-- Check 6 of R401. -/
def pbInside (b : Block) (pb : List Byte) (c0 c1 : Nat) (drain : Bool) : Bool :=
  if drain then fits (spaceSize b (pbDsp pb)) (drainRanges pb c0 c1) && fits (padSize b) (scaleRanges pb c0 c1)
  else
    (upto (pbSlices pb)).all (fun u =>
      fits (spaceSize b (pbAsp pb)) [sliceA pb c0 u] && fits (spaceSize b (pbBsp pb)) (sliceB pb c1 u))

/-! ### The drain (R63, R64) -/

/-- The result of a special element or scale, with whether it sets NV by itself; `none` where nothing is special. -/
def drainSpecial (cls : ECls) (s : Int) (rs cs : Fp) : Option (Fp × Bool) :=
  let isInf (x : Fp) : Bool := match x with | .inf _ => true | _ => false
  let neg := xor (fpNeg rs) (fpNeg cs)
  if cls = .nan ∨ fpIsNaN rs ∨ fpIsNaN cs then some (.nan, false)
  else match cls with
    | .pinf | .ninf =>
      if fpIsZero rs || fpIsZero cs then some (.nan, true) else some (.inf (xor (decide (cls = .ninf)) neg), false)
    | _ =>
      if isInf rs || isInf cs then
        if fpIsZero rs || fpIsZero cs || decide (s = 0) then some (.nan, true) else some (.inf (xor (decide (s < 0)) neg), false)
      else none

/-- The format of a drain. -/
def drainFmt (d : Nat) : FFmt := match d with | 0 => fp32 | 1 => bf16 | 2 => e4m3 | _ => e5m2

/-- drain of R63: the bits and the flags. -/
def drainElem (x : Elem) (rs cs : Fp) (d mode : Nat) (ftz f8ns : Bool) : FRes :=
  let f := drainFmt d
  let s := elemS x
  match drainSpecial x.cls s rs cs with
  | some (.inf neg, _) => if d = 2 then ⟨fpNaN f, flNV⟩ else ⟨fpInf f neg, 0⟩
  | some (_, nv) => ⟨fpNaN f, if nv then flNV else 0⟩
  | none =>
    if s = 0 then ⟨0, 0⟩
    else
      match fpMul (fpMul (fpOfInt s x.e) rs) cs with
      | .fin neg m e => if d < 2 then fpRound f mode ftz none neg m e else fpConv8 f mode f8ns (.fin neg m e)
      | y => ⟨fpSign f (fpNeg y), 0⟩

/-! ### The tile queue (R395, R396, R415) -/

/-- Whether the command with a ticket, and every earlier one, has finished (R412). -/
def ticketDone (b : Block) (t : Nat) : Bool := decide ((b.done + 2 ^ 33 - t - 1) % 2 ^ 32 < 2 ^ 31)

/-- Nanoseconds of `n` lc on a core: by its cluster's lane clock ratio, times the pass count (R21, R22). -/
def lcTime (s : State) (core n : Nat) : Nat :=
  let k := s.power.cl (clusterOf core)
  let p := n * 2 ^ k.pass
  match k.ratio with | 0 => 2 * p | 1 => p | _ => (p + 1) / 2

/-- The event that is a command's turn. -/
def turnOf (op : TileOp) : Instr :=
  match op with
  | .tmma _ _ _ => .tmmaTurn
  | .tzero _ => .tzeroTurn
  | .tres _ => .tresTurn
  | .tcmp _ _ => .tcmpTurn
  | .tcmpX _ _ => .tcmpXTurn
  | .tdrain _ _ _ _ _ => .tdrainTurn
  | .tsave _ _ => .tsaveTurn
  | .tsaveC _ _ => .tsaveCTurn
  | .tload _ _ => .tloadTurn
  | .tplane _ _ _ => .tplaneTurn
  | .tmov _ _ => .tmovTurn

/-- The tiles a command names. -/
def tilesOf (op : TileOp) : List Nat :=
  match op with
  | .tmma pb _ _ | .tdrain _ pb _ _ _ => [pbZt pb]
  | .tzero z | .tres z | .tcmp _ z | .tcmpX _ z | .tsave _ z | .tsaveC _ z | .tload _ z => [z]
  | .tplane _ _ _ => []
  | .tmov d a => [d, a]

/-- The time of a command at its turn, in lc (R398, R405); for a TMMA the time to its first slice boundary. -/
def turnTime (b : Block) (op : TileOp) : Nat :=
  let red (z : Nat) : Nat := if (b.tile z).st = 1 then 64 else 0
  match op with
  | .tmma pb _ _ => 16 + pbPlanes pb
  | .tzero _ => 8
  | .tres z => if (b.tile z).st = 1 then 64 else 2
  | .tcmp _ _ => 8
  | .tcmpX _ z => 8 + red z
  | .tdrain _ pb _ _ _ => (if pbShape pb = 0 then 64 else 16) + red (pbZt pb)
  | .tsave _ _ => 16 + 273
  | .tsaveC _ z => 16 + 137 + red z
  -- a redundant image takes 136 lc more, which the command adds when it has read the header
  | .tload _ _ => 32 + 137
  | .tplane _ _ _ => 40
  | .tmov _ _ => 32

/-- Gives the head of a core's tile queue its turn. -/
def pokeTile (s : State) (core : Nat) : State :=
  match (s.core core).tileQ with
  | [] => s
  | c :: _ => s.postOnce (s.gts + lcTime s core (turnTime (s.blk c.blk) c.op)) core (turnOf c.op) { x := core }

/-- Lets the TWAITs of a block return whose commands have finished (R413). -/
def serveTwaits (s : State) (b : Nat) : State :=
  s.foldl (s.blk b).groupIds (fun t j =>
    t.foldl (((t.grp b j).pend.filter (fun p => decide (p.kind = .twait) && ticketDone (t.blk b) p.tick))) (fun t p =>
      t.postOnce t.gts (t.blkCore b) .loadResultReturn { x := b, y := j, z := p.id, u := 0 }))

/-- An engine operation of threads is unfinished no longer; release atomics may then be performed (04 R113). -/
def opsDone (s : State) (b id : Nat) (who : List (Nat × Nat)) : State :=
  let s := s.foldl who (fun t m => if thas (t.blk b).groups m.1 then t.updThr b m.1 m.2 (fun th => { th with engOps := th.engOps.filter (· ≠ id) }) else t)
  s.foldl ((who.map Prod.fst).eraseDups) (fun t j => pokeQueue t b j)

/-- The turn of the head of a tile queue ends: neither its event nor a wait of it is left. -/
def leaveTurn (s : State) (core : Nat) (c : TileCmd) : State :=
  let s := s.unpost (turnOf c.op) { x := core }
  { s with page := { s.page with waiters := s.page.waiters.filter (fun w => decide (w.retry ≠ some (turnOf c.op, { x := core }))) } }

/-- A command finishes: the next one of its queue gets its turn, and its block's waits and exit are looked at (R396, R413). -/
def finishTile (s : State) (core : Nat) (c : TileCmd) : State :=
  let head := match (s.core core).tileQ with | d :: _ => decide (d.blk = c.blk ∧ d.ticket = c.ticket) | [] => false
  let s := if head then leaveTurn s core c else s
  let s := s.updCore core (fun k => { k with tileQ := k.tileQ.filter (fun d => !(decide (d.blk = c.blk ∧ d.ticket = c.ticket))) })
  let s := s.updBlk c.blk (fun k => { k with done := (k.done + 1) % 2 ^ 32 })
  let s := pokeExit (serveTwaits (opsDone s c.blk c.id c.who) c.blk) c.blk
  if head then pokeTile s core else s

/-- The result of a TCMP goes to its registers as a variable-latency result (R407, R121). -/
def compareResult (s : State) (c : TileCmd) (row : Nat → Nat) : State :=
  s.foldl c.pend (fun t p =>
    let t := t.updGrp c.blk p.1 (fun g => { g with pend := g.pend.map (fun q => if q.id = p.2 then
      { q with accs := q.accs.map (fun a => { a with cap := true, val := natLe 8 (row a.lane) }) } else q) })
    match (t.grp c.blk p.1).pend.find? (fun q => q.id = p.2) with
    | none => t
    | some q => t.foldl q.accs (fun t a => t.postOnce t.gts (t.blkCore c.blk) .loadResultReturn { x := c.blk, y := p.1, z := p.2, u := a.lane }))

/-- A command finishes at once without effect; a TCMP writes 0 (R415). -/
def discardTile (s : State) (core : Nat) (c : TileCmd) : State := finishTile (compareResult s c (fun _ => 0)) core c

/-- A command fails at its turn (R415): the trap is due in its group, and every queued command of the block is discarded. Where the group is gone the
failure clears at once (log 95). -/
def failTile (s : State) (core : Nat) (c : TileCmd) (code : Nat) : State :=
  let gone := (s.grp c.blk c.j).done || (s.grp c.blk c.j).alive.isEmpty
  let s := if gone then s else
    let s := s.updBlk c.blk (fun k => { k with err := true, errc := code, errJ := c.j })
    pokeMarker (s.updGrp c.blk c.j (fun g =>
      if code = 4 then { g with softErr := some (2, c.ticket) } else { g with tileErr := some (code, c.ticket) })) c.blk c.j
  s.foldl ((s.core core).tileQ.filter (fun d => d.blk = c.blk)) (fun t d => discardTile t core d)

/-- Whether the accesses that a command follows are not yet performed, faulted loads included (04 R109, R111, R113); a command of a handler
does not wait for what its RETT retries. -/
def fenced (s : State) (b : Nat) (fence : List (Nat × Nat)) : Bool :=
  fence.any (fun f =>
    let g := s.grp b f.1
    g.sq.any (fun e => seqBefore e.seq e.after f.2) || g.aside.any (fun e => seqBefore e.seq e.after f.2 && decide (f.2 ≤ g.hseq)) ||
    g.pend.any (fun p => decide (p.kind = .load) && seqBefore p.seq p.after f.2 && p.accs.any (fun a => !a.cap) &&
      !(g.faultHandler && decide (p.seq < g.hseq ∧ g.hseq < f.2) && loadStuck g p)))

def Block.updTile (b : Block) (z : Nat) (f : Tile → Tile) : Block := { b with tiles := tset b.tiles z (f (b.tile z)) }
def State.updTile (s : State) (b z : Nat) (f : Tile → Tile) : State := s.updBlk b (fun k => k.updTile z f)

/-- Resolves a tile: a REDUNDANT tile becomes CANONICAL, its values unchanged (R61, R399). -/
def resolveTile (t : Tile) : Tile := if t.st = 1 then { t with st := 2, el := tmap (fun _ x => canonElem x) t.el } else t

def Tile.elem (t : Tile) (n : Nat) : Elem := tget {} t.el n

/-- The state TZERO leaves (R56, R399). -/
def zeroTile (_ : Tile) : Tile := {}

/-- What a tile command needs from outside: done, or why not. -/
inductive TileRes where
  | done (s : State)
  /-- Slices remain; the next boundary comes after this many lc. -/
  | more (s : State) (lc : Nat)
  | wait (s : State) (va acc stage : Nat) (need : Lack)
  | fail (s : State) (code : Nat)

/-- Goes on with the lines of ranges of scratchpad bytes VALID. -/
def withPad (s : State) (b : Nat) (rs : List (Nat × Nat)) (k : State → TileRes) : TileRes :=
  match padFill s b rs with
  | .done t => k t
  | .wait va stage need => .wait s va aFILL stage need
  | .fail _ _ _ => .fail s 1

/-- Whether a command is a TMMA. -/
def isTmma (o : TileOp) : Bool := match o with | .tmma _ _ _ => true | _ => false

/-- Whether slices of a TMMA remain. -/
def openChain (s : State) (c : TileCmd) : Bool :=
  match c.op with | .tmma pb _ _ => decide (((s.blk c.blk).tile (pbZt pb)).stepNo < pbSlices pb) | _ => false

/-- The head of a tile queue leaves for its block's image, ahead of the commands that have not begun (R404). -/
def saveHead (s : State) (core : Nat) : State :=
  match (s.core core).tileQ with
  | h :: q => pokeTile ((s.updBlk h.blk (fun k => { k with tileSaved := h :: k.tileSaved })).updCore core (fun k => { k with tileQ := q })) core
  | [] => s

/-- Runs a command at its turn, if it is the head and of the event's kind. A poisoned tile fails with SOFT (R399). -/
def tileTurn (s : State) (core : Nat) (ok : TileOp → Bool) (act : State → TileCmd → TileRes) : State :=
  match (s.core core).tileQ with
  | [] => s
  | c :: _ =>
    if !ok c.op || (s.blk c.blk).core ≠ some core then s
    else if fenced s c.blk c.fence then s.post (s.gts + 1) core (turnOf c.op) { x := core }
    else if (s.blk c.blk).err then discardTile s core c
    else
      let bad := match c.op with
        | .tzero _ | .tload _ _ => false
        | .tmov _ a => decide (((s.blk c.blk).tile a).st = 3)
        | op => (tilesOf op).any (fun z => decide (((s.blk c.blk).tile z).st = 3))
      if bad then failTile s core c 4
      else
        let s := if c.begun then s else
          let t := s.updCore core (fun k => { k with tileQ := { c with begun := true } :: k.tileQ.drop 1 })
          match c.op with | .tmma pb _ _ => t.updTile c.blk (pbZt pb) (fun z => { z with stepNo := 0 }) | _ => t
        match act s c with
        | .done t => finishTile t core c
        | .more t lc =>
          if c.stop then finishTile t core c
          -- R404: the chain of a block that is pre-empted stops at this boundary and is saved ahead of the queued commands
          else if openChain t c && (t.blk c.blk).stopped then saveHead t core
          else t.post (t.gts + lcTime t core lc) core (turnOf c.op) { x := core }
        | .wait t va acc stage need =>
          if c.stop then finishTile t core c
          else if openChain t c && (t.blk c.blk).stopped then saveHead t core
          else waitOn t (t.blk c.blk).ctx va acc stage need core (turnOf c.op, { x := core })
        | .fail t code => failTile t core c code

/-! ### What the commands do at their turns -/

/-- The terms of one slice enter an element (R402). -/
def sliceTerms (neg : Bool) (w : Win) (a b : List Fp) : Win :=
  (a.zip b).foldl (fun w p => accAdd w (if neg then fpNegate (fpMul p.1 p.2) else fpMul p.1 p.2)) w

/-- Slice `u` of a TMMA: its terms enter the elements of the shape in ascending k (R402). -/
def tmmaSlice (s : State) (b : Nat) (pb : List Byte) (c0 c1 u : Nat) : State :=
  let n := pbSide pb
  let depth := 32 * pbWide pb
  let a := sliceA pb c0 u
  let bytes := engineRead s b (pbAsp pb) a.1 a.2
  let rows := (upto n).map (fun i => let row := (bytes.drop (64 * i)).take 64; (upto depth).map (activation (pbAfmt pb) row))
  let tiles := (sliceB pb c1 u).map (fun r => engineRead s b (pbBsp pb) r.1 r.2)
  let weight (k j : Nat) : Fp :=
    let t := tiles.getD (k / 32) []
    match pbBfmt pb with | 0 => weightBf16 t (k % 32) j | 1 => weightInt 4 t (k % 32) j | _ => weightInt 3 t (k % 32) j
  let cols := (upto n).map (fun j => (upto depth).map (fun k => weight k j))
  let inside (p lo : Nat) : Bool := decide (lo ≤ p ∧ p < lo + n)
  let s' := s.updTile b (pbZt pb) (fun z =>
    { z with
        st := 1
        stepNo := u + 1
        el := (places 32).map (fun p =>
          let idx := 32 * p.1 + p.2
          (idx, if inside p.1 (pbRow0 pb) && inside p.2 (pbCol0 pb) then
              redundant (s.freeCtr + idx)
                (sliceTerms (pbNeg pb) (winOf (z.elem idx)) (rows.getD (p.1 - pbRow0 pb) []) (cols.getD (p.2 - pbCol0 pb) []))
            else z.elem idx)) })
  -- 20 R470: one plane step for each plane of the slice (R405)
  countEvent { s' with freeCtr := s'.freeCtr + 1024 } (s.blk b).ctx 0x60 (match pbBfmt pb with | 0 => 8 | 1 => 4 | _ => 3)

/-- One slice of a TMMA, from the saved step on (R402, R404). -/
def tmmaStep (s : State) (c : TileCmd) (pb : List Byte) (c0 c1 : Nat) : TileRes :=
  let z := pbZt pb
  let u := ((s.blk c.blk).tile z).stepNo
  let ranges := (if pbAsp pb = 1 then [sliceA pb c0 u] else []) ++ (if pbBsp pb = 1 then sliceB pb c1 u else [])
  -- R405: 8 lc finish the last slice
  if pbSlices pb ≤ u then .done (s.updTile c.blk z (fun x => { x with stepNo := 0 })) else
  let s := if u = 0 ∧ pbZf pb then s.updTile c.blk z zeroTile else s
  withPad s c.blk ranges (fun s =>
    let t := tmmaSlice s c.blk pb c0 c1 u
    .more t (if u + 1 = pbSlices pb then 8 else pbPlanes pb))

/-- The sign of an element (R407): GT, LT, or `none` for EQ and UND, with whether it is UND. -/
def signOf (canon : Bool) (x : Elem) : Option Bool × Bool :=
  match x.cls with
  | .pinf => (some true, false)
  | .ninf => (some false, false)
  | .nan => (none, true)
  | .fin =>
    if canon then
      let s := elemS x
      (if 0 < s then some true else if s < 0 then some false else none, false)
    else
      let t := ((x.sum.extractLsb' 104 24) + (x.carry.extractLsb' 104 24)).toInt
      if 1 ≤ t then (some true, false) else if t ≤ -2 then (some false, false) else (none, true)

/-- The masks of one row: GT in the low word, LT in the high word. -/
def rowMasks (canon : Bool) (t : Tile) (r : Nat) : Nat :=
  (upto 32).foldl (fun v c => match (signOf canon (t.elem (32 * r + c))).1 with
    | some true => v + 2 ^ c
    | some false => v + 2 ^ (32 + c)
    | none => v) 0

def compareTile (s : State) (c : TileCmd) (z : Nat) : TileRes :=
  let t := (s.blk c.blk).tile z
  let canon := decide (t.st ≠ 1)
  let und := (upto 1024).any (fun n => (signOf canon (t.elem n)).2)
  let s := compareResult s c (fun l => rowMasks canon t (l % 32))
  .done (s.updTile c.blk z (fun x => { x with und := und }))

/-- A scale as the drain reads it (R63): 1.0 where scales are not enabled. -/
def scaleAt (s : State) (b : Nat) (on ftz : Bool) (off : Nat) : Fp :=
  if on then fpSource fp32 ftz (leNat (padRead s b off 4)) else .fin false 1 0

/-- Flags of a drain go to the FPC of its group, unless a later MTS has replaced it (R42, R43). -/
def drainFlags (s : State) (c : TileCmd) (flags : Nat) : State :=
  if flags = 0 ∨ c.stale = true ∨ (s.grp c.blk c.j).done then s
  else s.updGrp c.blk c.j (fun g => { g with fpc := g.fpc ||| BitVec.ofNat 32 flags })

/-- TDRAIN at its turn (R408). -/
def drainTile (s : State) (c : TileCmd) (mode : Nat) (pb : List Byte) (c0 c1 fpc : Nat) : TileRes :=
  let z := pbZt pb
  let n := pbSide pb
  let ftz := fpc.testBit 10
  let f8ns := fpc.testBit 11
  let s := s.updTile c.blk z resolveTile
  withPad s c.blk (scaleRanges pb c0 c1 ++ (if pbDsp pb = 1 then drainRanges pb c0 c1 else [])) (fun s =>
    let t := (s.blk c.blk).tile z
    let rs := (upto n).map (fun i => scaleAt s c.blk (pbRse pb) ftz (rowScale pb c0 (pbRow0 pb + i)))
    let cs := (upto n).map (fun j => scaleAt s c.blk (pbCse pb) ftz (colScale pb c1 (pbCol0 pb + j)))
    let res := (places n).map (fun p =>
      (p, drainElem (t.elem (32 * (pbRow0 pb + p.1) + pbCol0 pb + p.2)) (rs.getD p.1 .nan) (cs.getD p.2 .nan) (pbDfmt pb) mode ftz f8ns))
    let s := drainFlags s c (res.foldl (fun v r => v ||| r.2.flags) 0)
    .done (if pbDpl pb then engineWrite s c.blk (pbDsp pb) (dBase pb c0 c1) (planeTile (res.map (fun r => r.2.bits)))
      else s.foldl res (fun t r => engineWrite t c.blk (pbDsp pb) (dAddr pb c0 c1 r.1.1 r.1.2) (natLe (pbSize pb) r.2.bits))))

/-- The image of a tile with its header (R409). -/
def tileImage (redun : Bool) (t : Tile) : List Byte :=
  let body := (upto 1024).flatMap (fun n => if redun then redundantImage (t.elem n) else canonicalImage (t.elem n))
  natLe 64 (1 + (if redun then 1 else 2) * 2 ^ 8 + 1024 * 2 ^ 32 + crc32c body * 2 ^ 64) ++ body

def imageSize (redun : Bool) : Nat := if redun then 34880 else 17472

/-- TSAVE and TSAVE.C at their turn (R409). -/
def saveTile (s : State) (c : TileCmd) (addr z : Nat) (redun : Bool) : TileRes :=
  let s := if redun then s else s.updTile c.blk z resolveTile
  let k := s.blk c.blk
  match tagOf addr with
  | some (0, a) =>
    let bs := tileImage redun (k.tile z)
    (match vwriteAll s k.ctx (vaOf a) bs aEWRITE k.priv (s.blkCore c.blk) with
    | (t, none) => .done t
    | (t, some (.wait _ stage _ need)) => .wait t (waitWriteVa t k.ctx (vaOf a) bs aEWRITE k.priv (s.blkCore c.blk)) aEWRITE stage need
    | (t, _) => .fail t 2)
  | some (1, a) => withPad s c.blk [(a, imageSize redun)] (fun s => .done (enginePad s c.blk a (tileImage redun (k.tile z))))
  | some (_, a) => .done (eavesWrite s c.blk a (tileImage redun (k.tile z)))
  | none => .fail s 2

/-- What reading an image gives. -/
inductive ImgRes where
  | bytes (bs : List Byte) (s : State)
  | wait (va stage : Nat) (need : Lack)
  | bad (code : Nat)

/-- Reads `n` bytes at a tagged address. -/
def readImage (s : State) (b addr n : Nat) : ImgRes :=
  let k := s.blk b
  match tagOf addr with
  | some (0, a) =>
    (match vreadAll s k.ctx (vaOf a) n aEREAD k.priv with
    | .done bs => .bytes bs s
    | .wait _ stage _ need => .wait (waitVa s k.ctx (vaOf a) n aEREAD k.priv) stage need
    | .fail _ _ => .bad 1)
  | some (1, a) =>
    if padSize k < a + n then .bad 3
    else (match padFill s b [(a, n)] with
    | .done t => .bytes (padRead t b a n) t
    | .wait va stage need => .wait va stage need
    | .fail _ _ _ => .bad 1)
  | some (_, a) => if eavesSize k < a + n then .bad 3 else .bytes (eavesRead s b a n) s
  | none => .bad 3

/-- Whether a header is malformed (R410). -/
def headerBad (h : List Byte) : Bool :=
  decide (recBits h 511 96 ≠ 0 ∨ recBits h 63 48 ≠ 0 ∨ recBits h 31 16 ≠ 0) ||
  decide (recBits h 15 8 ≠ 1 ∧ recBits h 15 8 ≠ 2) || decide (recBits h 47 32 ≠ 1024) || decide (recBits h 7 0 ≠ 1)

/-- The elements of an image, or `none` when one is malformed. -/
def imageElems (redun : Bool) (n : Nat) (body : List Byte) : Option (List Elem) :=
  let sz := if redun then 34 else 17
  (upto 1024).foldr (fun i r => match r, elemOf redun (n + i) ((body.drop (sz * i)).take sz) with
    | some l, some x => some (x :: l)
    | _, _ => none) (some [])

/-- TLOAD at its turn (R410). -/
def loadTile (s : State) (c : TileCmd) (addr z : Nat) : TileRes :=
  match readImage s c.blk addr 64 with
  | .wait va stage need => .wait s va aEREAD stage need
  | .bad code => .fail s code
  | .bytes h s =>
    if headerBad h then .fail s 3
    else
      let redun := decide (recBits h 15 8 = 1)
      -- R398: a redundant image takes 273 lc, where 137 have passed
      if redun && !c.wide then
        let core := s.blkCore c.blk
        .more (s.updCore core (fun k => { k with tileQ := { c with begun := true, wide := true } :: k.tileQ.drop 1 })) 136
      else match readImage s c.blk addr (imageSize redun) with
      | .wait va stage need => .wait s va aEREAD stage need
      | .bad code => .fail s code
      | .bytes img s =>
        let body := img.drop 64
        if recBits h 95 64 ≠ crc32c body then .fail s 3
        else match imageElems redun s.freeCtr body with
          | none => .fail s 3
          | some xs =>
            let t := s.updTile c.blk z (fun _ => { st := if redun then 1 else 2, und := false, stepNo := 0, el := (upto 1024).zip xs })
            .done { t with freeCtr := t.freeCtr + 1024 }

/-- TPLANE at its turn (R411). -/
def planeConvert (s : State) (c : TileCmd) (sp a off : Nat) : TileRes :=
  withPad s c.blk ((if sp = 1 then [(a, 2048)] else []) ++ [(off, 2176)]) (fun s =>
    let src := engineRead s c.blk sp a 2048
    .done (enginePad s c.blk off (planeTile ((upto 1024).map (fun n => (src.getD (2 * n) 0).toNat + 256 * (src.getD (2 * n + 1) 0).toNat)))))

/-- TMOV at its turn (R406). -/
def moveTile (s : State) (c : TileCmd) (d a : Nat) : TileRes :=
  if d = a then .done s else .done (s.updTile c.blk d (fun _ => { (s.blk c.blk).tile a with stepNo := 0 }))

/-! ### The turns as events -/

/-- TMMA_TURN (R402). -/
def execTmmaTurn (s : State) : Out := .next <|
  tileTurn s s.arg.x (fun o => match o with | .tmma _ _ _ => true | _ => false)
    (fun s c => match c.op with | .tmma pb c0 c1 => tmmaStep s c pb c0 c1 | _ => .done s)

/-- TZERO_TURN (R406). -/
def execTzeroTurn (s : State) : Out := .next <|
  tileTurn s s.arg.x (fun o => match o with | .tzero _ => true | _ => false)
    (fun s c => match c.op with | .tzero z => .done (s.updTile c.blk z zeroTile) | _ => .done s)

/-- TRES_TURN (R406). -/
def execTresTurn (s : State) : Out := .next <|
  tileTurn s s.arg.x (fun o => match o with | .tres _ => true | _ => false)
    (fun s c => match c.op with | .tres z => .done (s.updTile c.blk z resolveTile) | _ => .done s)

/-- TCMP_TURN (R407). -/
def execTcmpTurn (s : State) : Out := .next <|
  tileTurn s s.arg.x (fun o => match o with | .tcmp _ _ => true | _ => false)
    (fun s c => match c.op with | .tcmp _ z => compareTile s c z | _ => .done s)

/-- TCMP_X_TURN (R407). -/
def execTcmpXTurn (s : State) : Out := .next <|
  tileTurn s s.arg.x (fun o => match o with | .tcmpX _ _ => true | _ => false)
    (fun s c => match c.op with | .tcmpX _ z => compareTile (s.updTile c.blk z resolveTile) c z | _ => .done s)

/-- TDRAIN_TURN (R408). -/
def execTdrainTurn (s : State) : Out := .next <|
  tileTurn s s.arg.x (fun o => match o with | .tdrain _ _ _ _ _ => true | _ => false)
    (fun s c => match c.op with | .tdrain rm pb c0 c1 fpc => drainTile s c rm pb c0 c1 fpc | _ => .done s)

/-- TSAVE_TURN (R409). -/
def execTsaveTurn (s : State) : Out := .next <|
  tileTurn s s.arg.x (fun o => match o with | .tsave _ _ => true | _ => false)
    (fun s c => match c.op with | .tsave a z => saveTile s c a z true | _ => .done s)

/-- TSAVE_C_TURN (R409). -/
def execTsaveCTurn (s : State) : Out := .next <|
  tileTurn s s.arg.x (fun o => match o with | .tsaveC _ _ => true | _ => false)
    (fun s c => match c.op with | .tsaveC a z => saveTile s c a z false | _ => .done s)

/-- TLOAD_TURN (R410). -/
def execTloadTurn (s : State) : Out := .next <|
  tileTurn s s.arg.x (fun o => match o with | .tload _ _ => true | _ => false)
    (fun s c => match c.op with | .tload a z => loadTile s c a z | _ => .done s)

/-- TPLANE_TURN (R411). -/
def execTplaneTurn (s : State) : Out := .next <|
  tileTurn s s.arg.x (fun o => match o with | .tplane _ _ _ => true | _ => false)
    (fun s c => match c.op with | .tplane sp a off => planeConvert s c sp a off | _ => .done s)

/-- TMOV_TURN (R406). -/
def execTmovTurn (s : State) : Out := .next <|
  tileTurn s s.arg.x (fun o => match o with | .tmov _ _ => true | _ => false)
    (fun s c => match c.op with | .tmov d a => moveTile s c d a | _ => .done s)

/-! ### The tile words (R397, R398, R401) -/

/-- Writes the ticket or another scalar result to x D of every guarded lane. -/
def scalarX (s : State) (pr d v : Nat) : State := lanesX s pr d (fun _ => BitVec.ofNat 64 v)

/-- A full queue holds the issue, charged to ENGINE (R395). -/
def tileRoom (s : State) : Check := if 16 ≤ (s.core (s.blkCore s.cur.blk)).tileQ.length then .hold 14 else .pass

/-- ILL for a tile at or above the block's ACC (R398). -/
def tileField (s : State) (z : Nat) : Check := if (s.blk s.cur.blk).acc ≤ z then .trap { cause := cILL, cls := 1 } else .pass

/-- An engine operation is unfinished in each thread that issues it (R397, 04 R113). -/
def opsBegun (s : State) (id : Nat) (who : List (Nat × Nat)) : State :=
  s.foldl who (fun t m => t.updThr t.cur.blk m.1 m.2 (fun th => { th with engOps := th.engOps ++ [id] }))

/-- The accesses that a command of the guarded threads follows (04 R109, R111, R113). -/
def fenceOf (s : State) (who : List (Nat × Nat)) : List (Nat × Nat) :=
  ((who.map Prod.fst).eraseDups).map (fun j =>
    (j, (who.filter (fun m => m.1 = j)).foldl (fun n m => max n (s.thr s.cur.blk m.1 m.2).fenceAt) 0))

/-- Enters a command in the tile queue under the next ticket; while the block's commands fail it is discarded at once (R396, R415). -/
def enterTile (s : State) (pr : Nat) (op : TileOp) (pend : List (Nat × Nat)) : State :=
  match lowest s pr with
  | none => s
  | some m =>
    let b := s.cur.blk
    let who := guarded s pr
    let core := s.blkCore b
    let c : TileCmd := { blk := b, j := m.1, ticket := (s.blk b).tkt, op := op, who := who, pend := pend, fence := fenceOf s who, id := s.nextId }
    let s := opsBegun (({ s with nextId := s.nextId + 1 } : State).updBlk b (fun k => { k with tkt := (k.tkt + 1) % 2 ^ 32 })) c.id who
    let s := s.updCore core (fun k => { k with tileQ := k.tileQ ++ [c] })
    if (s.blk b).err then discardTile s core c
    else if (s.core core).tileQ.length = 1 then pokeTile s core else s

/-- A tile word that returns its ticket (R396). -/
def ticketWord (s : State) (f : WA) (op : TileOp) : State :=
  let t := (s.blk s.cur.blk).tkt
  enterTile (scalarX s f.pr.toNat f.d.toNat t) f.pr.toNat op []

/-- What a queued store or atomic leaves in `size` bytes that now hold `old`. -/
def queuedValue (kind : SqKind) (a : Acc) (old : List Byte) : List Byte :=
  match kind with
  | .store => (natLe 16 (a.lo.toNat + a.hi.toNat * 2 ^ 64)).take old.length
  | .atom op _ => (match atomNew op (leNat old) a.lo.toNat a.hi.toNat with | some v => natLe old.length v | none => old)
  | _ => old

/-- A queued store or atomic of one lane laid over a range of global bytes, if it lies there. -/
def overStore (s : State) (dev pa : Nat) (e : SqEntry) (a : Acc) (bs : List Byte) : List Byte :=
  let k := s.blk s.cur.blk
  match translate s k.ctx (vaOf a.addr) aSTORE k.priv with
  | .ok dev' pa' _ =>
    if dev' = dev ∧ pa ≤ pa' ∧ pa' + e.size ≤ pa + bs.length then
      bs.take (pa' - pa) ++ queuedValue e.kind a ((bs.drop (pa' - pa)).take e.size) ++ bs.drop (pa' - pa + e.size)
    else bs
  | _ => bs

/-- The dirty bytes of mapped lines that a queued SWB or SUNMAP writes back, laid over global bytes that lie in one line (03 R75). -/
def overLines (s : State) (dev pa : Nat) (ls : List (Nat × Nat)) (bs : List Byte) : List Byte :=
  let b := s.cur.blk
  let k := s.blk b
  ls.foldl (fun bs l =>
    let m := k.map l.1
    match translate s k.ctx (lineVa m l.2) aWB k.priv with
    | .ok dev' pa' _ =>
      if dev' = dev ∧ pa' / 128 = pa / 128 then
        let pad := padRead s b ((m.sline + l.2) * 128 + pa % 128) bs.length
        (upto bs.length).map (fun i => if (tget 0 m.dirty l.2).testBit (pa % 128 + i) then pad.getD i 0 else bs.getD i 0)
      else bs
    | _ => bs) bs

/-- The issuing thread's stores, atomics and write-backs to a range of global bytes that are not performed yet, in queue order: its latest value of
each byte (04 R109). -/
def overlay (s : State) (m : Nat × Nat) (dev pa : Nat) (bs : List Byte) : List Byte :=
  let k := s.blk s.cur.blk
  (s.grp s.cur.blk m.1).sq.foldl (fun bs e =>
    if e.fault.isSome then bs
    else match e.kind with
      | .swb q first nm1 =>
        if e.accs.any (fun a => a.lane == m.2) then
          overLines s dev pa ((dirtyLines k).filter (fun l => decide (l.1 = q ∧ first ≤ l.2 ∧ l.2 ≤ first + nm1))) bs
        else bs
      | .sunmap q => if e.accs.any (fun a => a.lane == m.2) then overLines s dev pa ((dirtyLines k).filter (fun l => l.1 = q)) bs else bs
      | _ => e.accs.foldl (fun bs a => if a.lane = m.2 ∧ a.sp = 0 ∧ a.st ≠ 1 then overStore s dev pa e a bs else bs) bs) bs

/-- Whether a thread has stores to peer homes that are on their way, behind which its read of a record there is asked for (04 R109). -/
def peerStores (s : State) (m : Nat × Nat) : Bool :=
  let k := s.blk s.cur.blk
  (s.grp s.cur.blk m.1).runnable.any (fun e => e.accs.any (fun a => decide (a.lane = m.2 ∧ a.sp = 0 ∧ a.st ≠ 1) &&
    (match translate s k.ctx (vaOf a.addr) aSTORE k.priv with | .ok dev _ _ => decide (dev ≠ s.devNo) | _ => false)))

/-- What reading a 64-byte block at issue gives. -/
inductive BlockRes where
  | bytes (bs : List Byte)
  | check (c : Check)

/-- Reads a parameter block or layout record for the issuing thread (R401 checks 1 and 2, 18 R421). -/
def readBlock (s : State) (m : Nat × Nat) (addr : Nat) : BlockRes :=
  let k := s.blk s.cur.blk
  if addr % 64 ≠ 0 then .check (.trap { cause := cALIGN, addr := [(m, addr, 0)] })
  else if !canonicalAddr addr then .check (.trap { cause := cPROT, addr := [(m, addr, 0)] })
  else match vread s k.ctx (vaOf addr) 64 aEREAD k.priv with
    | .wait _ stage _ need => .check (if peerStores s m then .hold 14 else .page k.ctx (vaOf addr) aEREAD stage need 14)
    | .fail syn det =>
      .check (.trap { cause := cLFAULT, det := if det = 0x1F then 0 else det
                      addr := [(m, addr, if det = 0x1F then syndrome aEREAD 0 2 kPOISONED else syn)] })
    | .done bs => match translate s k.ctx (vaOf addr) aEREAD k.priv with
      | .ok dev pa _ => .bytes (overlay s m dev pa bs)
      | _ => .bytes bs

/-- The group's next issue waits for the blocks or records that are read at issue, charged to ENGINE (R401, 18 R421); the reads are the context's
(07 R189). -/
def readWait (s : State) (addrs : List Nat) : State :=
  let k := s.blk s.cur.blk
  let s := s.foldl addrs (fun t a => touchRead t k.ctx (vaOf a) 64 aEREAD k.priv)
  busy s.tick (latency 0 + Config.extraLatency s.freeCtr) 14

/-- The coordinates of a TMMA or TDRAIN. -/
def coords (s : State) (m : Nat × Nat) (f : WA) : Nat × Nat := ((rdW s m f.b.toNat).toNat, (rdW s m (f.b.toNat + 1)).toNat)

/-- The checks of R401, in order. -/
def paramCheck (s : State) (f : WA) (drain : Bool) : Check :=
  match lowest s f.pr.toNat with
  | none => .pass
  | some m =>
    match readBlock s m (rdX s m f.a.toNat).toNat with
    | .check c => c
    | .bytes pb =>
      let k := s.blk s.cur.blk
      let c := coords s m f
      if pbDetail pb drain ≠ 0 then .trap { cause := cENGINE, det := pbDetail pb drain }
      else if k.acc ≤ pbZt pb then .trap { cause := cILL }
      else if !pbAligned pb drain then .trap { cause := cALIGN }
      else if !pbInside k pb c.1 c.2 drain then .trap { cause := cPROT }
      else tileRoom s

/-- The parameter block of a command whose checks have passed. -/
def paramOf (s : State) (f : WA) : Option ((Nat × Nat) × List Byte) :=
  match lowest s f.pr.toNat with
  | none => none
  | some m => match readBlock s m (rdX s m f.a.toNat).toNat with | .bytes pb => some (m, pb) | .check _ => none

/-- TMMA (R401, R402). -/
def execTmma (f : WA) (s : State) : Out := .next <|
  word (.tmma f) s (fun s => paramCheck s f false) (fun s =>
    match paramOf s f with
    | none => s
    | some (m, pb) => readWait (ticketWord s f (.tmma pb (coords s m f).1 (coords s m f).2)) [(rdX s m f.a.toNat).toNat])

/-- TDRAIN (R401, R408): FTZ and F8NS are those of the issuing group's FPC at the issue. -/
def execTdrain (rm : BitVec 2) (f : WA) (s : State) : Out := .next <|
  word (.tdrain rm f) s (fun s => paramCheck s f true) (fun s =>
    match paramOf s f with
    | none => s
    | some (m, pb) => readWait (ticketWord s f (.tdrain rm.toNat pb (coords s m f).1 (coords s m f).2 (s.srcGrp m.1).fpc.toNat)) [(rdX s m f.a.toNat).toNat])

/-- The checks of a word that names tiles: nothing is checked when no lane is guarded. -/
def zCheck (s : State) (pr : Nat) (zs : List Nat) (rest : Check) : Check :=
  (zs.foldl (fun (c : Check) z => c.andThen (tileField s z)) .pass).andThen (if (lowest s pr).isNone then .pass else rest.andThen (tileRoom s))

/-- TZERO (R406). -/
def execTzero (f : WA) (s : State) : Out := .next <|
  word (.tzero f) s (fun s => zCheck s f.pr.toNat [f.d.toNat] .pass) (fun s => enterTile s f.pr.toNat (.tzero f.d.toNat) [])

/-- TRES (R406). -/
def execTres (f : WA) (s : State) : Out := .next <|
  word (.tres f) s (fun s => zCheck s f.pr.toNat [f.d.toNat] .pass) (fun s => enterTile s f.pr.toNat (.tres f.d.toNat) [])

/-- TMOV (R406). -/
def execTmov (f : WA) (s : State) : Out := .next <|
  word (.tmov f) s (fun s => zCheck s f.pr.toNat [f.d.toNat, f.a.toNat] .pass)
    (fun s => enterTile s f.pr.toNat (.tmov f.d.toNat f.a.toNat) [])

/-- A pending result of a group whose value comes later. -/
def laterValue (s : State) (j d : Nat) (lanes : List Nat) : Nat × State :=
  let b := s.cur.blk
  let (id, s) := s.fresh
  let (seq, s) := takeSeq s b j
  (id, s.updGrp b j (fun g => { g with pend := g.pend ++
    [{ id := id, kind := .value, seq := seq, size := 8, d := d, accs := lanes.map (fun l => { j := j, lane := l, addr := 0 }), pc := s.cur.pc }] }))

/-- Enters a comparison with the results it returns to (R407). -/
def compareWord (s : State) (f : WA) (op : TileOp) : State :=
  let r := (guardedGroups s f.pr.toNat).foldl (fun (r : State × List (Nat × Nat)) j =>
    let n := laterValue r.1 j f.d.toNat (guardedIn s f.pr.toNat j)
    (n.2, r.2 ++ [(j, n.1)])) (s, [])
  enterTile r.1 f.pr.toNat op r.2

/-- TCMP (R407). -/
def execTcmp (f : WA) (s : State) : Out := .next <|
  word (.tcmp f) s (fun s => zCheck s f.pr.toNat [f.a.toNat] .pass) (fun s => compareWord s f (.tcmp f.d.toNat f.a.toNat))

/-- TCMP.X (R407). -/
def execTcmpX (f : WA) (s : State) : Out := .next <|
  word (.tcmpX f) s (fun s => zCheck s f.pr.toNat [f.a.toNat] .pass) (fun s => compareWord s f (.tcmpX f.d.toNat f.a.toNat))

/-- ALIGN and PROT of a tagged address with a length (R409, R411). -/
def imageCheck (s : State) (f : WA) (n : Nat) (global : Bool) : Check :=
  match lowest s f.pr.toNat with
  | none => .pass
  | some m =>
    let x := (rdX s m f.a.toNat).toNat
    let k := s.blk s.cur.blk
    if x % 64 ≠ 0 then .trap { cause := cALIGN, addr := [(m, x, 0)] }
    else match tagOf x with
      | none => .trap { cause := cPROT, addr := [(m, x, 0)] }
      | some (sp, a) => if (sp = 0 ∧ !global) ∨ !inSpace k sp a n then .trap { cause := cPROT, addr := [(m, x, 0)] } else .pass

/-- The address operand of the lowest guarded lane. -/
def lowAddr (s : State) (f : WA) : Nat := match lowest s f.pr.toNat with | none => 0 | some m => (rdX s m f.a.toNat).toNat

/-- TSAVE (R409). -/
def execTsave (f : WA) (s : State) : Out := .next <|
  word (.tsave f) s (fun s => zCheck s f.pr.toNat [f.b.toNat] (imageCheck s f (imageSize true) true))
    (fun s => ticketWord s f (.tsave (lowAddr s f) f.b.toNat))

/-- TSAVE.C (R409). -/
def execTsaveC (f : WA) (s : State) : Out := .next <|
  word (.tsaveC f) s (fun s => zCheck s f.pr.toNat [f.b.toNat] (imageCheck s f (imageSize false) true))
    (fun s => ticketWord s f (.tsaveC (lowAddr s f) f.b.toNat))

/-- TLOAD (R409, R410): the issue checks the canonical length. -/
def execTload (f : WA) (s : State) : Out := .next <|
  word (.tload f) s (fun s => zCheck s f.pr.toNat [f.b.toNat] (imageCheck s f (imageSize false) true))
    (fun s => ticketWord s f (.tload (lowAddr s f) f.b.toNat))

/-- The destination check of TPLANE. -/
def planeCheck (s : State) (f : WA) : Check :=
  match lowest s f.pr.toNat with
  | none => .pass
  | some m =>
    let off := (rdW s m f.b.toNat).toNat
    if off % 128 ≠ 0 then .trap { cause := cALIGN, addr := [(m, tagged 1 off, 0)] }
    else (imageCheck s f 2048 false).andThen
      (if padSize (s.blk s.cur.blk) < off + 2176 then .trap { cause := cPROT, addr := [(m, tagged 1 off, 0)] } else .pass)

/-- TPLANE (R411). -/
def execTplane (f : WA) (s : State) : Out := .next <|
  word (.tplane f) s (fun s => zCheck s f.pr.toNat [] (planeCheck s f)) (fun s =>
    match lowest s f.pr.toNat with
    | none => s
    | some m => match tagOf (lowAddr s f) with
      | some (sp, a) => ticketWord s f (.tplane sp a (rdW s m f.b.toNat).toNat)
      | none => s)

/-- Enters a wait for a ticket in each group with a guarded lane (R413). -/
def waitTicket (s : State) (pr t : Nat) : State :=
  s.foldl (guardedGroups s pr) (fun s j =>
    let b := s.cur.blk
    let (id, s) := s.fresh
    let (seq, s) := takeSeq s b j
    serveTwaits (s.updGrp b j (fun g => { g with pend := g.pend ++
      [{ id := id, kind := .twait, seq := seq, tick := t, accs := [{ j := j, lane := 0, addr := 0 }], pc := s.cur.pc }] })) b)

/-- TWAIT (R413). -/
def execTwait (f : WA) (s : State) : Out := .next <|
  plain (.twait f) s (fun s =>
    match lowest s f.pr.toNat with
    | none => s
    | some m => waitTicket s f.pr.toNat (rdW s m f.a.toNat).toNat)

/-- TWAIT.ALL (R413): the last ticket given out, and with it every earlier one. -/
def execTwaitAll (f : WA) (s : State) : Out := .next <|
  plain (.twaitAll f) s (fun s => waitTicket s f.pr.toNat (((s.blk s.cur.blk).tkt + 2 ^ 32 - 1) % 2 ^ 32))

/-- TSTAT (R412). -/
def tileStatus (s : State) (b z : Nat) : DWord :=
  let k := s.blk b
  let t := k.tile z
  let pend := (s.core (s.blkCore b)).tileQ.any (fun c => decide (c.blk = b) && (tilesOf c.op).contains z)
  BitVec.ofNat 64 (k.done % 2 ^ 32 * 2 ^ 32 + k.errc % 256 * 2 ^ 24 + b2n k.err * 128 + b2n t.und * 64 + b2n pend * 32 + t.st % 4)

/-- TSTAT (R412). -/
def execTstat (f : WA) (s : State) : Out := .next <|
  word (.tstat f) s (fun s => tileField s f.a.toNat) (fun s =>
    busy (lanesX s f.pr.toNat f.d.toNat (fun _ => tileStatus s s.cur.blk f.a.toNat)) 4 8)

end Sys2Proof.Machine
end

