-- ==== Sys2Proof/Machine/Engine.lean ====
section
/-!
DEFINITION. The copy engine slice (18_engines.md R417 to R437): layout records, engine queues with their promises, copies, gathers, network
sends and collectives, batches, and the words and events that drive them.
-/

namespace Sys2Proof.Machine

/-! ### The layout record (R419) -/

def lrField (r : List Byte) (hi lo : Nat) : Nat := bits (leNat r) hi lo
def lrSrc (r : List Byte) : Nat := lrField r 511 448
def lrDst (r : List Byte) : Nat := lrField r 447 384
def lrSrs (r : List Byte) : Int := sextNat (lrField r 383 352) 32
def lrDrs (r : List Byte) : Int := sextNat (lrField r 351 320) 32
def lrLen (r : List Byte) : Nat := lrField r 319 288
def lrRows (r : List Byte) : Nat := lrField r 287 272 + 1
def lrLrow (r : List Byte) : Nat := lrField r 255 224
def lrLcol (r : List Byte) : Nat := lrField r 223 192
def lrAux (r : List Byte) : Nat := lrField r 191 128
def lrCid (r : List Byte) : Nat := lrField r 127 112
def lrCop (r : List Byte) : Nat := lrField r 103 100
def lrCtyp (r : List Byte) : Nat := lrField r 99 96
def lrNsq (r : List Byte) : Nat := lrField r 95 90
def lrUop (r : List Byte) : Nat := lrField r 89 88
def lrBar (r : List Byte) : Nat := lrField r 71 68
def lrBen (r : List Byte) : Bool := decide (lrField r 67 67 = 1)
def lrCdst (r : List Byte) : Bool := decide (lrField r 66 66 = 1)
def lrReserved (r : List Byte) : Nat := lrField r 271 256 + lrField r 111 104 + lrField r 87 72 + lrField r 65 0

/-- Fields that an opcode does not use (R419). -/
def lrUnused (kind : EngKind) (r : List Byte) : Nat :=
  match kind with
  | .cpy => lrAux r + lrCid r + lrCop r + lrCtyp r + lrNsq r + lrUop r
  | .gath => lrCid r + lrCop r + lrCtyp r + lrNsq r + lrUop r
  | .cpyN => lrAux r / 2 ^ 32 + lrCid r + lrCop r + lrCtyp r
  | .coll => lrNsq r + lrUop r
  | _ => 0

/-- Bytes of an element of a collective (R432). -/
def collSize (ctyp : Nat) : Nat := match ctyp with | 1 => 2 | 3 => 8 | _ => 4

/-- Constraints of R431 and R432, and undefined codes (R421 check 3, detail 2). -/
def lrBroken (kind : EngKind) (r : List Byte) : Bool :=
  let big := decide (16 * 2 ^ 20 < lrRows r * lrLen r)
  decide (lrLen r = 0 ∨ 2 ^ 32 ≤ lrRows r * lrLen r) ||
  (match kind with
  | .gath => lrCdst r
  | .cpyN =>
    decide (2 < lrUop r) || big ||
    (if lrUop r = 2 then !lrCdst r || decide (lrSrs r ≠ 0) else lrCdst r || decide (lrDrs r ≠ 0) || decide (lrUop r = 0 ∧ lrDst r ≠ 0))
  | .coll =>
    decide (3 < lrCop r ∨ 5 < lrCtyp r ∨ lrRows r ≠ 1 ∨ lrSrs r ≠ 0 ∨ lrDrs r ≠ 0 ∨ lrLrow r ≠ 0 ∨ lrLcol r ≠ 0) || lrCdst r ||
    decide (lrLen r % collSize (lrCtyp r) ≠ 0)
  | _ => false)

/-- The detail of R421 check 3, or 0. -/
def lrDetail (kind : EngKind) (r : List Byte) : Nat :=
  if lrReserved r ≠ 0 ∨ lrUnused kind r ≠ 0 ∨ (!lrBen r ∧ lrBar r ≠ 0) then 1 else if lrBroken kind r then 2 else 0

/-- An address modulo the size of its space (R420). -/
def wrapSpace (sp : Nat) (x : Int) : Nat := if sp = 0 then (x % 2 ^ 64).toNat else (x % 2 ^ 32).toNat

/-- Source address, destination address and unclipped bytes of row `r`, whose coordinate-side row number is `m` (R420). -/
def rowGeo (rec : List Byte) (src dst : Nat × Nat) (c1 r m : Nat) : Nat × Nat × Nat :=
  let l := lrLen rec
  let col := c1 * l
  let nb := if lrLrow rec ≠ 0 ∧ lrLrow rec ≤ m then 0 else if lrLcol rec ≠ 0 then min l (lrLcol rec - col) else l
  if lrCdst rec then (wrapSpace src.1 (src.2 + r * lrSrs rec), wrapSpace dst.1 (dst.2 + m * lrDrs rec + col), nb)
  else (wrapSpace src.1 (src.2 + m * lrSrs rec + col), wrapSpace dst.1 (dst.2 + r * lrDrs rec), nb)

/-- The address of an entry of a gather's index list. -/
def indexAddr (rec : List Byte) (aux : Nat × Nat) (c0 r : Nat) : Nat := wrapSpace aux.1 (aux.2 + 4 * (c0 * lrRows rec + r : Nat))

/-- Space and address of a tagged value, for values known to be well tagged. -/
def untag (x : Nat) : Nat × Nat := (tagOf x).getD (0, x)

/-- The tagged values of a record that name local memory. -/
def lrTags (kind : EngKind) (rec : List Byte) : List Nat :=
  match kind with
  | .cpyN => if lrUop rec = 2 then [lrDst rec] else [lrSrc rec]
  | .cpy => [lrSrc rec, lrDst rec]
  | _ => [lrSrc rec, lrDst rec, lrAux rec]

/-- The ranges an operation is known at issue to access: space, address, length; a member list holds `members` entries (R432). -/
def lrSpans (kind : EngKind) (rec : List Byte) (c0 c1 members : Nat) : List (Nat × Nat × Nat) :=
  let src := untag (lrSrc rec)
  let dst := untag (lrDst rec)
  let aux := untag (lrAux rec)
  match kind with
  | .coll => [(src.1, src.2, lrLen rec), (dst.1, dst.2, lrLen rec), (aux.1, aux.2, 8 + 4 * members)]
  | .gath => (upto (lrRows rec)).flatMap (fun r =>
      let g := rowGeo rec src dst c1 r 0
      [(aux.1, indexAddr rec aux c0 r, 4), (dst.1, g.2.1, lrLen rec)])
  | .cpyN => (upto (lrRows rec)).map (fun r =>
      let g := rowGeo rec src dst c1 r (c0 * lrRows rec + r)
      if lrUop rec = 2 then (dst.1, g.2.1, g.2.2) else (src.1, g.1, g.2.2))
  | _ => (upto (lrRows rec)).flatMap (fun r =>
      let g := rowGeo rec src dst c1 r (c0 * lrRows rec + r)
      [(src.1, g.1, g.2.2), (dst.1, g.2.1, if lrCdst rec then g.2.2 else lrLen rec)])

/-- Whether a range lies in its space (R421 check 4). -/
def spanOk (b : Block) (p : Nat × Nat × Nat) : Bool :=
  p.2.2 == 0 || (if p.1 = 0 then canonicalAddr p.2.1 && canonicalAddr ((p.2.1 + p.2.2 - 1) % 2 ^ 64) else decide (p.2.1 + p.2.2 ≤ spaceSize b p.1))

/-- The slowest class that ranges touch (R424): 0 S, 1 G, 2 P. -/
def spanClass (s : State) (ctx priv : Nat) (ps : List (Nat × Nat × Nat)) : Nat :=
  ps.foldl (fun n p =>
    if p.1 ≠ 0 ∨ p.2.2 = 0 then n
    else (piecesOf (vaOf p.2.1) p.2.2).foldl (fun n q => match translate s ctx q.1 aEREAD priv with
      | .ok dev _ _ => max n (if dev = s.devNo then 1 else 2)
      | _ => max n 1) n) 0

/-! ### Queues and promises (R417, R418, R424) -/

def engDepth (q : Nat) : Nat := if q < 4 then 32 else if q = 6 then 4 else 16

def State.engQ (s : State) (core q : Nat) : List EngOp := tget [] (s.core core).engQ q
def setEngQ (s : State) (core q : Nat) (f : List EngOp → List EngOp) : State :=
  s.updCore core (fun k => { k with engQ := tset k.engQ q (f (tget [] k.engQ q)) })

def isPacket (o : EngOp) : Bool := match o.kind with | .packet _ _ _ => true | _ => false
def isFence (o : EngOp) : Bool := match o.kind with | .fence _ => true | _ => false
/-- Whether an operation was issued by a thread. -/
def ofThread (o : EngOp) : Bool := !isPacket o && !isFence o

/-- L0 and ⌈B ÷ W⌉ of a class (R424). -/
def promiseTime (cls len : Nat) : Nat :=
  match cls with
  | 0 => 100 + (len + 127) / 128
  | 1 => 500 + (len + 63) / 64
  | 2 => 2000 + (len + 24) / 25
  | _ => 3000 + (len + 24) / 25

/-- Asks for the head of a queue to begin. -/
def pokeEngine (s : State) (core q : Nat) : State :=
  match s.engQ core q with
  | o :: _ => if o.begun then s else s.postOnce s.gts core .engineOperationTurn { x := core, y := q }
  | [] => s

/-- Gives one lane of a pending result its value. -/
def giveValue (s : State) (b j id lane v : Nat) : State :=
  if thas (s.blk b).groups j then
    let s := updAcc s b j id lane (fun a => { a with cap := true, val := natLe 8 v })
    s.post (s.gts + 1) (s.blkCore b) .loadResultReturn { x := b, y := j, z := id, u := lane }
  else s

/-- An operation enters its queue, and its promise is computed (R424). -/
def enterEngine (s : State) (core q : Nat) (o : EngOp) : State :=
  let prev := if (s.engQ core q).isEmpty then 0 else tget 0 (s.core core).lastProm q
  let p := max prev o.gts0 + promiseTime o.cls o.len
  let s := setEngQ s core q (fun l => l ++ [{ o with prom := p }])
  let s := s.updCore core (fun k => { k with lastProm := tset k.lastProm q p })
  let s := if ofThread o then
      giveValue (s.updThr o.blk o.j o.lane (fun t => { t with openProm := max t.openProm p })) o.blk o.j o.pend o.lane p
    else s
  pokeEngine s core q

/-- Operations that wait to enter a queue do so in order as room appears (R418). -/
def fillEngineN : Nat → State → Nat → Nat → State
  | 0, s, _, _ => s
  | fuel + 1, s, core, q =>
    match (s.core core).entering.find? (fun e => e.1 = q) with
    | none => s
    | some e =>
      if engDepth q ≤ (s.engQ core q).length then s
      else fillEngineN fuel (enterEngine (s.updCore core (fun k => { k with entering := k.entering.erase e })) core q e.2) core q
def fillEngine (s : State) (core q : Nat) : State := fillEngineN 64 s core q

/-! ### Batches (R425) -/

/-- Finished batches leave from the front, so that batches finish in order. -/
def dropBatches : List Batch → List Batch
  | b :: bs => if b.left = 0 then dropBatches bs else b :: bs
  | [] => []

/-- One operation of a thread has completed or been discarded. -/
def countDone (t : Thread) (batch : Option Nat) : Thread :=
  match batch with
  | none => { t with openLeft := t.openLeft - 1 }
  | some n => { t with sealed := dropBatches (t.sealed.map (fun b => if b.num = n then { b with left := b.left - 1 } else b)) }

/-- Whether a batch that a thread names is unfinished (R428). -/
def unfinished (t : Thread) (n : Nat) : Bool :=
  decide ((t.bseq + 2 ^ 16 - 1 - n) % 2 ^ 16 < 16) && t.sealed.any (fun b => b.num = n)

/-- The batches that a SLEEP.P names and that are unfinished. -/
def namedLeft (g : Group) (named : List (Nat × Nat)) : List (Nat × Nat) := named.filter (fun p => unfinished (g.th p.1) p.2)

/-- A group that waits past its promise goes on once every named batch has finished (R428). -/
def endPromiseWait (g : Group) : Group :=
  match g.wait with
  | .promiseWait named => if (namedLeft g named).isEmpty then { g with wait := .none } else g
  | _ => g

/-! ### Completion (R434 to R436) -/

/-- Why an operation fails: cause, tagged address, syndrome. -/
structure EngErr where
  cause : Nat
  addr : Nat := 0
  syn : Nat := 0
deriving DecidableEq, Repr

/-- The error record of an operation (R436). -/
def errRecord (o : EngOp) (q : Nat) (e : EngErr) : ErrRec :=
  { w0 := BitVec.ofNat 64 (o.batch.getD 0 % 65536 * 2 ^ 48 + o.lane % 32 * 2 ^ 36 + b2n o.batch.isSome * 2 ^ 35 + q % 8 * 2 ^ 32 + e.cause)
    w1 := BitVec.ofNat 64 e.syn, w2 := BitVec.ofNat 64 e.addr, w3 := BitVec.ofNat 64 o.prom }

/-- Appends a record to the group's engine error queue, or counts it as dropped (R436). -/
def appendError (s : State) (o : EngOp) (q : Nat) (e : EngErr) : State :=
  if o.orphan ∨ (s.grp o.blk o.j).done ∨ (s.grp o.blk o.j).alive.isEmpty then s
  else
    pokeMarker (s.updGrp o.blk o.j (fun g =>
      if g.engErr.length < 8 then { g with engErr := g.engErr ++ [errRecord o q e] } else { g with engDrop := min (g.engDrop + 1) 65535 })) o.blk o.j

/-- A thread's operation is finished for its batch, its barrier, release atomics, and the waits and exit of its block. -/
def threadDone (s : State) (o : EngOp) (arrive : Bool) : State :=
  let s := if thas (s.blk o.blk).groups o.j then
      pokeMarker ((s.updThr o.blk o.j o.lane (fun t => countDone t o.batch)).updGrp o.blk o.j endPromiseWait) o.blk o.j else s
  let s := opsDone s o.blk o.id [(o.j, o.lane)]
  let s := if arrive && lrBen o.lrec && !o.orphan then engineArrive s o.blk (lrBar o.lrec) else s
  pokeExit (s.updCtx (s.blk o.blk).ctx (fun c => { c with progress := s.gts })) o.blk

/-- The head operation of a queue completes, with or without an error (R434, R435). -/
def endEngine (s : State) (core q : Nat) (o : EngOp) (err : Option EngErr) : State :=
  let s := setEngQ s core q (fun l => l.filter (fun p => p.id ≠ o.id))
  -- the fragments of a collective that has ended leave the slice, so that its CID can be used again (R433)
  let s := if q = 6 then s.foldl (tkeys s.cores) (fun t n => t.updCore n (fun k =>
      { k with frags := k.frags.filter (fun f => !decide (f.cid = lrCid o.lrec ∧ f.ctx = (s.blk o.blk).ctx)) })) else s
  let s := match o.kind with
    | .packet ctx qn idx =>
      let s := s.updCtx ctx (fun c => { c with progress := s.gts })
      s.post s.gts core .copyPacket { x := ctx, y := qn, z := idx, u := if err.isSome then 2 else 1 }
    | .fence _ => s
    | _ =>
      -- 20 R470: the bytes of a network operation or collective count when it completes
      let s := if err.isNone ∧ (q = 5 ∨ q = 6) then countEvent s (s.blk o.blk).ctx 0x52 (lrLen o.lrec) else s
      let s := match err with | some e => appendError s o q e | none => s
      threadDone s o true
  pokeEngine (fillEngine s core q) core q

/-- Discards the operations of a block that have not begun, and silences those that have (R434). -/
def discardEngine (s : State) (b : Nat) : State :=
  let core := s.blkCore b
  let mine (o : EngOp) : Bool := !isPacket o && decide (o.blk = b)
  let gone := ((upto 7).flatMap (fun q => (s.engQ core q).filter (fun o => mine o && !o.begun))) ++
    ((s.core core).entering.filter (fun e => mine e.2)).map Prod.snd
  let s := s.updCore core (fun k => { k with entering := k.entering.filter (fun e => !mine e.2) })
  let s := s.foldl (upto 7) (fun t q => setEngQ t core q (fun l =>
    (l.filter (fun o => !(mine o && !o.begun))).map (fun o => if mine o then { o with orphan := true } else o)))
  let s := s.foldl (gone.filter ofThread) (fun t o => threadDone t o false)
  s.foldl (upto 7) (fun t q => pokeEngine (fillEngine t core q) core q)

/-! ### The accesses of an operation (R420, R422, R435) -/

/-- Context and privilege an operation acts for; a COPY packet acts at user privilege (R298). -/
def opCtx (s : State) (o : EngOp) : Nat × Nat := match o.kind with | .packet c _ _ => (c, 0) | _ => ((s.blk o.blk).ctx, (s.blk o.blk).priv)

/-- What an engine read gives. -/
inductive EngVal where
  | ok (bs : List Byte) (s : State)
  | wait (va acc stage : Nat) (need : Lack)
  | fail (e : EngErr)

/-- What an engine write gives. -/
inductive EngPut where
  | ok (s : State)
  | wait (va acc stage : Nat) (need : Lack)
  | fail (e : EngErr)

/-- The cause of a failed translation (R435). -/
def engCause (write : Bool) (det : Nat) : Nat :=
  if det = 0x0D then 4 else if det = 0x0C then 3 else if det = 0x1F then 8 else if write then 2 else 1

/-- Reads bytes that lie in one page or line. -/
def engGet (s : State) (o : EngOp) (sp a n : Nat) : EngVal :=
  let c := opCtx s o
  if sp = 0 then
    match vread s c.1 (vaOf a) n aEREAD c.2 with
    | .done bs => .ok bs (touchRead s c.1 (vaOf a) n aEREAD c.2)
    | .wait _ stage _ need => .wait (vaOf a) aEREAD stage need
    | .fail syn det => .fail { cause := engCause false det, addr := a, syn := syn }
  else if spaceSize (s.blk o.blk) sp < a + n then .fail { cause := 1, addr := tagged sp a }
  else if sp = 1 then
    match padFill s o.blk [(a, n)] with
    | .done t => .ok (padRead t o.blk a n) t
    | .wait va stage need => .wait va aFILL stage need
    | .fail va syn _ => .fail { cause := 1, addr := va, syn := syn }
  else .ok (eavesRead s o.blk a n) s

/-- Writes bytes that lie in one page or line; a fill that faults is a read fault (03 R76). -/
def engPut (s : State) (o : EngOp) (sp a : Nat) (bs : List Byte) : EngPut :=
  let c := opCtx s o
  if sp = 0 then
    match vwrite s c.1 (vaOf a) bs aEWRITE c.2 (s.blkCore o.blk) with
    | .done t => .ok t
    | .wait _ stage _ need => .wait (vaOf a) aEWRITE stage need
    | .fail syn det => .fail { cause := engCause true det, addr := a, syn := syn }
  else if spaceSize (s.blk o.blk) sp < a + bs.length then .fail { cause := 2, addr := tagged sp a }
  else if sp = 1 then
    match padFill s o.blk [(a, bs.length)] with
    | .done t => .ok (enginePad t o.blk a bs)
    | .wait va stage need => .wait va aFILL stage need
    | .fail va syn _ => .fail { cause := 1, addr := va, syn := syn }
  else .ok (eavesWrite s o.blk a bs)

/-- Reads a whole tagged range for an operation, page by page. -/
def engGetAll (s : State) (o : EngOp) (sp a n : Nat) : EngVal :=
  let ps := if sp = 0 then piecesOf a n else [(a, 0, n)]
  ps.foldl (fun (v : EngVal) p => match v with
    | .ok xs s => (match engGet s o sp p.1 p.2.2 with | .ok ys t => .ok (xs ++ ys) t | x => x)
    | x => x) (.ok [] s)

/-- How far an operation came. -/
inductive EngRes where
  | done (s : State)
  /-- More remains; the next step follows. -/
  | more (s : State)
  | wait (s : State) (va acc stage : Nat) (need : Lack)
  | fail (s : State) (e : EngErr)

/-- Changes the operation with an identity in a queue. -/
def updOp (s : State) (core q id : Nat) (f : EngOp → EngOp) : State :=
  setEngQ s core q (fun l => l.map (fun o => if o.id = id then f o else o))

/-- Bytes to the end of a page or line. -/
def roomAt (sp a : Nat) : Nat := if sp = 0 then 65536 - a % 65536 else 128 - a % 128

/-- The number of the coordinate-side row of a row: `c0 × R + r`, or for a gather the index it reads (R420). -/
def rowNumber (s : State) (o : EngOp) (r : Nat) : EngVal :=
  match o.kind, o.idx with
  | .gath, some m => .ok (natLe 4 m) s
  | .gath, none =>
    let aux := untag (lrAux o.lrec)
    engGetAll s o aux.1 (indexAddr o.lrec aux o.c0 r) 4
  | _, _ => .ok (natLe 8 (o.c0 * lrRows o.lrec + r)) s

/-- Copies the rest of a row, piece by piece; each piece lies in one page or line of the destination and is read whole before it is written, so that
the destination's naturally aligned 8 bytes are written at once (R422). -/
def copyPieces (core q : Nat) (o : EngOp) (src dst : Nat × Nat) (r m : Nat) : Nat → State → Nat → EngRes
  | 0, s, _ => .more s
  | fuel + 1, s, b =>
    let l := lrLen o.lrec
    let g := rowGeo o.lrec src dst o.c1 r m
    let sa := wrapSpace src.1 (g.1 + b : Nat)
    let da := wrapSpace dst.1 (g.2.1 + b : Nat)
    let mark (t : State) (n : Nat) : State := updOp t core q o.id (fun x => { x with pos := r * l + n, idx := if n = l then none else x.idx })
    if l ≤ b then .done s
    else if b < g.2.2 then
      let n := min (g.2.2 - b) (roomAt dst.1 da)
      match engGetAll s o src.1 sa n with
      | .wait va acc stage need => .wait s va acc stage need
      | .fail e => .fail s e
      | .ok bs s => match engPut s o dst.1 da bs with
        | .wait va acc stage need => .wait s va acc stage need
        | .fail e => .fail s e
        | .ok t => copyPieces core q o src dst r m fuel (mark t (b + n)) (b + n)
    else if lrCdst o.lrec then .done (mark s l)
    else
      let n := min (l - b) (roomAt dst.1 da)
      match engPut s o dst.1 da (List.replicate n 0) with
      | .wait va acc stage need => .wait s va acc stage need
      | .fail e => .fail s e
      | .ok t => copyPieces core q o src dst r m fuel (mark t (b + n)) (b + n)

/-- One row of a copy or gather (R420); a row that a bad index sends out of its space fails with READ (R421). -/
def copyRow (s : State) (core q : Nat) (o : EngOp) : EngRes :=
  let l := lrLen o.lrec
  let r := o.pos / l
  let src := untag (lrSrc o.lrec)
  let dst := untag (lrDst o.lrec)
  match rowNumber s o r with
  | .wait va acc stage need => .wait s va acc stage need
  | .fail e => .fail s e
  | .ok bs s =>
    let m := leNat bs
    let s := match o.kind with | .gath => updOp s core q o.id (fun x => { x with idx := some m }) | _ => s
    let g := rowGeo o.lrec src dst o.c1 r m
    if (match o.kind with | .gath => true | _ => false) && !spanOk (s.blk o.blk) (src.1, g.1, g.2.2) then
      .fail s { cause := 1, addr := tagged src.1 g.1 }
    else match copyPieces core q o src dst r m 4096 s (o.pos % l) with
      | .done t => if r + 1 = lrRows o.lrec then .done t else .more t
      | x => x

/-- One step of a COPY packet: SRC, DST and LEN stand in its 64 bytes (08 R210). -/
def packetStep (s : State) (core q : Nat) (o : EngOp) : EngRes :=
  let len := lrField o.lrec 255 192
  let sa := vaOf (lrField o.lrec 127 64 + o.pos)
  let da := vaOf (lrField o.lrec 191 128 + o.pos)
  let n := min (len - o.pos) (roomAt 0 da)
  if n = 0 then .done s
  else match engGetAll s o 0 sa n with
    | .wait va acc stage need => .wait s va acc stage need
    | .fail e => .fail s e
    | .ok bs s => match engPut s o 0 da bs with
      | .wait va acc stage need => .wait s va acc stage need
      | .fail e => .fail s e
      | .ok t =>
        let t := updOp t core q o.id (fun x => { x with pos := x.pos + n })
        if o.pos + n = len then .done t else .more t

/-! ### Network sends (R431, 13 R332, R333) -/

/-- Whether a send queue serves a context (R431). -/
def nsqServes (s : State) (n ctx : Nat) : Bool :=
  let w := (s.nsq n).cfg
  let p := s.port (bits w 5 0)
  w.testBit 31 && decide (bits w 30 19 = ctx ∧ bits w 18 13 = (s.ctx ctx).vf) &&
    p.carriesFrames

/-- Reads the whole local side of a Send or Write, clipped bytes as zero. -/
def gatherLocal (s : State) (o : EngOp) : EngVal :=
  let src := untag (lrSrc o.lrec)
  let l := lrLen o.lrec
  (upto (lrRows o.lrec)).foldl (fun (v : EngVal) r => match v with
    | .ok bs s =>
      let g := rowGeo o.lrec src (0, 0) o.c1 r (o.c0 * lrRows o.lrec + r)
      (match engGetAll s o src.1 g.1 g.2.2 with
      | .ok xs t => .ok (bs ++ xs ++ List.replicate (l - g.2.2) 0) t
      | x => x)
    | x => x) (.ok [] s)

/-- Cuts bytes into packets of at most 4096 bytes with their offsets. -/
def packetsOf (bs : List Byte) : List (Nat × List Byte) :=
  (upto ((bs.length + 4095) / 4096)).map (fun i => (4096 * i, (bs.drop (4096 * i)).take 4096))

/-- The place of Ethernet frames among the outputs to peers: 1024 and the port. -/
def netDest (port : Nat) : Nat := 1024 + port

/-- What a frame of a send queue is addressed with (13 R332, R333): next-hop MAC, the port's MAC, destination address, UET job and an entropy value among
those of the queue, which is free. -/
def frameAddress (s : State) (n off : Nat) : List Nat :=
  let q := (s.nsq n).cfg
  [bits q 383 336, (s.port (bits q 5 0)).mac, bits q 255 128, bits q 447 424, Config.choice 83 (s.freeCtr + off) % (bits q 455 448 + 1)]

/-- Sends the packets of an operation: queue, request, operation, key, remote offset and length go with each, and the frame's address. A port that does not
carry frames sends none (13 R312). -/
def sendPackets (s : State) (o : EngOp) (ps : List (Nat × List Byte)) : State :=
  let n := lrNsq o.lrec
  let port := bits (s.nsq n).cfg 5 0
  let base := if lrUop o.lrec = 2 then lrSrc o.lrec else lrDst o.lrec
  if !(s.port port).carriesFrames then s else
  { s with peerOut := s.peerOut ++ ps.map (fun p =>
      (netDest port, [n, o.id, lrUop o.lrec, lrAux o.lrec % 2 ^ 32, (base + p.1) % 2 ^ 64, p.2.length] ++ frameAddress s n p.1,
        if lrUop o.lrec = 2 then [] else p.2)) }

/-- A CPY.N at its turn: it sends its packets and waits for their answers. -/
def startNetwork (s : State) (core q : Nat) (o : EngOp) : EngRes :=
  if o.away then .more s
  else if !nsqServes s (lrNsq o.lrec) (s.blk o.blk).ctx then .fail s { cause := 5 }
  else
    let go (s : State) (ps : List (Nat × List Byte)) : EngRes :=
      let s := updOp (sendPackets s o ps) core q o.id (fun x => { x with away := true, pkts := ps, tries := 0 })
      .more ((s.tick).post (s.gts + 1 + Config.choice 31 s.freeCtr) core .packetRetransmission { x := core })
    if lrUop o.lrec = 2 then go s (packetsOf (List.replicate (lrRows o.lrec * lrLen o.lrec) 0))
    else match gatherLocal s o with
      | .ok bs t => go t (packetsOf bs)
      | .wait va acc stage need => .wait s va acc stage need
      | .fail e => .fail s e

/-- Writes bytes that a Read returned at a remote offset to the local side; clipped bytes are not written. -/
def scatterLocal (s : State) (o : EngOp) (off : Nat) (bs : List Byte) : EngPut :=
  let dst := untag (lrDst o.lrec)
  let l := lrLen o.lrec
  (upto bs.length).foldl (fun (v : EngPut) i => match v with
    | .ok s =>
      let r := (off + i) / l
      let c := (off + i) % l
      let g := rowGeo o.lrec (0, 0) dst o.c1 r (o.c0 * lrRows o.lrec + r)
      if c < g.2.2 then engPut s o dst.1 (wrapSpace dst.1 (g.2.1 + c : Nat)) [bs.getD i 0] else .ok s
    | x => x) (.ok s)

/-! ### Collectives (R432, R433, 13 R330) -/

/-- One step of a reduction on elements given as numbers (R432). -/
def collCombine (ctyp a b : Nat) : Nat :=
  let maxMin (mx : Bool) : Nat :=
    let x := fpDecode fp32 a
    let y := fpDecode fp32 b
    if fpIsNaN x || fpIsNaN y then fpNaN fp32 else if fpLt true x y != mx then a else b
  match ctyp with
  | 0 => faddPlain a b
  | 1 => (fpAddBits bf16 0 false a b).bits
  | 2 => (a + b) % 2 ^ 32
  | 3 => (a + b) % 2 ^ 64
  | 4 => maxMin true
  | _ => maxMin false

/-- Element `i` of a buffer. -/
def elemAt (e : Nat) (bs : List Byte) (i : Nat) : Nat := leNat ((bs.drop (e * i)).take e)

/-- The chunk an element belongs to (R432). -/
def chunkOf (m elems i : Nat) : Nat := i / ((elems + m - 1) / m)

/-- reduce of R432: element `i` of chunk `c`, over the members' buffers. -/
def collReduce (ctyp m c i : Nat) (xs : List (List Byte)) : Nat :=
  let x (k : Nat) : Nat := elemAt (collSize ctyp) (xs.getD ((c + k) % m) []) i
  (upto (m - 1)).foldl (fun acc k => collCombine ctyp acc (x (k + 2))) (x 1)

/-- What a member's DST receives: each element with its value, for the elements that are written. -/
def collResult (cop ctyp m me len : Nat) (xs : List (List Byte)) : List (Nat × Nat) :=
  let e := collSize ctyp
  let n := len / e
  (upto n).filterMap (fun i =>
    let c := chunkOf m n i
    match cop with
    | 0 => some (i, collReduce ctyp m c i xs)
    | 1 => some (i, elemAt e (xs.getD c []) i)
    | 2 => if c = me then some (i, collReduce ctyp m c i xs) else none
    | _ => some (i, elemAt e (xs.getD 0 []) i))

/-- Whether member `from` sends byte `o` of its SRC to member `to`. -/
def collSends (cop ctyp m len frm dst o : Nat) : Bool :=
  let c := chunkOf m (len / collSize ctyp) (o / collSize ctyp)
  decide (frm ≠ dst) && (match cop with
    | 0 => true
    | 1 => decide (c = frm)
    | 2 => decide (c = dst)
    | _ => decide (frm = 0))

/-- The fragments of at most 240 bytes that one member sends to another: offset and bytes. -/
def collFrags (cop ctyp m frm dst : Nat) (bs : List Byte) : List (Nat × List Byte) :=
  (packetsBy 240 bs).filterMap (fun p =>
    let keep := (upto p.2.length).filter (fun i => collSends cop ctyp m bs.length frm dst (p.1 + i))
    match keep.head? with
    | none => none
    | some i => some (p.1 + i, (p.2.drop i).take keep.length))
where
  packetsBy (k : Nat) (bs : List Byte) : List (Nat × List Byte) :=
    (upto ((bs.length + k - 1) / k)).map (fun i => (k * i, (bs.drop (k * i)).take k))

/-- Whether every byte that a member needs from another has arrived, given the fragments held. -/
def collHave (cop ctyp m len frm dst : Nat) (frags : List (Nat × List Byte)) : Bool :=
  (upto len).all (fun o => !collSends cop ctyp m len frm dst o || frags.any (fun p => decide (p.1 ≤ o ∧ o < p.1 + p.2.length)))

/-- A buffer assembled from fragments. -/
def collBuffer (len : Nat) (frags : List (Nat × List Byte)) : List Byte :=
  (upto len).map (fun o => match frags.find? (fun p => decide (p.1 ≤ o ∧ o < p.1 + p.2.length)) with
    | some p => p.2.getD (o - p.1) 0
    | none => 0)

/-- The member list at AUX: (DEV, CTX) of each member, or `none` when it is malformed. -/
def memberList (bs : List Byte) : Option (List (Nat × Nat)) :=
  let m := leNat (bs.take 8)
  if m < 2 ∨ 576 < m then none
  else
    let es := (upto m).map (fun i => leNat ((bs.drop (8 + 4 * i)).take 4))
    if es.any (fun e => decide (2 ^ 22 ≤ e)) then none else some (es.map (fun e => (e % 1024, e / 1024 % 4096)))

/-- The parameters that the members of one CID must share: COP, CTYP, RLEN and the list (R433). -/
def collParams (o : EngOp) (ms : List (Nat × Nat)) : List Nat := [lrCop o.lrec, lrCtyp o.lrec, lrLen o.lrec] ++ ms.map (fun p => p.1 * 4096 + p.2)

/-- The core of a context on which a collective of a CID has begun. -/
def collCore (s : State) (ctx cid : Nat) : Option Nat :=
  ((tkeys s.cores).find? (fun n => (s.engQ n 6).any (fun o => o.begun && decide ((s.blk o.blk).ctx = ctx ∧ lrCid o.lrec = cid))))

/-- Delivers one member's fragments to another: through the links, or to the slice of a member on this device once it has begun. -/
def sendFrags (s : State) (core : Nat) (o : EngOp) (ms : List (Nat × Nat)) (me dst : Nat) (bs : List Byte) : State :=
  let mb := ms.getD dst (0, 0)
  let fs := collFrags (lrCop o.lrec) (lrCtyp o.lrec) ms.length me dst bs
  let ps := collParams o ms
  if mb.1 = s.devNo then
    match collCore s mb.2 (lrCid o.lrec) with
    | none => s
    | some n => s.foldl fs (fun t p => t.post t.gts n .collFragmentArrival
        { x := n, y := lrCid o.lrec, z := me, u := p.1, v := BitVec.ofNat 64 mb.2, l := ps, data := p.2 })
  else s.foldl fs (fun t p => sendNamed t mb.1 core kFRAGMENT (t.blk o.blk).ctx ([mb.2, lrCid o.lrec, me, p.1] ++ ps) p.2 (o.blk, o.j, o.id))

/-- Writes elements to the destination buffer. -/
def putElems (s : State) (o : EngOp) (sp a e : Nat) (xs : List (Nat × Nat)) : EngPut :=
  xs.foldl (fun (v : EngPut) x => match v with
    | .ok s => engPut s o sp (wrapSpace sp (a + e * x.1 : Nat)) (natLe e x.2)
    | r => r) (.ok s)

/-- Whether fragments that an operation has sent to peers are not acknowledged (R433). -/
def fragsOut (s : State) (core : Nat) (o : EngOp) : Bool :=
  s.peerReqs.any (fun r => decide (r.kind = kFRAGMENT ∧ r.core = core ∧ r.id = o.id ∧ r.blk = o.blk))

/-- A collective at its turn, and again whenever a fragment arrives (R432, R433). Once DST is written, which `tries` tells, it waits for the
acknowledgements of its own fragments alone. -/
def collStep (s : State) (core q : Nat) (o : EngOp) : EngRes :=
  if o.tries = 1 then (if fragsOut s core o then .more s else .done s) else
  let aux := untag (lrAux o.lrec)
  let src := untag (lrSrc o.lrec)
  let dst := untag (lrDst o.lrec)
  let len := lrLen o.lrec
  match engGetAll s o aux.1 aux.2 8 with
  | .wait va acc stage need => .wait s va acc stage need
  | .fail e => .fail s e
  | .ok h s =>
    match engGetAll s o aux.1 aux.2 (8 + 4 * (leNat h % 65536)) with
    | .wait va acc stage need => .wait s va acc stage need
    | .fail e => .fail s e
    | .ok lb s =>
      match memberList lb with
      | none => .fail s { cause := 7 }
      | some ms =>
        let self := (s.devNo, (s.blk o.blk).ctx)
        let places := (upto ms.length).filter (fun i => ms.getD i (0, 0) = self)
        match places with
        | [me] =>
          if ms.any (fun p => !peerUp s p.1) then .fail s { cause := 4 }
          else match engGetAll s o src.1 src.2 len with
            | .wait va acc stage need => .wait s va acc stage need
            | .fail e => .fail s e
            | .ok mine s =>
              -- the fragments go out once, when the operation begins; a member of this device that begins later asks again
              let first := !o.away
              let s := if first then
                  let s := s.foldl (upto ms.length) (fun t d => if d = me then t else sendFrags t core o ms me d mine)
                  let s := updOp s core q o.id (fun x => { x with away := true })
                  s.foldl ((upto ms.length).filter (fun d => decide (d ≠ me ∧ (ms.getD d (0, 0)).1 = s.devNo))) (fun t d =>
                    match collCore t (ms.getD d (0, 0)).2 (lrCid o.lrec) with
                    | some n => (match (t.engQ n 6).find? (fun p => decide ((t.blk p.blk).ctx = (ms.getD d (0, 0)).2 ∧ lrCid p.lrec = lrCid o.lrec)) with
                      | some p =>
                        let psrc := untag (lrSrc p.lrec)
                        (match engGetAll t p psrc.1 psrc.2 (lrLen p.lrec) with
                        | .ok bs t => sendFrags t n p ms d me bs
                        | _ => t)
                      | none => t)
                    | none => t)
                else s
              let held := s.cores.flatMap (fun k => k.2.frags.filter (fun f => decide (f.cid = lrCid o.lrec ∧ f.ctx = self.2)))
              let from_ (d : Nat) : List (Nat × List Byte) := (held.filter (fun f => f.frm = d)).map (fun f => (f.off, f.data))
              let have_ := (upto ms.length).all (fun d => collHave (lrCop o.lrec) (lrCtyp o.lrec) ms.length len d me (from_ d))
              -- members whose parameters differ fail the collective
              if held.any (fun f => decide (f.params ≠ collParams o ms)) then .fail s { cause := 7 }
              else if !have_ then .more s
              else
                let xs := (upto ms.length).map (fun d => if d = me then mine else collBuffer len (from_ d))
                let res := collResult (lrCop o.lrec) (lrCtyp o.lrec) ms.length me len xs
                match putElems s o dst.1 dst.2 (collSize (lrCtyp o.lrec)) res with
                | .ok t => if fragsOut t core o then .more (updOp t core q o.id (fun x => { x with tries := 1 })) else .done t
                | .wait va acc stage need => .wait s va acc stage need
                | .fail e => .fail s e
        | _ => .fail s { cause := 7 }

/-! ### The events of a queue -/

/-- ENGINE_OPERATION_TURN (R107, R108): the head of a queue begins, or a QFENCE that heads every queue it names is performed. -/
def engineTurn (s : State) (core q : Nat) : State :=
  match s.engQ core q with
  | [] => s
  | o :: _ =>
    if o.begun then s
    else match o.kind with
      | .fence qs =>
        if qs.all (fun p => match s.engQ core p with | h :: _ => decide (h.id = o.id) | [] => false) then
          let s := s.foldl qs (fun t p => setEngQ t core p (fun l => l.drop 1))
          s.foldl qs (fun t p => pokeEngine (fillEngine t core p) core p)
        else s
      | _ =>
        if ofThread o && fenced s o.blk [(o.j, o.fence)] then s.post (s.gts + 1) core .engineOperationTurn { x := core, y := q }
        else
          let s := updOp s core q o.id (fun x => { x with begun := true })
          (s.tick).post (s.gts + 1 + Config.extraLatency s.freeCtr) core .engineOperationComplete { x := core, y := q }

/-- ENGINE_OPERATION_COMPLETE (R434, R435): the next step of the operation that heads a queue, and its completion after the last one. -/
def engineStep (s : State) (core q : Nat) : State :=
  match s.engQ core q with
  | [] => s
  | o :: _ =>
    if !o.begun then s
    else
      let r := match o.kind with
        | .packet _ _ _ => packetStep s core q o
        | .cpyN => startNetwork s core q o
        | .coll => collStep s core q o
        | .fence _ => .done s
        | _ => copyRow s core q o
      let moved (t : State) : State := countEvent t (opCtx t o).1 0x52 (((t.engQ core q).headD o).pos - o.pos)
      let r : EngRes := match r with | .done t => .done (moved t) | .more t => .more (moved t) | r => r
      match r with
      | .done t => endEngine t core q ((t.engQ core q).headD o) none
      | .fail t e =>
        let t := if e.cause = 8 ∧ !isPacket o then softRequest t o.blk e.addr aEREAD else t
        endEngine t core q ((t.engQ core q).headD o) (some e)
      | .more t => if ((t.engQ core q).headD o).away then t else
          (t.tick).post (t.gts + 1 + Config.extraLatency t.freeCtr) core .engineOperationComplete { x := core, y := q }
      | .wait t va acc stage need =>
        waitOn t (opCtx t o).1 va acc stage need core (.engineOperationComplete, { x := core, y := q })

/-- ENGINE_OPERATION_TURN (R107, R108). -/
def execEngineOperationTurn (s : State) : Out := .next <| engineTurn s s.arg.x s.arg.y

/-- ENGINE_OPERATION_COMPLETE (R434, R435). -/
def execEngineOperationComplete (s : State) : Out := .next <| engineStep s s.arg.x s.arg.y

/-- Whether a context holds the cluster of a core. -/
def clusterHeld (s : State) (c core : Nat) : Bool := s.mkt.units.any (fun u => decide (u.1 = clusterOf core ∧ u.2.holder = some c))

/-- The core on which a context's COPY packets run (08 R210). -/
def packetCore (s : State) (c : Nat) : Option Nat := (heldUnits s c 0).head?.map (fun cl => (clusterCores cl).headD 0)

/-- COPY packets that a lapse has stopped go on, once the context holds a cluster (08 R229). -/
def resumePackets (s : State) (c : Nat) : State :=
  match packetCore s c with
  | none => s
  | some core =>
    let os := (s.ctx c).packets
    if os.isEmpty || (s.ctx c).saving || decide ((s.ctx c).st ≠ .running) then s
    else
      let s := s.updCtx c (fun x => { x with packets := [] })
      fillEngine (s.updCore core (fun k => { k with entering := k.entering ++ os.map (fun o => (3, o)) })) core 3

/-- ENGINE_OPERATION_STOP (07 R180, 08 R229): an operation of a lapsing block that has begun stops at its step boundary, and its remainder is saved. -/
def execEngineOperationStop (s : State) : Out :=
  let core := s.arg.x
  let q := s.arg.y
  match s.engQ core q with
  | [] => .next s
  | o :: _ =>
    if o.begun && ofThread o && (s.blk o.blk).stopped then
      let s := setEngQ s core q (fun l => l.drop 1)
      let s := s.updBlk o.blk (fun k => { k with engSaved := (q, { o with begun := false, away := false, pkts := [] }) :: k.engSaved })
      .next (pokeEngine (fillEngine s core q) core q)
    else if o.begun && isPacket o && !clusterHeld s o.ctx core then
      let s := setEngQ s core q (fun l => l.drop 1)
      let s := s.updCtx o.ctx (fun x => { x with packets := { o with begun := false } :: x.packets })
      .next (resumePackets (pokeEngine (fillEngine s core q) core q) o.ctx)
    else .next s

/-- Whether a core's slice holds as many fragments of a CID as it may before its own COLL has issued (R433). -/
def fragsFull (s : State) (core ctx cid : Nat) : Bool :=
  let own (o : EngOp) : Bool := ofThread o && decide (lrCid o.lrec = cid ∧ (s.blk o.blk).ctx = ctx)
  decide (64 ≤ ((s.core core).frags.filter (fun f => decide (f.cid = cid ∧ f.ctx = ctx))).length) &&
    !((s.engQ core 6).any own || (s.core core).entering.any (fun e => decide (e.1 = 6) && own e.2))

/-- COLL_FRAGMENT_ARRIVAL (13 R330, R433): a fragment is kept once, and the collective that waits for it looks again. While the slice has no room, the
link's credits hold the fragment (13 R316). -/
def execCollFragmentArrival (s : State) : Out :=
  let a := s.arg
  if 256 ≤ a.x then .fault (.noSuchObject "core" a.x)
  else if fragsFull s a.x a.v.toNat a.y then .next (s.post (s.gts + 1000) a.x .collFragmentArrival a)
  else
    let s := s.updCore a.x (fun k =>
      if k.frags.any (fun f => decide (f.cid = a.y ∧ f.frm = a.z ∧ f.off = a.u ∧ f.ctx = a.v.toNat)) then k
      else { k with frags := k.frags ++ [⟨a.y, a.z, a.u, a.data, a.l, a.v.toNat⟩] })
    match s.engQ a.x 6 with
    | o :: _ => if o.begun && decide (lrCid o.lrec = a.y) then .next (s.postOnce s.gts a.x .engineOperationComplete { x := a.x, y := 6 }) else .next s
    | [] => .next s

/-- The CPY.N of a core that has a request outstanding. -/
def netOp (s : State) (core : Nat) : Option EngOp := match s.engQ core 5 with | o :: _ => if o.away then some o else none | [] => none

/-- PACKET_RETRANSMISSION (R431): the oldest packet without acknowledgement is sent again; after eight times the operation fails with NET. -/
def execPacketRetransmission (s : State) : Out :=
  let core := s.arg.x
  match netOp s core with
  | none => .next s
  | some o =>
    match o.pkts with
    | [] => .next s
    | p :: _ =>
      if 8 ≤ o.tries then .next (endEngine s core 5 o (some { cause := 6 }))
      else
        let s := updOp (sendPackets s o [p]) core 5 o.id (fun x => { x with tries := x.tries + 1 })
        .next ((s.tick).post (s.gts + 1 + Config.choice 31 s.freeCtr) core .packetRetransmission { x := core })

/-- Frames that a port or a send queue discards are counted (13 R311, R332). -/
def discardFrame (s : State) (p nsq : Nat) (known : Bool) : State :=
  if known then s.updNsq nsq (fun k => { k with ndisc := min (k.ndisc + 1) (2 ^ 32 - 1) })
  else s.updPort p (fun k => { k with ndisc := min (k.ndisc + 1) (2 ^ 32 - 1) })

/-- The core whose CPY.N is request `id`, if it has not completed. -/
def netCore (s : State) (id : Nat) : Option Nat := (tkeys s.cores).find? (fun n => match netOp s n with | some o => decide (o.id = id) | none => false)

/-- ETHERNET_FRAME_RECEIVED (13 R332, R431): `z` is 0 for an acknowledgement, 1 for a NACK that cannot be retried, 2 for a read response, and above for a NACK
that can be retried, which leaves the packet to its retransmission. A port that carries no frames, and completes none, takes none (R312). -/
def execEthernetFrameReceived (s : State) : Out :=
  let a := s.arg
  let off := a.l.headD 0
  if 64 ≤ a.x then .fault (.noSuchObject "port" a.x)
  else if !((s.port a.x).carriesFrames || decide ((s.port a.x).st = 5 ∧ (s.port a.x).mode = 1)) then .next s
  else
    let own := decide (a.y < 64) && decide (bits (s.nsq a.y).cfg 5 0 = a.x)
    match netCore s a.u with
    | none => .next (discardFrame s a.x a.y own)
    | some core => match netOp s core with
      | none => .next (discardFrame s a.x a.y own)
      | some o =>
        if lrNsq o.lrec ≠ a.y ∨ !own then .next (discardFrame s a.x a.y own)
        else if a.z = 1 then .next (endEngine s core 5 o (some { cause := 6 }))
        else
          let read := decide (lrUop o.lrec = 2)
          match o.pkts.find? (fun p => p.1 = off) with
          | none => .next (discardFrame s a.x a.y own)
          | some p =>
            if 2 < a.z then .next s
            else if (read != decide (a.z = 2)) || (read && decide (a.data.length ≠ p.2.length)) then .next (discardFrame s a.x a.y own)
            else
              let fin (s : State) : State :=
                -- tries counts the retransmissions of the oldest packet
                let s := updOp s core 5 o.id (fun x =>
                  { x with pkts := x.pkts.filter (fun r => r.1 ≠ off), tries := if (x.pkts.headD (0, [])).1 = off then 0 else x.tries })
                match netOp s core with
                | some o => if o.pkts.isEmpty then endEngine s core 5 o none else s
                | none => s
              if !read then .next (fin s)
              else match scatterLocal s o off a.data with
                | .ok t => .next (fin t)
                | .fail e => .next (endEngine s core 5 o (some e))
                | .wait va acc stage need =>
                  .next (waitOn s (s.blk o.blk).ctx va acc stage need core (.ethernetFrameReceived, a))

/-! ### The engine command words (R418, R421) -/

/-- The first check of a list that does not pass. -/
def firstCheck (cs : List Check) : Check := cs.foldl Check.andThen .pass

/-- The record and coordinates of each guarded thread's operation, where every record can be read. -/
def engineRecords (s : State) (f : WA) : List ((Nat × Nat) × List Byte × Nat × Nat) :=
  (guarded s f.pr.toNat).filterMap (fun m => match readBlock s m (rdX s m f.a.toNat).toNat with
    | .bytes r => some (m, r, coords s m f)
    | .check _ => none)

/-- The number of entries of the member list a record names, as it stands at the issue, or 0 where it cannot be read or is malformed (R421, R432,
log 96). -/
def memberCount (s : State) (kind : EngKind) (rec : List Byte) : Nat :=
  let k := s.blk s.cur.blk
  let aux := untag (lrAux rec)
  let hd : Option (List Byte) := match kind with
    | .coll =>
      if aux.1 = 0 then (match vreadAll s k.ctx (vaOf aux.2) 8 aEREAD k.priv with | .done bs => some bs | _ => none)
      else if aux.1 = 1 then some (padRead s s.cur.blk aux.2 8)
      else some (eavesRead s s.cur.blk aux.2 8)
    | _ => none
  match hd with
  | some bs => if leNat bs ≤ 576 then leNat bs else 0
  | none => 0

/-- The checks of R421, in order, over every guarded lane. -/
def engineCheck (s : State) (f : WA) (kind : EngKind) (q : Nat) : Check :=
  let ms := guarded s f.pr.toNat
  let addr (m : Nat × Nat) : Nat := (rdX s m f.a.toNat).toNat
  let addrs := ms.map (fun m => (m, addr m, 0))
  let k := s.blk s.cur.blk
  let core := s.blkCore s.cur.blk
  if ms.isEmpty then .pass
  else if ms.any (fun m => decide (addr m % 64 ≠ 0)) then .trap { cause := cALIGN, addr := addrs }
  else if ms.any (fun m => !canonicalAddr (addr m)) then .trap { cause := cPROT, addr := addrs }
  else
    (firstCheck (ms.map (fun m => match readBlock s m (addr m) with | .check c => c | .bytes _ => .pass))).andThen (
      let rs := engineRecords s f
      if rs.any (fun r => lrDetail kind r.2.1 = 1) then .trap { cause := cENGINE, det := 1 }
      else if rs.any (fun r => lrDetail kind r.2.1 = 2) then .trap { cause := cENGINE, det := 2 }
      else match rs.findSome? (fun r => ((lrTags kind r.2.1).find? (fun t => (tagOf t).isNone)).map (fun t => (r.1, t))) with
        | some x => .trap { cause := cPROT, addr := [(x.1, x.2, 0)] }
        | none =>
          match rs.findSome? (fun r => ((lrSpans kind r.2.1 r.2.2.1 r.2.2.2 (memberCount s kind r.2.1)).find? (fun p => !spanOk k p)).map (fun p => (r.1, tagged p.1 p.2.1))) with
          | some x => .trap { cause := cPROT, addr := [(x.1, x.2, 0)] }
          | none =>
            let used := (s.engQ core q).length + ((s.core core).entering.filter (fun e => e.1 = q)).length
            if engDepth q < used + min ms.length (engDepth q) then .hold 14 else .pass)

/-- The class of an operation (R424). -/
def opClass (s : State) (ctx priv : Nat) (kind : EngKind) (r : List Byte × Nat × Nat) : Nat :=
  match kind with
  | .cpyN => 3
  | .coll => 2
  | .gath => spanClass s ctx priv (lrSpans .gath r.1 r.2.1 r.2.2 0 ++ [((untag (lrSrc r.1)).1, (untag (lrSrc r.1)).2, 1)])
  | k => spanClass s ctx priv (lrSpans k r.1 r.2.1 r.2.2 0)

/-- The bytes of an operation (R424). -/
def opBytes (kind : EngKind) (r : List Byte) : Nat :=
  match kind with
  | .coll => 2 * lrLen r
  | _ => lrRows r * lrLen r

/-- A new operation of a thread. -/
def newOp (s : State) (kind : EngKind) (id pend : Nat) (r : (Nat × Nat) × List Byte × Nat × Nat) : EngOp :=
  let k := s.blk s.cur.blk
  { id := id, kind := kind, ctx := k.ctx, blk := s.cur.blk, j := r.1.1, lane := r.1.2, lrec := r.2.1, c0 := r.2.2.1, c1 := r.2.2.2
    gts0 := s.gts, cls := opClass s k.ctx k.priv kind r.2, len := opBytes kind r.2.1, pend := pend
    fence := (s.thr s.cur.blk r.1.1 r.1.2).fenceAt }

/-- Issues one operation per guarded thread; they enter the queue in lane order (R418). -/
def issueEngine (s : State) (f : WA) (kind : EngKind) (q : Nat) : State :=
  let b := s.cur.blk
  let core := s.blkCore b
  let rs := engineRecords s f
  let pends := (guardedGroups s f.pr.toNat).foldl (fun (r : State × List (Nat × Nat)) j =>
    let n := laterValue r.1 j f.d.toNat (guardedIn s f.pr.toNat j)
    (n.2, r.2 ++ [(j, n.1)])) (s, [])
  let s1 := pends.1.foldl rs (fun t r =>
    let (id, t) := t.fresh
    let o := newOp s kind id (((pends.2.find? (fun p => p.1 = r.1.1)).map Prod.snd).getD 0) r
    let t := t.updThr b r.1.1 r.1.2 (fun th => { th with openLeft := th.openLeft + 1, engOps := th.engOps ++ [id] })
    t.updCore core (fun k => { k with entering := k.entering ++ [(q, o)] }))
  readWait (busy (fillEngine s1 core q) 2 8) (rs.map (fun r => (rdX s r.1 f.a.toNat).toNat))

/-- CPY (R418, R420). -/
def execCpy (q : BitVec 2) (f : WA) (s : State) : Out := .next <|
  word (.cpy q f) s (fun s => engineCheck s f .cpy q.toNat) (fun s => issueEngine s f .cpy q.toNat)

/-- CPY.N (R431). -/
def execCpyN (f : WA) (s : State) : Out := .next <|
  word (.cpyN f) s (fun s => engineCheck s f .cpyN 5) (fun s => issueEngine s f .cpyN 5)

/-- GATH (R420). -/
def execGath (f : WA) (s : State) : Out := .next <|
  word (.gath f) s (fun s => engineCheck s f .gath 4) (fun s => issueEngine s f .gath 4)

/-- COLL (R432). -/
def execColl (f : WA) (s : State) : Out := .next <|
  word (.coll f) s (fun s => engineCheck s f .coll 6) (fun s => issueEngine s f .coll 6)

/-! ### Batch words (R426 to R430) -/

/-- Seals the open batch of a thread (R425, R426). -/
def sealBatch (gts : Nat) (t : Thread) : Thread :=
  let prev := match t.sealProm with | some p => p | none => 0
  let p := if t.openLeft = 0 ∧ t.openProm = 0 then (if t.sealed.isEmpty then gts else prev) else max t.openProm prev
  { t with bseq := (t.bseq + 1) % 2 ^ 16, openLeft := 0, openProm := 0, sealProm := some p
           sealed := dropBatches (t.sealed ++ [{ num := t.bseq, left := t.openLeft, prom := p }]) }

/-- The operations of a thread's open batch take the number of the batch as it is sealed. -/
def numberOps (s : State) (core b j l n : Nat) : State :=
  let f (o : EngOp) : EngOp := if ofThread o ∧ o.blk = b ∧ o.j = j ∧ o.lane = l ∧ o.batch.isNone then { o with batch := some n } else o
  s.updCore core (fun k => { k with engQ := tmap (fun _ os => os.map f) k.engQ, entering := k.entering.map (fun e => (e.1, f e.2)) })

/-- CSEAL (R426). -/
def execCseal (f : WA) (s : State) : Out := .next <|
  word (.cseal f) s (fun s => if (guarded s f.pr.toNat).any (fun m => decide (16 ≤ (s.thr s.cur.blk m.1 m.2).sealed.length)) then .hold 14 else .pass)
    (fun s =>
      let b := s.cur.blk
      let t := lanesW s f.pr.toNat f.d.toNat (fun m => BitVec.ofNat 32 (s.thr b m.1 m.2).bseq)
      busy (t.foldl (guarded s f.pr.toNat) (fun t m =>
        (numberOps t (t.blkCore b) b m.1 m.2 (s.thr b m.1 m.2).bseq).updThr b m.1 m.2 (sealBatch s.gts))) 2 8)

/-- A report point that takes the trap that is due before it waits (R437). -/
def dueThen (s : State) (pr : Nat) (p : Point) (c : Check) : Check :=
  if (dueList s pr p).isEmpty then c else .due (dueList s pr p)

/-- CWAIT (R427, R437). -/
def execCwait (f : WI) (s : State) : Out := .next <|
  word (.cwait f) s (fun s => dueThen s f.pr.toNat Point.cwait
    (if (guarded s f.pr.toNat).any (fun m => decide (f.k.toNat < (s.thr s.cur.blk m.1 m.2).sealed.length)) then .hold 14 else .pass)) (fun s => s)

/-- The unfinished batches that the guarded lanes of a group name. -/
def namedBatches (s : State) (f : WA) (j : Nat) : List (Nat × Nat) :=
  ((guardedIn s f.pr.toNat j).map (fun l => (l, (rdW s (j, l) f.a.toNat).toNat % 2 ^ 16))).filter (fun p => unfinished (s.thr s.cur.blk j p.1) p.2)

/-- The largest promise among named batches. -/
def namedPromise (g : Group) (named : List (Nat × Nat)) : Nat :=
  named.foldl (fun n p => max n (match (g.th p.1).sealed.find? (fun b => b.num = p.2) with | some b => b.prom | none => 0)) 0

/-- SLEEP.P (R428). -/
def execSleepP (f : WA) (s : State) : Out := .next <|
  word (.sleepP f) s (fun s => dueThen s f.pr.toNat Point.cwait .pass) (fun s =>
    s.foldl (guardedGroups s f.pr.toNat) (fun t j =>
      let named := namedBatches s f j
      if named.isEmpty then busy t 2 8
      else
        let wake := max s.gts (namedPromise (s.grp s.cur.blk j) named)
        let ls := (s.cur.members.filter (fun m => m.1 = j)).map Prod.snd
        (enterWait t j (.promise wake s.cur.sc ls named) s.cur.pc.toNat).post wake (t.blkCore t.cur.blk) .promiseWake { x := t.cur.blk, y := j }))

/-- PROMISE_WAKE (R428). -/
def execPromiseWake (s : State) : Out :=
  let b := s.arg.x
  let j := s.arg.y
  let k := s.blk b
  let g := k.grp j
  match g.wait with
  | .promise wake sc ls named =>
    if k.core.isNone ∨ s.gts < wake then .next s
    else
      let left := namedLeft g named
      match left with
      | [] => .next (pokeMarker (s.updGrp b j (fun g => { g with wait := .none })) b j)
      | p :: _ =>
        match readVector s k.ctx g.priv cPROMISE with
        | .wait va stage need => .next (waitOn s k.ctx va aLOAD stage need (s.blkCore b) (.promiseWake, s.arg))
        | .unhandled _ => .next (s.updGrp b j (fun g => { g with wait := .promiseWait named }))
        | .handler _ =>
          let ls := ls.filter (fun l => decide ((g.th l).mode ≠ .exited))
          .next (raiseGroup (s.updGrp b j (fun g => { g with wait := .none })) b j
            { cause := cPROMISE, prec := true, sc := sc, det := 0, arg := p.2, repi := 0
              lanes := ls.map (fun l => (l, (g.th l).pc.toNat, (g.th l).pc.toNat, 0, 0)) })
  | _ => .next s

/-- The queues a QFENCE names. -/
def fenceQueues (k : Nat) : List Nat := (upto 6).filter (fun q => k.testBit q)

/-- QFENCE (R430, 04 R108). -/
def execQfence (f : WI) (s : State) : Out := .next <|
  word (.qfence f) s (fun s =>
    let core := s.blkCore s.cur.blk
    if !(guarded s f.pr.toNat).isEmpty && (fenceQueues f.k.toNat).any (fun q => decide (engDepth q ≤ (s.engQ core q).length)) then .hold 14 else .pass)
    (fun s =>
      if (guarded s f.pr.toNat).isEmpty then s
      else
        let core := s.blkCore s.cur.blk
        let qs := fenceQueues f.k.toNat
        let (id, s) := s.fresh
        let o : EngOp := { id := id, kind := .fence qs, blk := s.cur.blk, j := s.cur.j }
        let s := s.foldl qs (fun t q => setEngQ t core q (fun l => l ++ [o]))
        s.foldl qs (fun t q => pokeEngine t core q))

/-- LEADER (R429). -/
def execLeader (f : WA) (s : State) : Out := .next <|
  plain (.leader f) s (fun s => busy (lanesP s f.pr.toNat f.d.toNat (fun m => decide (lowest s f.pr.toNat = some m))) 2 8)

end Sys2Proof.Machine
end

