-- ==== Sys2Proof/Machine/Feed.lean ====
section
/-!
DEFINITION. Feeds: appending, popping and closing (08_queue.md R217, R218; 18_engines.md R438, R439).
-/

namespace Sys2Proof.Machine

def Launch.feed (l : Launch) (f : Nat) : Feed := tget {} l.feeds f
def State.feed (s : State) (c n f : Nat) : Feed := ((s.ctx c).launch n).feed f
def State.updFeed (s : State) (c n f : Nat) (g : Feed → Feed) : State :=
  s.updLaunch c n (fun l => { l with feeds := tset l.feeds f (g (l.feed f)) })

/-- g8 to g15 take a record; the write is converged and clears their divergent-write flags (R438). -/
def takeRecord (g : Group) (r : List Byte) : Group :=
  { g with g := (upto 8).foldl (fun t k => tset t (8 + k) (BitVec.ofNat 32 (recBits r (32 * k + 31) (32 * k)))) g.g
           gflag := (upto 8).foldl (fun t k => tdel t (8 + k)) g.gflag }

/-- A status reaches w D of lanes. -/
def putStatus (g : Group) (lanes : List Nat) (d st : Nat) : Group := lanes.foldl (fun g l => g.updTh l (fun t => t.ww d (BitVec.ofNat 32 st))) g

/-- The first group still asleep in WPOP.SLEEP on a feed. -/
def feedSleeper (s : State) (f : Nat) (q : List (Nat × Nat)) : Option (Nat × Nat) :=
  q.find? (fun p => match (s.grp p.1 p.2).wait with | .feed n _ _ => decide (n = f) | _ => false)

/-- A sleeping group wakes with a record, or with status 2 (R438). -/
def wakeSleeper (s : State) (p : Nat × Nat) (r : Option (List Byte)) : State :=
  pokeMarker (s.updGrp p.1 p.2 (fun g => match g.wait with
    | .feed _ d ls =>
      let g := { g with wait := .none }
      (match r with
      | some r => putStatus (takeRecord g r) ls d 0
      | none => putStatus g ls d 2)
    | _ => g)) p.1 p.2

/-- Appends one record: the group that began sleeping earliest takes it, or it stands in the feed (R217, R218). -/
def feedAppend (s : State) (c n f : Nat) (r : List Byte) : State :=
  let fd := s.feed c n f
  match feedSleeper s f fd.sleepers with
  | some p => wakeSleeper (s.updFeed c n f (fun x => { x with sleepers := x.sleepers.filter (· ≠ p) })) p (some r)
  | none => s.updFeed c n f (fun x => { x with recs := x.recs ++ [r] })

/-- Closes a feed: its sleepers return status 2 (R438), and a queue blocked on ROOM looks at its FEED again (08 R217). -/
def feedClose (s : State) (c n f : Nat) : State :=
  let fd := s.feed c n f
  let s := s.updFeed c n f (fun x => { x with closed := true, sleepers := [] })
  pokeBlocked (s.foldl fd.sleepers (fun t p => wakeSleeper t p none)) c 3

/-- The launch whose feeds the block in progress names. -/
def feedLaunch (s : State) : Option (Nat × Nat) := (s.blk s.cur.blk).launch.map (fun n => ((s.blk s.cur.blk).ctx, n))

/-- The feed number of the lowest guarded member. -/
def feedNo (s : State) (f : WA) : Nat := match lowest s f.pr.toNat with | some m => (rdW s m f.a.toNat).toNat | none => 0

/-- ILL for a feed the launch does not have, or in a block of no launch (R438). -/
def feedCheck (s : State) (f : WA) : Check :=
  if (lowest s f.pr.toNat).isNone then .pass
  else match feedLaunch s with
    | none => .trap { cause := cILL }
    | some l => if ((s.ctx l.1).launch l.2).feedsN ≤ feedNo s f then .trap { cause := cILL } else .pass

/-- A status in w D of every guarded member. -/
def statusW (s : State) (f : WA) (v : Nat) : State := lanesW s f.pr.toNat f.d.toNat (fun _ => BitVec.ofNat 32 v)

/-- Pops a record, or says why there is none (R438). -/
def popFeed (s : State) (f : WA) (sleep : Bool) : State :=
  match feedLaunch s with
  | none => s
  | some l =>
    let n := feedNo s f
    let fd := s.feed l.1 l.2 n
    match fd.recs with
    | r :: rs =>
      let s := s.updFeed l.1 l.2 n (fun x => { x with recs := rs })
      let s := (statusW s f 0).updGrp s.cur.blk s.cur.j (fun g => takeRecord g r)
      busy (pokeBlocked s l.1 3) 4 8
    | [] =>
      if fd.closed then busy (statusW s f 2) 4 8
      else if sleep then
        let s := s.updFeed l.1 l.2 n (fun x => { x with sleepers := x.sleepers ++ [(s.cur.blk, s.cur.j)] })
        enterWait s s.cur.j (.feed n f.d.toNat (guardedIn s f.pr.toNat s.cur.j)) s.cur.pc.toNat
      else busy (statusW s f 1) 4 8

/-- WPOP (R438). -/
def execWpop (f : WA) (s : State) : Out := .next <|
  word (.wpop f) s (fun s => feedCheck s f) (fun s => if (lowest s f.pr.toNat).isNone then s else popFeed s f false)

/-- WPOP.SLEEP (R438). -/
def execWpopSleep (f : WA) (s : State) : Out := .next <|
  word (.wpopSleep f) s (fun s => feedCheck s f) (fun s => if (lowest s f.pr.toNat).isNone then s else popFeed s f true)

/-- The 32 bytes of g8 to g15. -/
def groupRecord (g : Group) : List Byte := (upto 8).flatMap (fun k => natLe 4 (g.rg (8 + k)).toNat)

/-- WPUSH (R439): it waits until the group's earlier stores and atomics, and, as a store, its earlier loads have been performed, and reports
one that has faulted (04 R116, log 71). -/
def execWpush (f : WA) (s : State) : Out := .next <|
  word (.wpush f) s (fun s => (feedCheck s f).andThen (reportCheck s f.pr.toNat Point.arrival arriving 9)) (fun s =>
    match lowest s f.pr.toNat, feedLaunch s with
    | some m, some l =>
      let n := feedNo s f
      let fd := s.feed l.1 l.2 n
      let st := if fd.closed then 2 else if fd.depth ≤ fd.recs.length then 1 else 0
      let s := statusW s f st
      busy (if st = 0 then feedAppend s l.1 l.2 n (groupRecord (s.srcGrp m.1)) else s) 4 8
    | _, _ => s)

/-- WLEN (R439). -/
def execWlen (f : WA) (s : State) : Out := .next <|
  word (.wlen f) s (fun s => feedCheck s f) (fun s =>
    match feedLaunch s with
    | none => s
    | some l =>
      let fd := s.feed l.1 l.2 (feedNo s f)
      busy (statusW s f (fd.recs.length % 2 ^ 13 + b2n fd.closed * 2 ^ 31)) 4 8)

end Sys2Proof.Machine
end

