-- ==== Sys2Proof/Machine/System.lean ====
section
/-!
DEFINITION. The system registers and the words that move them, TRAP and BRK, RETT, decode tables, ICINV and the maker configuration
(19_system.md R441 to R457, 20_observe.md R459, R466, R470 to R472, 05_encoding.md R136 to R138).
-/

namespace Sys2Proof.Machine

/-! ### Reading (R443, R459) -/

/-- LOC (01 R14). -/
def locOf (core slot lane : Nat) : Nat :=
  let ly := core % 64 / 8
  let lx := core % 8
  core / 64 % 4 * 2 ^ 30 + ly * 2 ^ 27 + lx * 2 ^ 24 + (ly / 2 * 4 + lx / 2) * 2 ^ 20 + slot % 64 * 2 ^ 14 + lane % 32

/-- DTS (R444). -/
def dtsOf (c : Ctx) (sel : Nat) : Nat := (upto 4).foldl (fun n k => if thas c.slots (k + 1) then n + 2 ^ (5 + k) else n) (16 + sel % 8)

/-- GSTAT as a thread of the group reads it: STATE 1 (10 R260). -/
def gstatOf (g : Group) : Nat := 2 ^ 28 + b2n g.xgran.isSome * 256 + b2n g.udt * 16 + b2n g.udiv

/-- NPTR (06 R157). -/
def nptrOf (c : Ctx) : Nat := c.ndrop % 65536 * 2 ^ 48 + c.ntail % 64 * 256 + c.nhead % 64

/-- TRPTR and SMPPTR (20 R466). -/
def ringPtr (drop tail head : Nat) : Nat := drop % 65536 * 2 ^ 48 + tail % 2 ^ 20 * 2 ^ 24 + head % 2 ^ 20

/-- The event codes of 20 R470 with their least privilege. -/
def eventPriv (code : Nat) : Option Nat :=
  if code ≤ 2 ∨ (0x10 ≤ code ∧ code ≤ 0x16) ∨ (0x21 ≤ code ∧ code ≤ 0x2E) ∨ (0x30 ≤ code ∧ code ≤ 0x39) ∨ (0x40 ≤ code ∧ code ≤ 0x42) ∨
      (0x50 ≤ code ∧ code ≤ 0x52) ∨ code = 0x60 then some 0
  else if code = 0x70 then some 2
  else none

/-- EVAV0 and EVAV1: the codes the device counts (R470). -/
def evavOf (half : Nat) : Nat := (upto 64).foldl (fun n k => if (eventPriv (64 * half + k)).isSome then n + 2 ^ k else n) 0

def Ctx.session (c : Ctx) (n : Nat) : Session := tget {} c.sessions n

/-- Whether a session shuts out a privilege (R472). -/
def Session.shut (z : Session) (priv : Nat) : Bool := z.isOpen && decide (priv < z.pl)

/-- A session register (R472). -/
def sessionRead (z : Session) (k priv : Nat) : Nat :=
  if z.shut priv then 0
  else if k = 0 then z.pl % 4 * 64 + b2n (z.frozen || z.inval.any (fun e => e.2)) * 8 + b2n z.force * 4 + b2n z.isOpen * 2 + b2n z.run
  else if k < 16 then tget 0 z.sel (k - 8) % 256
  else tget 0 z.cnt (k - 16) % 2 ^ 63 + b2n (tget false z.inval (k - 16)) * 2 ^ 63

/-- The value of a system register as a lane of a group sees it, read at a privilege (R445). -/
def sregRead (s : State) (b j l n priv : Nat) : Nat :=
  let k := s.blk b
  let g := k.grp j
  let t := g.th l
  let x := s.ctx k.ctx
  let rec0 : Option ErrRec := g.engErr.head?
  let erec (f : ErrRec → DWord) : Nat := match rec0 with | some r => (f r).toNat | none => 0
  match n with
  | 0x000 => locOf (s.blkCore b) g.slot l
  | 0x001 => s.gts % 2 ^ 64
  | 0x002 => s.devNo % 1024 * 2 ^ 22 + x.vf % 64 * 2 ^ 16 + k.ctx % 4096
  | 0x003 => x.ctxen % 2 ^ 64
  | 0x004 => gstatOf g
  | 0x005 => g.fpc.toNat
  | 0x006 => dtsOf x g.sel
  | 0x007 => g.priv % 4
  | 0x010 => x.tvec.toNat
  | 0x011 => x.nbase.toNat
  | 0x012 => nptrOf x
  | 0x013 => x.nmask.toNat
  | 0x014 => x.wrtb.toNat
  | 0x015 => b2n x.raceSkip * 2 + b2n x.raceEn
  | 0x018 => x.amht.toNat
  | 0x019 => x.amfeed.toNat
  | 0x01A => x.amkey.toNat
  | 0x01B => x.amFull % 65536 * 2 ^ 48 + x.msgs.length % 65536 * 2 ^ 16
  | 0x038 => erec ErrRec.w0
  | 0x039 => erec ErrRec.w1
  | 0x03A => erec ErrRec.w2
  | 0x03B => erec ErrRec.w3
  | 0x03C => g.engErr.length % 16 + g.engDrop % 65536 * 65536
  | 0x040 => g.tcause.toNat
  | 0x041 => g.tinfo.toNat
  | 0x042 => t.tpc.toNat
  | 0x043 => t.tepc.toNat
  | 0x044 => t.taddr.toNat
  | 0x045 => t.tsyn.toNat
  | 0x100 => x.trbase.toNat
  | 0x101 => ringPtr x.trdrop x.trtail x.trhead
  | 0x102 => x.trmask.toNat
  | 0x108 => x.smpbase.toNat
  | 0x109 => ringPtr x.smpdrop x.smptail x.smphead
  | 0x10A => x.smpctl.toNat
  | 0x10C => evavOf 0
  | 0x10D => evavOf 1
  | n =>
    if 0x020 ≤ n ∧ n < 0x02A then
      if n % 2 = 0 then (x.bid ((n - 0x020) / 2)).lo.toNat else (x.bid ((n - 0x020) / 2)).wgts % 2 ^ 64
    else if 0x030 ≤ n ∧ n < 0x035 then (spotPrice s (n - 0x030)).toNat
    else if 0x140 ≤ n ∧ n < 0x1C0 then sessionRead (x.session ((n - 0x140) / 32)) (n % 32) priv
    else 0

/-! ### Writing -/

/-- LDROP: the faulted loads of the log are discarded; lanes of a log entry that did not fault still return (R452). -/
def dropFaulted (g : Group) : Group :=
  let free (p : Pend) : Pend :=
    if p.kind = .load ∧ p.accs.any (fun a => decide (a.st = 2)) then { p with logged := false, accs := p.accs.filter (fun a => decide (a.st ≠ 2)) } else p
  { g with pend := (g.pend.map free).filter (fun (p : Pend) => !(decide (p.kind = .load) && p.accs.isEmpty)) }

/-- A write of TAIL: a value outside the range from HEAD − size to HEAD is ignored (06 R158, 20 R466). -/
def newTail (head tail size modulus v : Nat) : Nat := if (head + modulus - v % modulus) % modulus ≤ size then v % modulus else tail

/-- Records in a trace or sample ring (R466). -/
def ringSize (base : DWord) : Nat := 2 ^ (min (base.toNat % 16) 9 + 7)

/-- The sample period of SMPCTL (R469). -/
def samplePeriod (v : Word) : Nat := max (v.toNat / 65536) 16

/-- Loads the countdown of a core's sampler for the context that holds it (22 R495). -/
def armSampler (s : State) (core n : Nat) : State :=
  let s := { s with agenda := s.agenda.filter (fun (e : Event) => !(decide (e.ev = Instr.sampleTake ∧ e.arg.x = core))) }
  (s.updCore core (fun k => { k with smpSlot := 0 })).post (s.gts + n) core .sampleTake { x := core }

/-- A write of SMPCTL (R469, R495). -/
def writeSmpctl (s : State) (c : Nat) (v : Word) : State :=
  let s := s.updCtx c (fun x => { x with smpctl := v &&& 0xFFFF_0001 })
  if v.getLsbD 0 then s.foldl ((heldUnits s c 0).flatMap clusterCores) (fun t n => armSampler t n (samplePeriod v)) else s

/-- A write of PSCTLn at a privilege (R472): FORCE needs hypervisor (R458). -/
def writePsctl (z : Session) (v : DWord) (priv : Nat) : Session :=
  let opening := v.getLsbD 1 && !z.isOpen
  let z := { z with force := if 2 ≤ priv then v.getLsbD 2 else z.force, isOpen := v.getLsbD 1, run := v.getLsbD 0 }
  if opening then { z with pl := priv, cnt := [], inval := [], frozen := false } else z

/-- A write of a session register at a privilege (R470, R472). -/
def sessionWrite (z : Session) (k : Nat) (v : DWord) (priv : Nat) : Session :=
  if z.shut priv then z
  else if k = 0 then writePsctl z v priv
  else if k < 16 then
    match eventPriv (v.toNat % 256) with
    | some p => if p ≤ z.pl then { z with sel := tset z.sel (k - 8) (v.toNat % 256) } else z
    | none => z
  else { z with cnt := tset z.cnt (k - 16) (v.toNat % 2 ^ 63), inval := tset z.inval (k - 16) false }

/-- A write of a system register by a lane of a group at a privilege; read-only fields ignore it (R443, R445). -/
def sregWrite (s : State) (b j l n : Nat) (v : DWord) (priv : Nat) : State :=
  let c := (s.blk b).ctx
  let w : Word := loWord v
  let upd (f : Ctx → Ctx) : State := s.updCtx c f
  match n with
  | 0x004 => s.updGrp b j (fun g => { g with udt := v.getLsbD 4, udiv := g.udiv && !v.getLsbD 0 })
  | 0x005 =>
    -- 02 R43: the flags of the group's TDRAINs that issued before are overwritten
    (s.updGrp b j (fun g => { g with fpc := w &&& 0xC1F })).updCore (s.blkCore b) (fun k => { k with tileQ := k.tileQ.map (fun c =>
      if c.blk = b ∧ c.j = j then { c with stale := true } else c) })
  | 0x010 => upd (fun x => { x with tvec := v &&& 0x01FF_FFFF_FFFF_FF01 })
  | 0x011 => upd (fun x => { x with nbase := v &&& 0x01FF_FFFF_FFFF_FE03 })
  | 0x012 => upd (fun x => { x with ntail := newTail x.nhead x.ntail 32 64 (fld v 13 8), ndrop := fld v 63 48 })
  | 0x013 => upd (fun x => { x with nmask := w &&& 0x1FE })
  | 0x014 =>
    -- upper entries of a table that the register leaves stand there as Gyold last wrote them (09 R230, R231, log 99)
    if (s.ctx c).launches.isEmpty then upd (fun x => { x with wrtb := v &&& 0x01FF_FFFF_FFFF_F00F, nodes := if fld v 56 12 = fld x.wrtb 56 12 then x.nodes else [] }) else s
  | 0x015 => upd (fun x => { x with raceEn := v.getLsbD 0 })
  | 0x018 => upd (fun x => { x with amht := v &&& 0x01FF_FFFF_FFFF_F801 })
  | 0x019 => upd (fun x => let w := v &&& 0x01FF_FFFF_FFFF_001F; { x with amfeed := w, amKept := x.amKept && decide (w = x.amfeed) })
  | 0x01A => upd (fun x => { x with amkey := w })
  | 0x03D => s.updGrp b j (fun g => { g with engErr := g.engErr.drop 1 })
  | 0x043 => s.updThr b j l (fun t => { t with tepc := v &&& 0x0000_FFFF_FFFF_FFFC })
  | 0x046 => if (s.grp b j).hm then s.updGrp b j dropFaulted else s
  | 0x100 => upd (fun x => { x with trbase := v &&& 0x01FF_FFFF_FFFF_F01F })
  | 0x101 => upd (fun x => { x with trtail := newTail x.trhead x.trtail (ringSize x.trbase) (2 ^ 20) (fld v 43 24) })
  | 0x102 => upd (fun x => { x with trmask := w })
  | 0x108 => upd (fun x => { x with smpbase := v &&& 0x01FF_FFFF_FFFF_F01F })
  | 0x109 => upd (fun x => { x with smptail := newTail x.smphead x.smptail (ringSize x.smpbase) (2 ^ 20) (fld v 43 24) })
  | 0x10A => writeSmpctl s c w
  | n =>
    if 0x020 ≤ n ∧ n < 0x02A ∧ n % 2 = 0 then
      if bidRefused ((n - 0x020) / 2) v then s else writeBid s c ((n - 0x020) / 2) v
    else if 0x140 ≤ n ∧ n < 0x1C0 then
      upd (fun x => { x with sessions := tset x.sessions ((n - 0x140) / 32) (sessionWrite (x.session ((n - 0x140) / 32)) (n % 32) v priv) })
    else s

/-- The registers held per thread (R443). -/
def perThread (n : Nat) : Bool := n == 0x000 || (decide (0x042 ≤ n) && decide (n ≤ 0x045))

/-! ### MFS and MTS (R445) -/

/-- MFS (R445). -/
def execMfs (f : WS) (s : State) : Out := .next <|
  plain (.mfs f) s (fun s =>
    -- 05 R120: every source of an issue is read before any of its words writes
    let v (m : Nat × Nat) : Nat := sregRead s.sources s.cur.blk m.1 m.2 f.sreg.toNat (s.grp s.cur.blk m.1).priv
    busy (if sregWide f.sreg.toNat then lanesX s f.pr.toNat f.d.toNat (fun m => BitVec.ofNat 64 (v m))
          else lanesW s f.pr.toNat f.d.toNat (fun m => BitVec.ofNat 32 (v m))) 2 8)

/-- The operand of an MTS. -/
def mtsValue (s : State) (f : WS) (m : Nat × Nat) : DWord :=
  if sregWide f.sreg.toNat then rdX s m f.d.toNat else (rdW s m f.d.toNat).setWidth 64

/-- An MTS to FPC keeps the flags that the other words of its issue raise (15 R357). -/
def keepRaised (s : State) (j : Nat) : State :=
  s.updGrp s.cur.blk j (fun g => { g with fpc := g.fpc ||| BitVec.ofNat 32 (tget 0 s.cur.raised j) })

/-- MTS (R445): a per-thread register takes each lane's own value, any other one that of the lowest guarded lane. -/
def execMts (f : WS) (s : State) : Out := .next <|
  plain (.mts f) s (fun s =>
    let n := f.sreg.toNat
    let b := s.cur.blk
    if perThread n then
      busy (forLanes s f.pr.toNat (fun m t => sregWrite t b m.1 m.2 n (mtsValue s f m) (s.grp b m.1).priv)) 4 8
    else match lowest s f.pr.toNat with
      | none => s
      | some m =>
        let t := sregWrite s b m.1 m.2 n (mtsValue s f m) (s.grp b m.1).priv
        busy (if n = 0x005 then keepRaised t m.1 else t) 4 8)

/-! ### TRAP, BRK and RETT (R450, R453) -/

/-- The trap of TRAP or BRK in the guarded threads. -/
def userTrap (s : State) (cause : Nat) (f : WK) : Check :=
  if (guarded s f.pr.toNat).isEmpty then .pass
  else .trap { cause := cause, det := f.k.toNat, resumeNext := true, atWord := true, only := some (guarded s f.pr.toNat) }

/-- TRAP (R453). -/
def execTrap (f : WK) (s : State) : Out := .next <| word (.trap f) s (fun s => userTrap s cUSER f) (fun s => s)

/-- BRK (R453): with breakpoint delivery armed the issue has stopped the group before this (20 R461). -/
def execBrk (f : WK) (s : State) : Out := .next <| word (.brk f) s (fun s => userTrap s cBRK f) (fun s => s)

/-- The checks of RETT: a handler is running, and the queue has room for the entries set aside (R450, 16 R391). -/
def rettCheck (s : State) : Check :=
  let g := s.srcGrp s.cur.j
  if !g.hm then .trap { cause := cILL }
  else if 16 < g.sq.length + g.aside.length then .hold 9
  else .pass

/-- The effect of the cause at RETT (R450). -/
def rettEffect (s : State) (b j : Nat) : State :=
  let g := s.grp b j
  let cause := g.tcause.toNat % 256
  let det := g.tcause.toNat / 256 % 65536
  if cause = cLFAULT ∨ cause = cSFAULT then retryFaulted s b j
  else if (cause = cENGINE ∧ det / 256 = 1) ∨ (cause = cSOFTERR ∧ det = 2) then s.updBlk b (fun k => { k with err := false, errc := 0 })
  else if cause = cCANCEL then terminateGroup s b j
  else s

/-- RETT (R450). -/
def execRett (f : WA) (s : State) : Out := .next <|
  word (.rett f) s rettCheck (fun s =>
    let b := s.cur.blk
    let j := s.cur.j
    busy (pokeMarker (rettEffect (s.updGrp b j leaveHandler) b j) b j) 3 7)

/-- TRAP_ENTRY (R446): the vector is read again once its page is resident. -/
def execTrapEntry (s : State) : Out := .next <|
  if (s.blk s.arg.x).core.isSome then enterTrap s s.arg.x s.arg.y else s

/-! ### Decode tables (05 R137, R138, R454) -/

/-- An entry that a table may hold (R137). -/
def entryOk (e : Nat) : Bool :=
  decide (e / 2 ^ 13 = 0) && (!e.testBit 12 || (match nativeOfIop (e % 512) with
    | some op => decide (formatOf op = some (e / 512 % 8))
    | none => false))

/-- The entries of 2048 bytes. -/
def tableOf (bs : List Byte) : Tab Nat := (upto 1024).map (fun n => (n, leNat ((bs.drop (2 * n)).take 2)))

/-- The slot a DTLOAD names. -/
def slotOf (f : WI) : Nat := f.k.toNat

/-- The 2048 bytes at the address of the lowest guarded lane, or why they cannot be loaded (R137, R454). -/
def tableRead (s : State) (f : WI) (m : Nat × Nat) : Check × List Byte :=
  let k := s.blk s.cur.blk
  let a := (rdX s m f.a.toNat).toNat
  if a % 2048 ≠ 0 then (.trap { cause := cALIGN, addr := [(m, a, 0)] }, [])
  else if !canonicalAddr a then (.trap { cause := cPROT, addr := [(m, a, 0)] }, [])
  else if draining (s.srcGrp m.1) then (.hold 9, [])
  else match vread s k.ctx (vaOf a) 2048 aLOAD k.priv with
    | .wait _ stage _ gpa => (.page k.ctx (vaOf a) aLOAD stage gpa 8, [])
    | .fail syn det => (.trap { cause := cLFAULT, det := if det = 0x1F then 0 else det
                                addr := [(m, a, if det = 0x1F then syndrome aLOAD 0 2 kPOISONED else syn)] }, [])
    | .done bs => if (tableOf bs).all (fun e => entryOk e.2) then (.pass, bs) else (.trap { cause := cILL }, [])

/-- DTLOAD (R137): one indivisible install. Words not yet issued are fetched and decoded again, as every issue of the model is. -/
def execDtload (f : WI) (s : State) : Out := .next <|
  word (.dtload f) s (fun s =>
    if slotOf f < 1 ∨ 4 < slotOf f then .trap { cause := cILL }
    else match lowest s f.pr.toNat with
      | none => .pass
      | some m => (tableRead s f m).1) (fun s =>
    match lowest s f.pr.toNat with
    | none => s
    | some m => busy (s.updCtx s.curCtx (fun x => { x with slots := tset x.slots (slotOf f) (tableOf (tableRead s f m).2) })) 8 8)

/-- DTSEL (R138): a slot that has never been loaded raises ILL. -/
def execDtsel (f : WI) (s : State) : Out := .next <|
  word (.dtsel f) s (fun s =>
    if f.k ≠ 0 ∧ !thas (s.ctx s.curCtx).slots f.k.toNat then .trap { cause := cILL } else .pass) (fun s =>
    busy (s.foldl (guardedGroups s f.pr.toNat) (fun t j => t.updGrp t.cur.blk j (fun g => { g with sel := f.k.toNat }))) 6 8)

/-! ### ICINV (R455) -/

/-- A completion without a register, awaited at the next switch marker (05 R121): its identity and place in the issue order. -/
def issueCompletion (s : State) (j lane : Nat) : (Nat × Nat) × State :=
  let b := s.cur.blk
  let (id, s) := s.fresh
  let (seq, s) := takeSeq s b j
  ((id, seq), s.updGrp b j (fun g => { g with pend := g.pend ++
    [{ id := id, kind := .completion, seq := seq, size := 4, accs := [{ j := j, lane := lane, addr := 0, cap := true }], pc := s.cur.pc }] }))

/-- Whether accesses that stand before place `seq` in a group are still to be performed; one that has faulted or waits for its page is not waited
for (12 R309). -/
def earlierLeft (s : State) (b j seq : Nat) : Bool :=
  let g := s.grp b j
  let waits (ev : Instr) (p : Arg → Bool) : Bool :=
    s.page.waiters.any (fun w => w.peer.isNone && (match w.retry with | some r => decide (r.1 = ev) && p r.2 | none => false))
  (match g.sq with
    | e :: _ => decide (e.seq < seq) && e.fault.isNone && !waits .storeQueuePerform (fun a => decide (a.x = b ∧ a.y = j))
    | [] => false) ||
  g.pend.any (fun p => decide (p.kind = .load ∧ p.seq < seq) && !loadStuck g p && p.accs.any (fun a => !a.cap) &&
    !waits .loadResultReturn (fun a => decide (a.x = b ∧ a.y = j ∧ a.z = p.id)))

/-- A completion leaves the group's pending results. -/
def completeIt (s : State) (b j id : Nat) : State :=
  if thas (s.blk b).groups j then settle (s.updGrp b j (fun g => { g with pend := g.pend.filter (fun p => p.id ≠ id) })) b j else s

/-- ICINV (R455). -/
def execIcinv (f : WA) (s : State) : Out := .next <|
  word (.icinv f) s (fun s =>
    match lowest s f.pr.toNat with
    | none => .pass
    | some m => if canonicalAddr (rdX s m f.a.toNat).toNat then .pass else
        .trap { cause := cPROT, addr := [(m, (rdX s m f.a.toNat).toNat, 0)] }) (fun s =>
    match lowest s f.pr.toNat with
    | none => s
    | some m =>
      let r := issueCompletion s m.1 m.2
      busy ((r.2.tick).post (s.gts + 1 + Config.extraLatency r.2.freeCtr % 2000) (s.blkCore s.cur.blk) .icinvCompletion
        { x := r.1.1, y := s.cur.blk, z := m.1, u := r.1.2 }) 4 8)

/-- ICINV_COMPLETION (R455): once the earlier stores are performed. Code is fetched afresh at every issue, so that nothing is left to
discard. -/
def execIcinvCompletion (s : State) : Out := .next <|
  let a := s.arg
  if earlierLeft s a.y a.z a.u then s.post (s.gts + 16) (s.blkCore a.y) .icinvCompletion a
  else completeIt s a.y a.z a.x

/-! ### Maker configuration (R456) -/

/-- The maker configuration space (R456). -/
def makerRead (s : State) (n : Nat) : DWord :=
  if n = 0 then BitVec.ofNat 64 (0x4759_0004 * 2 ^ 32) ||| (Config.maker 0 &&& 0xFFFF)
  else if n = 1 then BitVec.ofNat 64 (s.power.bootst % 4)
  else if 0x10 ≤ n ∧ n < 0x50 then Config.maker n
  else 0

/-- MCFGR (R456). -/
def execMcfgr (f : WS) (s : State) : Out := .next <|
  plain (.mcfgr f) s (fun s => lanesX s f.pr.toNat f.d.toNat (fun _ => makerRead s f.sreg.toNat))

/-- MCFGW (R456): every register of the space is read-only, and writes elsewhere are ignored. -/
def execMcfgw (f : WS) (s : State) : Out := .next <| plain (.mcfgw f) s (fun s => s)

end Sys2Proof.Machine
end

