-- ==== Sys2Proof/Machine/Page.lean ====
section
/-!
DEFINITION. The page unit (12_page.md R297 to R310) and the format range registers (03_memory.md R84, R85): PROBE and TLBI, re-walks, page
requests, the gutter's drain, page moves and invalidations.
-/

namespace Sys2Proof.Machine

/-! ### PROBE (R308) -/

/-- The access that a PROBE checks. -/
def probeAcc (w : Nat) : Nat := match w with | 0 => aLOAD | 1 => aSTORE | _ => aFETCH

/-- Whether an access that translates would fault all the same: at a peer that cannot be reached, or a fetch from control space. -/
def probeRefused (s : State) (acc dev pa : Nat) : Bool := !peerUp s dev || (acc == aFETCH && pa.testBit 39)

/-- The result of PROBE for one VA (R308). A store to a NONRESIDENT page that the gutter would take neither faults nor waits (R298). -/
def probeResult (s : State) (ctx priv va w : Nat) : Nat :=
  if !canonicalAddr va then 4 * 2 ^ 61 + 2 ^ 58 + kUNMAPPED * 2 ^ 54
  else
    let acc := probeAcc w
    let kind (r : XRes) : Nat := match r with | .fault k _ _ => k | .remote k _ _ => k | _ => 0
    let landing := w == 1 && s.page.gutEn && decide (s.page.slots.length < 1048576)
    match cachedWalk s ctx (vaOf va) aLOAD 1, translate s ctx (vaOf va) acc priv with
    | .wait st _ _ _, _ => st * 2 ^ 61 + b2n (!(st == 1 && landing)) * 2 ^ 58
    | .ok dev pa t, r =>
      let bad := match r with | .ok _ _ _ => probeRefused s acc dev pa | _ => true
      let out := if priv = 0 then 0 else if priv = 1 then peAddr t.gleaf + vaOf va % 2 ^ lvlBits t.glvl else domAddr dev pa
      t.glvl % 4 * 2 ^ 59 + b2n bad * 2 ^ 58 + kind r % 16 * 2 ^ 54 + b2n (decide (dev ≠ s.devNo)) * 2 ^ 53 + out % 2 ^ 50
    | r0, _ => (if kind r0 = kPOISONED then 3 else 4) * 2 ^ 61 + 2 ^ 58 + kind r0 % 16 * 2 ^ 54

/-- What a PROBE's walks still have to read of tables at peer homes (R295). -/
def probeLacks (s : State) (f : WA) : Option (Nat × Lack) :=
  (guarded s f.pr.toNat).findSome? (fun m =>
    let va := (rdX s m f.a.toNat).toNat
    match cachedWalk s s.curCtx (vaOf va) aLOAD 1 with
    | .wait 0 _ _ need => some (vaOf va, need)
    | _ => none)

/-- PROBE (R308): the issue waits while its walks read tables at peer homes. -/
def execProbe (f : WA) (s : State) : Out := .next <|
  word (.probe f) s (fun s =>
    if (guarded s f.pr.toNat).any (fun m => decide (2 < (rdW s m f.b.toNat).toNat)) then .trap { cause := cILL }
    else match probeLacks s f with
      | some (va, need) => .page s.curCtx va aLOAD 0 need 8
      | none => .pass)
    (fun s => s.foldl (guardedGroups s f.pr.toNat) (fun t j =>
      issueValue t j f.d.toNat 8 12 (guardedIn s f.pr.toNat j)
        (fun l => probeResult s s.curCtx (s.grp s.cur.blk j).priv (rdX s (j, l) f.a.toNat).toNat (rdW s (j, l) f.b.toNat).toNat)))

/-! ### Waiting accesses (R299) -/

/-- The guest and hypervisor levels that decide an address now. -/
def levelsOf (s : State) (ctx va acc : Nat) : Nat × Nat :=
  match pageWalk s ctx va acc with
  | .ok _ _ t => (t.glvl, t.hlvl)
  | .wait 0 _ _ _ => (4, 4)
  | .wait _ 1 lvl _ => (lvl, 0)
  | .wait _ _ lvl _ => (0, lvl)
  | _ => (0, 0)

/-- Asks for re-walks of the waiting accesses that a test selects. -/
def rewalkWhere (s : State) (p : Waiter → Bool) : State :=
  s.foldl (s.page.waiters.filter (fun w => w.peer.isNone && p w)) (fun t w => t.postOnce t.gts w.src .pageReWalk { x := w.id, y := 1 })

/-- The requests that a page's becoming resident ends. -/
def forgetRequests (s : State) (w : Waiter) : State :=
  s.updPage (fun p => { p with requested := p.requested.filter (fun r =>
    !(r.1 == w.ctx && (upto 4).any (fun lvl => decide (r.2 = pageBase lvl w.va * 2 + 1 ∨ r.2 = pageBase lvl w.gpa * 2)))) })

/-- PAGE_RE_WALK (R299): `y` is 1 for a re-walk that a trigger makes besides those every 100 µs. -/
def execPageReWalk (s : State) : Out := .next <|
  let a := s.arg
  match s.page.waiters.find? (fun w => w.id == a.x) with
  | none => s
  | some w =>
    match pageWalk s w.ctx w.va w.acc with
    | .wait 0 stage _ need => waitOn s w.ctx w.va w.acc stage need w.src (.pageReWalk, a)
    | .wait _ stage _ need =>
      let gpa := match need with | .page g => g | _ => w.gpa
      let s := s.updPage (fun p => { p with waiters := p.waiters.map (fun v => if v.id = w.id then { v with stage := stage, gpa := gpa } else v) })
      let s := requestPage s w.ctx w.va w.acc w.src
      if a.y = 1 then s else s.post (s.gts + 100000) w.src .pageReWalk a
    | r =>
      let s := (forgetRequests s w).updPage (fun p => { p with waiters := p.waiters.filter (fun v => v.id ≠ w.id) })
      let held := match r with | .ok dev pa t => gutterHas s dev pa t w.va | _ => false
      let s := if held then s.postOnce s.gts (768 + idleRafter s) .gutterDrain { x := w.ctx, y := pageBase 0 w.va } else s
      match w.retry with
      | some r => if r.1 = .gutterDrain then s.postOnce s.gts (768 + idleRafter s) r.1 r.2 else s.postOnce s.gts w.src r.1 r.2
      | none => s

/-- The stores that the masked bytes of a line in control space are: each aligned doubleword that is wholly masked, and each other aligned word
(03 R67, log 94). -/
def controlStores (mask : Nat) : List (Nat × Nat) :=
  (upto 16).flatMap (fun i =>
    let w (k : Nat) : Bool := decide (mask / 2 ^ (8 * i + 4 * k) % 16 = 15)
    if w 0 && w 1 then [(8 * i, 8)] else (if w 0 then [(8 * i, 4)] else []) ++ (if w 1 then [(8 * i + 4, 4)] else []))

/-- Drains a line into control space: a thread's store is one of 4 or 8 bytes there, and anything else is not admitted (03 R67, log 94). -/
def drainControl (s : State) (pa src : Nat) (g : GutterSlot) : State :=
  match g.store with
  | some priv => s.foldl (controlStores g.mask) (fun t p =>
      ctrlWrite t (pa + p.1) ((g.bytes.drop p.1).take p.2) priv (some (vfOfCtx s g.ctx)) src)
  | none => s

/-- Writes exactly the bytes of a gutter slot that its mask names, where its page lies now (R302). What a format range refuses there is not
written (03 R86, log 94). -/
def drainSlot (s : State) (dev pa : Nat) (g : GutterSlot) : WRes :=
  if dev = s.devNo ∧ pa.testBit 39 then .done (drainControl s pa s.src g)
  else (maskRuns g.mask).foldl (fun (r : WRes) p => match r with
    | .done t =>
      let bs := (g.bytes.drop p.1).take p.2
      let a := pa + p.1
      let vf := vfOfCtx t g.ctx
      if dev ≠ t.devNo then peerWrite t dev a bs
      else if windowBars t vf a p.2 true || (g.store.isSome && (upto p.2).any (fun i => frrPacked t vf (a + i))) then .done t
      else .done (touchHome (dropPlanes (physWrite t dev a bs) a p.2) (some g.ctx) a p.2 true)
    | r => r) (.done s)

/-- Slots leave the gutter, and the writers that may have found it full try again (R301). -/
def freeSlots (s : State) (p : GutterSlot → Bool) : State :=
  let full := decide (1048576 < s.page.slots.length + 1024)
  let ws := if full then s.page.waiters.filter (fun w => w.peer.isNone && accWrites w.acc && w.retry.isSome) else []
  let s := s.updPage (fun g => { g with slots := g.slots.filter (fun x => !p x), waiters := g.waiters.filter (fun w => !(ws.any (fun v => v.id == w.id))) })
  s.foldl ws (fun t w => match w.retry with | some r => t.postOnce t.gts w.src r.1 r.2 | none => t)

/-- A partition reset discards a context's slots on pages that are still NONRESIDENT (R302). -/
def dropSlots (s : State) (c : Nat) : State :=
  freeSlots s (fun g => g.ctx == c && (match pageWalk s c g.va aLOAD with | .wait 1 _ _ (.page _) => true | _ => false))

/-- GUTTER_DRAIN (R302): the slots of a page are written in landing order once the page is resident, each where its own address lies; one whose
address can no longer be written is not. -/
def execGutterDrain (s : State) : Out := .next <|
  let c := s.arg.x
  let va := s.arg.y
  let here (g : GutterSlot) : Bool := g.ctx == c && decide (g.va / 65536 = va / 65536)
  match pageWalk s c va aLOAD with
  | .ok dev pa x =>
    let mine := s.page.slots.filter (fun g => slotOn s g dev pa x va)
    let r := mine.foldl (fun (r : WRes) g => match r with
      | .done t => (match pageWalk t g.ctx g.va aLOAD with
        | .ok d p _ => drainSlot t d p g
        | _ => .done t)
      | r => r) (.done s)
    -- R302: the slots of pages that are still NONRESIDENT stay
    let gone (g : GutterSlot) : Bool := mine.contains g && (match pageWalk s g.ctx g.va aLOAD with | .wait _ _ _ _ => false | _ => true)
    (match r with
    | .done t => freeSlots t gone
    | .wait _ stage _ need => waitOn s c va aEWRITE stage need s.src (.gutterDrain, s.arg)
    | .fail _ _ => freeSlots s gone)
  | .wait _ stage _ need => if s.page.slots.any here then waitOn s c va aEWRITE stage need s.src (.gutterDrain, s.arg) else s
  | _ => freeSlots s here

/-! ### Page requests (R300) -/

/-- A page request record. -/
def requestRec (gts addr ctx vf acc : Nat) (soft : Bool) : List Byte :=
  natLe 32 (gts * 2 ^ 192 + addr % 2 ^ 64 * 2 ^ 128 + ctx % 4096 * 2 ^ 64 + vf % 64 * 2 ^ 42 + acc % 8 * 2 ^ 13 + b2n soft * 256)

def prqEn (b : DWord) : Bool := b.getLsbD 0
def prqSize (b : DWord) : Nat := 2 ^ (min (fld b 7 4) 8 + 4)
def prqFull (b : DWord) (head tail : Nat) : Bool := decide ((head + 65536 - tail) % 65536 = prqSize b)
def prqSlot (b : DWord) (head : Nat) : Nat := fld b 47 12 * 4096 + 32 * (head % prqSize b)

/-- A request that is not written may be posted again (R300). -/
def dropRequest (s : State) (c key : Nat) : State :=
  s.updPage (fun p => { p with requested := p.requested.filter (fun r => !(r.1 == c && r.2 == key)) })

/-- Writes a record to the device ring, whose address is a PA; it is dropped where that lies outside HBM (R158, R300). -/
def deviceRequest (s : State) (c key : Nat) (bs : List Byte) : State :=
  let p := s.page
  let pa := prqSlot p.prqBase p.prqHead
  if !prqEn p.prqBase || prqFull p.prqBase p.prqHead p.prqTail || decide (2 ^ 39 ≤ pa) then
    dropRequest (s.updPage (fun p => { p with prqDrop := satInc p.prqDrop })) c key
  else (physWrite s s.devNo pa bs).updPage (fun p => { p with prqHead := (p.prqHead + 1) % 65536 })

/-- Writes a record of a context to a VF's ring as notices are written: it may land in the gutter, or wait for its page, with the later ones
behind it (R158, R300). -/
def vfRequest (s : State) (n c key : Nat) (bs : List Byte) : State :=
  let v := s.vf n
  let lost (s : State) : State := dropRequest (s.updVf n (fun v => { v with prqDrop := satInc v.prqDrop })) c key
  if !v.prqWait.isEmpty then s.updVf n (fun v => { v with prqWait := v.prqWait ++ [(c, key, bs)] })
  else if !prqEn v.prqBase || prqFull v.prqBase v.prqHead v.prqTail then lost s
  else
    let slot := prqSlot v.prqBase v.prqHead
    let rc := ringCtx n (c % 4096)
    match writeAt s (pageWalk s rc slot aEWRITE) rc slot bs aEWRITE s.src with
    | .done t => t.updVf n (fun v => { v with prqHead := (v.prqHead + 1) % 65536 })
    | .fail _ _ => lost s
    | .wait _ stage _ need =>
      waitOn (s.updVf n (fun v => { v with prqWait := v.prqWait ++ [(c, key, bs)] })) rc slot aEWRITE stage need s.src (.pageRequest, { x := rc, u := 2 })

/-- PAGE_REQUEST (R300): `l` holds the GTS of the first wait. `u` is 1 for a soft error (21 R487), and 2 tries the records of a VF's ring again
that wait for their page. -/
def execPageRequest (s : State) : Out := .next <|
  let a := s.arg
  let n := vfOfCtx s a.x
  let since := a.l.headD s.gts
  if a.u = 2 then
    let rs := (s.vf n).prqWait
    s.updVf n (fun v => { v with prqWait := [] }) |>.foldl rs (fun t r => vfRequest t n r.1 r.2.1 r.2.2)
  else if a.u = 1 then vfRequest s n a.x 0 (requestRec s.gts a.y a.x n a.z true)
  else match pageWalk s a.x a.y a.z, waitKey s a.x a.y a.z with
    | .wait 1 1 _ _, some key => vfRequest s n a.x key (requestRec since a.y a.x n a.z false)
    | .wait 1 _ _ (.page gpa), some key => deviceRequest s a.x key (requestRec since gpa a.x n a.z false)
    | .wait 0 stage _ need, _ => waitOn s a.x a.y a.z stage need s.src (.pageRequest, a)
    | _, _ => s.updPage (fun p => { p with requested := p.requested.filter (fun r =>
        !(r.1 == a.x && (upto 4).any (fun lvl => decide (r.2 = pageBase lvl a.y * 2 + 1)))) })

/-- PRQDONE_WRITE (R299, R300): ring 64 is the device ring. -/
def execPrqdoneWrite (s : State) : Out := .next <|
  let r := s.arg.x
  rewalkWhere s (fun w => if r = 64 then decide (w.stage ≠ 1) else decide (w.stage = 1 ∧ vfOfCtx s w.ctx = r))

/-! ### Invalidation (R309, R310) -/

/-- What an invalidation covers. -/
structure Inval where
  typ : Nat
  stg : Nat
  ctx : Nat
  vf : Nat
  addr : Nat

/-- Whether it covers a cached translation (R309). -/
def Inval.hits (i : Inval) (t : TlbEntry) : Bool :=
  match i.typ with
  | 0 =>
    if i.stg = 0 then decide (t.ctx = i.ctx ∧ pageBase t.glvl t.va = pageBase t.glvl (vaOf i.addr))
    else decide (t.vf = i.vf ∧ pageBase t.hlvl t.gpa = pageBase t.hlvl i.addr)
  | 1 => decide (t.ctx = i.ctx)
  | _ => decide (t.vf = i.vf)

/-- Whether it covers a pointer entry of a walker's cache (R309): those of the hypervisor stage belong to the VF (log 13). -/
def Inval.hitsPtr (i : Inval) (s : State) (p : PtrEntry) : Bool :=
  match i.typ with
  | 0 =>
    if i.stg = 0 then decide (p.stage = 1 ∧ p.ctx = i.ctx ∧ pageBase p.lvl p.va = pageBase p.lvl (vaOf i.addr))
    else decide (p.stage = 2 ∧ p.vf = i.vf ∧ pageBase p.lvl p.va = pageBase p.lvl i.addr)
  | 1 => decide (p.ctx = i.ctx ∨ p.stage = 2 ∧ p.vf = vfOfCtx s i.ctx)
  | _ => decide (p.vf = i.vf)

/-- Whether it covers a waiting access (R299). -/
def Inval.wakes (i : Inval) (s : State) (w : Waiter) : Bool :=
  let l := levelsOf s w.ctx w.va w.acc
  match i.typ with
  | 0 =>
    if i.stg = 0 then decide (w.ctx = i.ctx ∧ pageBase l.1 w.va = pageBase l.1 (vaOf i.addr))
    else decide (vfOfCtx s w.ctx = i.vf ∧ w.stage = 2 ∧ pageBase l.2 w.gpa = pageBase l.2 i.addr)
  | 1 => decide (w.ctx = i.ctx)
  | _ => decide (vfOfCtx s w.ctx = i.vf)

/-- Removes what an invalidation covers and walks the waiting accesses again. -/
def invalidate (s : State) (i : Inval) : State :=
  let s := s.updPage (fun p => { p with tlb := tmap (fun _ ts => ts.filter (fun t => !i.hits t)) p.tlb
                                        ptrs := tmap (fun _ ps => ps.filter (fun q => !i.hitsPtr s q)) p.ptrs })
  rewalkWhere s (fun w => i.wakes s w)

/-- The fields of TLBI's control operand. -/
def ctlTyp (c : Nat) : Nat := c % 4
def ctlStg (c : Nat) : Nat := c / 4 % 2
def ctlCtx (c : Nat) : Nat := c / 16 % 4096

/-- The VF that owns a context id (R309). -/
def ownerVf (s : State) (c : Nat) : Nat := match vfOfId s c with | some n => n | none => (s.ctx c).vf

/-- The invalidation that a control operand names; `vf` is the VF a TLBIH names for TYPE 2. -/
def invalOf (s : State) (ctl addr : Nat) (vf : Option Nat) : Inval :=
  { typ := ctlTyp ctl, stg := ctlStg ctl, ctx := ctlCtx ctl, addr := addr
    vf := match vf with | some n => if ctlTyp ctl = 2 then n else ownerVf s (ctlCtx ctl) | none => ownerVf s (ctlCtx ctl) }

/-- The checks of TLBI (R309). -/
def tlbiCheck (s : State) (f : WA) : Check :=
  match lowest s f.pr.toNat with
  | none => .pass
  | some m =>
    let ctl := (rdW s m f.b.toNat).toNat
    let priv := (s.grp s.cur.blk m.1).priv
    let v := s.vf (s.ctx s.curCtx).vf
    if ctl / 65536 ≠ 0 ∨ ctlTyp ctl = 3 then .trap { cause := cILL }
    else if ctlStg ctl = 1 ∧ priv < 2 then .trap { cause := cPRIV, det := s.cur.iop }
    else if priv = 1 ∧ !(decide (v.idbase ≤ ctlCtx ctl ∧ ctlCtx ctl < v.idbase + v.idcnt)) then .trap { cause := cPRIV, det := s.cur.iop }
    else .pass

/-- TLBI (R309): its completion is awaited at the next switch marker. -/
def execTlbi (f : WA) (s : State) : Out := .next <|
  word (.tlbi f) s (fun s => tlbiCheck s f) (fun s =>
    match lowest s f.pr.toNat with
    | none => s
    | some m =>
      let r := issueCompletion s m.1 m.2
      busy ((r.2.tick).post (s.gts + 1 + Config.extraLatency r.2.freeCtr % 4000) (s.blkCore s.cur.blk) .tlbiCompletion
        { x := r.1.1, y := (rdW s m f.b.toNat).toNat, z := (rdX s m f.a.toNat).toNat, l := [s.cur.blk, m.1, r.1.2] }) 2 8)

/-- Whether it covers the access that a request to a peer home belongs to: the address of a translated access is not looked at, so that a completion
may come later than it need (R309). -/
def Inval.covers (i : Inval) (s : State) (r : PeerReq) : Bool :=
  if i.typ = 1 ∨ (i.typ = 0 ∧ i.stg = 0) then decide (r.ctx = i.ctx) else decide (vfOfCtx s r.ctx = i.vf)

/-- What tells one request to a peer home from every other (13 R319). -/
def PeerReq.key (r : PeerReq) : Nat := (r.core * 1024 + r.home) * 2 ^ 32 + r.seq

/-- The requests to peer homes, made under translations that an invalidation covers, that are not answered (R306, R309). -/
def unanswered (s : State) (i : Inval) : List Nat := (s.peerReqs.filter (fun r => i.covers s r)).map PeerReq.key

/-- Those of some requests that are still not answered. -/
def stillOut (s : State) (ks : List Nat) : List Nat := ks.filter (fun k => s.peerReqs.any (fun r => r.key == k))

/-- TLBI_COMPLETION (R309, R310): the entries are removed after the issuer's earlier accesses, and the invalidation is complete once every access
that used one of them is performed, faulted or waiting. `l` names the issuing group, or is empty for TLBIH, whose VF is then in `u`; once `v` is 1, or 2
for TLBIH, the entries are removed and the requests still waited for follow in `l`. -/
def execTlbiCompletion (s : State) : Out := .next <|
  let a := s.arg
  let again (s : State) (core v : Nat) (l : List Nat) : State := s.post (s.gts + 16) core .tlbiCompletion { a with v := BitVec.ofNat 64 v, l := l }
  let hostDone (s : State) : State := s.updPage (fun p => { p with tlbihGo := false })
  match a.v.toNat, a.l with
  | 0, [b, j, seq] =>
    if earlierLeft s b j seq then again s (s.blkCore b) 0 a.l
    else
      let i := invalOf s a.y a.z none
      let ks := unanswered s i
      let t := invalidate s i
      if ks.isEmpty then completeIt t b j a.x else again t (s.blkCore b) 1 (b :: j :: ks)
  | 1, b :: j :: ks => if (stillOut s ks).isEmpty then completeIt s b j a.x else again s (s.blkCore b) 1 (b :: j :: stillOut s ks)
  | 0, _ =>
    let i := invalOf s a.y a.z (some a.u)
    let ks := unanswered s i
    let t := invalidate s i
    if ks.isEmpty then hostDone t else again t 864 2 ks
  | _, ks => if (stillOut s ks).isEmpty then hostDone s else again s 864 2 (stillOut s ks)

/-- TLBIH (R310): an invalid control operand completes at once. -/
def execTlbih (s : State) : Out := .next <|
  let ctl := fld s.page.tlbihC 15 0
  if ctlTyp ctl = 3 then s.updPage (fun p => { p with tlbihGo := false })
  else ((s.updPage (fun p => { p with tlbihGo := true })).tick).post (s.gts + 1 + Config.extraLatency s.freeCtr % 4000) 864 .tlbiCompletion
    { y := ctl, z := s.page.tlbihA.toNat, u := fld s.page.tlbihC 21 16 }

/-! ### Page moves (R306, R307) -/

/-- The address of the hypervisor leaf of a GPA, with the leaf and its level. -/
def leafAt (s : State) (gpa : Nat) : Nat → Nat → Option (Nat × Nat × Nat)
  | lvl, tbl =>
    let a := tbl + 8 * lvlIndex lvl gpa
    let e := leNat (memRead s.mem (domAddr s.devNo a) 8)
    if !peV e || peBad true lvl e then none
    else if peLeaf e then some (a, e, lvl)
    else match lvl with
      | 0 => none
      | l + 1 => leafAt s gpa l (peAddr e)

def pmovGpa (s : State) : Nat := (tget 0 s.page.pmov 0).toNat
def pmovVf (s : State) : Nat := fld (tget 0 s.page.pmov 1) 5 0
def pmovTo (s : State) : Nat := (tget 0 s.page.pmov 2).toNat % 2 ^ 50

/-- A page move ends with a status. -/
def endMove (s : State) (status : Nat) : State := s.updPage (fun p => { p with pmovGo := false, pmovStatus := status })

/-- Replaces a leaf and removes its translations (R306). -/
def writeLeaf (s : State) (vf gpa a e : Nat) : State :=
  invalidate (physWrite s s.devNo a (natLe 8 e)) { typ := 0, stg := 1, ctx := 0, vf := vf, addr := gpa }

/-- PAGE_MOVE (R306 steps 1 and 2). -/
def execPageMove (s : State) : Out := .next <|
  let s := s.updPage (fun p => { p with pmovGo := true })
  let gpa := pmovGpa s
  match leafAt s gpa 4 (s.vf (pmovVf s)).hroot with
  | none => endMove s 3
  | some (a, e, lvl) =>
    if !peMig e then endMove s 1
    else if peSt e ≠ 0 then endMove s 2
    else if !peerUp s (peDev e) ∨ !peerUp s (pmovTo s / 2 ^ 40) then endMove s 4
    else
      let ks := unanswered s { typ := 0, stg := 1, ctx := 0, vf := pmovVf s, addr := gpa }
      let s := writeLeaf s (pmovVf s) gpa a (e + 2 * 2 ^ 5)
      (s.tick).post (s.gts + 1 + Config.extraLatency s.freeCtr) 781 .pageMoveComplete
        { x := a, y := e, z := lvl, u := gpa, l := pmovVf s :: pmovTo s :: ks }

/-- A line of a page on its way between two homes, at least one of them a peer (R306 step 3, 13 R318). -/
def moveLine (s : State) (src dst : Nat) : WRes :=
  let get := if src / 2 ^ 40 = s.devNo then .done (physRead s s.devNo (src % 2 ^ 40) 128) else peerRead s (src / 2 ^ 40) (src % 2 ^ 40) 128
  match get with
  | .done bs =>
    if dst / 2 ^ 40 = s.devNo then .done (mendLines (physWrite s s.devNo (dst % 2 ^ 40) bs) s.devNo (dst % 2 ^ 40) 128)
    else peerWrite s (dst / 2 ^ 40) (dst % 2 ^ 40) bs
  | .wait st stage lvl need => .wait st stage lvl need
  | .fail syn det => .fail syn det

/-- PAGE_MOVE_COMPLETE (R306 steps 2 to 5): the wait for the accesses made under the old translation, the requests for which `l` names behind the
VF and the destination, and the copy, line by line (`v` is the next) where a home is a peer; a home that refuses or can no longer
be reached leaves the leaf RESIDENT at its old address (R307). -/
def execPageMoveComplete (s : State) : Out := .next <|
  let a := s.arg
  let vf := a.l.getD 0 0
  let size := 2 ^ lvlBits a.z
  let src := domAddr (peDev a.y) (peAddr a.y)
  let dst := a.l.getD 1 0 / size * size
  let pos := a.v.toNat
  let finish (s : State) : State := endMove (writeLeaf s vf a.u a.x (a.y % 2 ^ 8 + dst % 2 ^ 40 + dst / 2 ^ 40 * 2 ^ 54)) 0
  let ks := stillOut s (a.l.drop 2)
  if !ks.isEmpty then s.post (s.gts + 16) 781 .pageMoveComplete { a with l := a.l.take 2 ++ ks }
  else if !peerUp s (peDev a.y) ∨ !peerUp s (dst / 2 ^ 40) then endMove (writeLeaf s vf a.u a.x a.y) 4
  else if peDev a.y = s.devNo ∧ dst / 2 ^ 40 = s.devNo then
    finish (mendLines { s with mem := memCopy s.mem src dst size } (dst / 2 ^ 40) (dst % 2 ^ 40) size)
  else if size ≤ pos then finish s
  else match moveLine s (src + pos) (dst + pos) with
    | .done t => t.post (t.gts + 1) 781 .pageMoveComplete { a with v := BitVec.ofNat 64 (pos + 128) }
    | .wait _ stage _ need => waitOn s noCtx a.u aEREAD stage need 781 (.pageMoveComplete, a)
    | .fail _ _ => endMove (writeLeaf s vf a.u a.x a.y) 4

/-! ### Format range registers (03 R84, R85) -/

/-- A register as a commit of word 0 would leave it. -/
def frrStaged (f : Frr) (v : DWord) : Frr :=
  { f with w0 := v &&& 0xFFFF_FFFE_0000_FF81, w1 := f.s1 &&& 0x0000_00FF_FFFF_FF80, w2 := f.s2 &&& 0x0000_00FF_FFFF_F000
           w3 := f.s3 &&& 0x000F_FFFF_FFF0_0000, err := false }

/-- The three regions of a range: base and size. -/
def frrRegions (f : Frr) : List (Nat × Nat) := [(frrD f, frrDSize f), (frrS f, frrSSize f), (frrW f, frrWSize f)]

def apart (a b : Nat × Nat) : Bool := decide (a.1 + a.2 ≤ b.1 ∨ b.1 + b.2 ≤ a.1)

/-- Whether a commit with EN = 1 is accepted (R85). -/
def frrOk (s : State) (n : Nat) (f : Frr) : Bool :=
  let rs := frrRegions f
  let others := (frrOn s).filter (fun e => e.1 ≠ n) |>.flatMap (fun e => frrRegions e.2)
  decide (frrType f = 1 ∨ frrType f = 2) && (!frrGs f || decide (frrKT f % 2 = 0)) &&
  rs.all (fun r => decide (r.1 + r.2 ≤ 2 ^ 39 ∧ r.1 / 2 ^ 37 = frrD f / 2 ^ 37 ∧ (r.1 + r.2 - 1) / 2 ^ 37 = frrD f / 2 ^ 37)) &&
  apart (frrD f, frrDSize f) (frrS f, frrSSize f) && apart (frrD f, frrDSize f) (frrW f, frrWSize f) &&
  apart (frrS f, frrSSize f) (frrW f, frrWSize f) && rs.all (fun r => others.all (apart r))

/-- FRR_COMMIT (R84, R85, R88). -/
def execFrrCommit (s : State) : Out :=
  let n := s.arg.x
  if 32 ≤ n then .fault (.noSuchObject "format range register" n)
  else
    let f := s.frrAt n
    let g := frrStaged f s.arg.v
    -- R88: the lines of the old window and of the new one leave the L2
    if frrEn g && !frrOk s n g then .next { s with frr := tset s.frr n { f with err := true } }
    else
      let old := (if frrEn f then [(frrW f, frrWSize f)] else []) ++ (if frrEn f || frrEn g then [(frrW g, frrWSize g)] else [])
      let s := if old.isEmpty then s else s.withCaches (s.caches.forget old)
      .next { s with frr := tset s.frr n g }

end Sys2Proof.Machine
end

