-- ==== Sys2Proof/Machine/Place.lean ====
section
/-!
DEFINITION. Blocks on cores: the units and places a block takes (03_memory.md R70, R80; 09_kernel.md R237 to R240), dispatch (R241 to R243,
08_queue.md R220, R221), exit and completion (R233, R244), and the work-record entries (R231).
-/

namespace Sys2Proof.Machine

/-! ### Work-record entries (R230, R231) -/

/-- Entries of the table (R230). -/
def wrSize (c : Ctx) : Nat := 2 ^ (min (c.wrtb.toNat % 16) 10 + 6)

/-- VA of an entry. -/
def wrVa (c : Ctx) (n : Nat) : Nat := fld c.wrtb 56 12 * 4096 + 32 * n

/-- Byte 24 of an entry: STATE, H, CNC and LEVEL (R231). -/
def wrFlags (st : Nat) (h cnc : Bool) (level : Nat) : Nat := st % 4 + b2n h * 16 + b2n cnc * 32 + level % 4 * 64

/-- The source of what a rafter does for a context: the rafter whose event is performed, else rafter 0 (01 R34, log 42). -/
def rafterSrc (s : State) : Nat := if 768 ≤ s.src ∧ s.src < 780 then s.src else 768

/-- Writes bytes of an entry from an offset on. -/
def wrPut (s : State) (c n off len v : Nat) : State := ownWrite s c (wrVa (s.ctx c) n + off) (natLe len v) (rafterSrc s)

def Ctx.node (x : Ctx) (n : Nat) : Node := tget {} x.nodes n
def State.updNode (s : State) (c n : Nat) (f : Node → Node) : State :=
  s.updCtx c (fun x => { x with nodes := tset x.nodes n (f (x.node n)) })

/-- Writes NEXT into the launch record (R236). -/
def writeNext (s : State) (c e : Nat) : State :=
  let l := (s.ctx c).launch e
  ownWrite s c (l.recVa + 52) (natLe 4 l.next) (rafterSrc s)

/-! ### Reading entries (R231, R232) -/

/-- The outcome of reading a slot. -/
inductive SlotRes where
  | done (bs : List Byte) (s : State)
  | wait (va stage : Nat) (need : Lack)
  | fail
deriving DecidableEq, Repr

def slotRead (s : State) (c va n : Nat) : SlotRes :=
  match vread s c va n aLOAD 0 with
  | .done bs => .done bs (touchRead s c va n aLOAD 0)
  | .wait _ stage _ need => .wait va stage need
  | .fail _ _ => .fail

/-- Bytes read at an address, with Gyold's own writes there that are not performed yet (R231). -/
def overOwn (s : State) (c va : Nat) (bs : List Byte) : List Byte :=
  ((s.ctx c).rings.filter (fun r => r.ring == 4)).foldl (fun bs r =>
    let a := leNat (r.bytes.take 8)
    (upto bs.length).map (fun i => if meets a (r.bytes.length - 8) (va + i) 1 then r.bytes.getD (8 + (va + i - a)) 0 else bs.getD i 0)) bs

/-- An entry: an ACTIVE one is Gyold's own copy, any other stands in memory with Gyold's writes to it (R231). -/
def readEntry (s : State) (c n : Nat) : SlotRes :=
  let x := s.ctx c
  let copy (count dropped target st : Nat) (hard cnc : Bool) (lv parent : Nat) : List Byte :=
    natLe 32 (count % 2 ^ 32 + dropped % 2 ^ 32 * 2 ^ 32 + target % 2 ^ 32 * 2 ^ 64 + wrFlags st hard cnc lv * 2 ^ 192 + parent % 65536 * 2 ^ 224)
  let memory : SlotRes := match slotRead s c (wrVa x n) 32 with | .done bs t => .done (overOwn s c (wrVa x n) bs) t | r => r
  match tfind x.launches n, tfind x.nodes n with
  | some l, _ => .done (copy l.count l.dropped l.target 1 l.hard l.cnc 0 l.parent) s
  | none, some nd => if nd.st = 1 then .done (copy nd.count 0 nd.target 1 nd.hard nd.cnc nd.level nd.parent) s else memory
  | none, none => memory

/-- Gyold's copy of an upper entry as it stands in memory. -/
def nodeOf (lv up : Nat) (e : List Byte) : Node :=
  { level := lv, parent := up, count := recBits e 31 0, target := recBits e 95 64, cnc := decide (recBits e 197 197 = 1)
    hard := decide (recBits e 196 196 = 1), st := recBits e 193 192 }

/-- Adds `d` completions to an upper node; one that reaches TARGET completes and counts to its own parent (R232, R233). -/
def countNode : Nat → State → Nat → Nat → Nat → State
  | 0, s, _, _, _ => s
  | fuel + 1, s, c, n, d =>
    match tfind (s.ctx c).nodes n with
    | none => s
    | some nd =>
      if nd.st = 1 then
        let s := wrPut (s.updNode c n (fun x => { x with count := (x.count + d) % 2 ^ 32 })) c n 0 4 (nd.count + d)
        if nd.target ≤ nd.count + d then
          let st := if nd.cnc then 3 else 2
          let s := wrPut (s.updNode c n (fun x => { x with st := st })) c n 16 8 s.gts
          countNode fuel (wrPut s c n 24 1 (wrFlags st nd.hard nd.cnc nd.level)) c nd.parent 1
        else s
      else
        -- a node that is no longer active lies in memory: its COUNT there goes on
        let old := match readEntry s c n with | .done bs _ => recBits bs 31 0 | _ => nd.count
        wrPut (s.updNode c n (fun x => { x with count := (old + d) % 2 ^ 32 })) c n 0 4 (old + d)

/-- Closes every feed of a launch. -/
def closeFeeds (s : State) (c e : Nat) : State :=
  s.foldl (upto ((s.ctx c).launch e).feedsN) (fun t f => if (t.feed c e f).closed then t else feedClose t c e f)

/-- A launch gives its bridle channel back (11 R283). -/
def freeChannel (s : State) (c e : Nat) : State :=
  match ((s.ctx c).launch e).chan with
  | some n => { s with chans := tset s.chans n {} }
  | none => s

/-- Asks for a dispatch decision of a context. -/
def pokeDispatch (s : State) (c : Nat) : State :=
  if (s.ctx c).st = .running ∧ !(s.ctx c).noDispatch then s.postOnce s.gts (rafterSrc s) .dispatchDecision { x := c } else s

/-- The launch completes: its entry, its record's NEXT, its LAUNCH packet and its parent (R233, R236, 08 R205). -/
def completeLaunch (s : State) (c e : Nat) : State :=
  let l := (s.ctx c).launch e
  let s := wrPut s c e 16 8 s.gts
  let s := wrPut s c e 24 1 (wrFlags (if l.cnc then 3 else 2) l.hard l.cnc 0)
  let s := traceEvent (writeNext s c e) c 3 (rafterSrc s) s.gts e l.count l.dropped
  let s := (freeChannel s c e).updCtx c (fun x => { x with launches := tdel x.launches e })
  let s := s.post s.gts (rafterSrc s) .launchPacket { x := c, y := l.queue, z := l.pidx, u := 1 }
  -- a launch that fitted nowhere may have gone: lower ones go on (08 R221)
  pokeDispatch (pokeBlocked (pokeBlocked (countNode 4 s c l.parent 1) c 5) c 3) c

/-- Counts blocks of a launch as complete (R244, R245). -/
def countLaunch (s : State) (c e d : Nat) : State :=
  if !thas (s.ctx c).launches e then s
  else
    let s := s.updLaunch c e (fun l => { l with count := l.count + d })
    let l := (s.ctx c).launch e
    let s := wrPut s c e 0 8 (l.count + l.dropped * 2 ^ 32)
    if l.target ≤ l.count then completeLaunch s c e else s

/-! ### Units (R70, R80) -/

/-- The number of a 64 KiB unit: one of a bank group, or in the place of bank group 0 one of a dark core's register file. -/
def unitNo (core bg u : Nat) : Nat := core * 128 + bg * 16 + u

/-- The bank groups of a core that a context holds as SPAD. -/
def spadGroups (s : State) (c core : Nat) : List Nat :=
  (heldUnits s c 1).filterMap (fun n => if n / 7 = core ∧ (s.mkt.unit 1 n).cfg = 0 then some (n % 7 + 1) else none)

/-- The units of resident blocks. -/
def unitsUsed (s : State) : List Nat :=
  s.blks.flatMap (fun e => if e.2.core.isSome then e.2.units ++ e.2.xunits ++ e.2.eunits else [])

/-- The free units of bank groups of a core; group 0 stands for the register file of a dark core. -/
def unitsFree (s : State) (core : Nat) (bgs : List Nat) : List (List Nat) :=
  let used := unitsUsed s
  bgs.map (fun g => ((upto (if g = 0 then 3 else 16)).map (unitNo core g)).filter (fun u => !used.contains u))

/-- Takes units in rotation over groups of free ones. -/
def rotateUnits : Nat → List (List Nat) → Nat → List Nat
  | 0, _, _ => []
  | fuel + 1, gs, k =>
    if k = 0 then [] else
    match gs with
    | [] => []
    | [] :: r => rotateUnits fuel r k
    | (u :: us) :: r => u :: rotateUnits fuel (r ++ [us]) (k - 1)

/-- Allots `k` units, starting with the group that has the most free ones (R70), the lowest-numbered of several (log 81). -/
def allotUnits (gs : List (List Nat)) (k : Nat) : Option (List Nat) :=
  if (gs.map List.length).sum < k then none
  else
    let m := gs.foldl (fun n g => max n g.length) 0
    let i := gs.findIdx (fun g => g.length = m)
    some (rotateUnits (k + gs.length) (gs.drop i ++ gs.take i) k)

/-- What a block needs of a core (R237, 10 R261, 11 R289). -/
structure Need where
  grps : Nat
  grans : Nat
  acc : Nat
  units : Nat
  xunits : Nat
  eunits : Nat
  hot : Bool

/-- Where a block can go: core, scratchpad units, shadow units, eaves units. -/
structure Place where
  core : Nat
  units : List Nat
  xunits : List Nat
  eunits : List Nat

/-- The blocks resident on a core. -/
def coreBlocks (s : State) (core : Nat) : List Nat := s.blkIds.filter (fun b => decide ((s.blk b).core = some core))

/-- The blocks resident in a cluster. -/
def clusterBlocks (s : State) (cl : Nat) : List Nat := (clusterCores cl).flatMap (coreBlocks s)

def slotsUsed (s : State) (core : Nat) : List Nat :=
  (coreBlocks s core).flatMap (fun b => ((s.blk b).groups.filter (fun e => !e.2.done)).map (fun e => e.2.slot))

/-- Whether a context may dispatch to a cluster: held, powered, and not lapsing after publication (07 R179). -/
def clusterOpen (s : State) (c cl : Nat) : Bool :=
  (s.mkt.unit 0 cl).holder == some c && (s.power.cl cl).powered &&
    (!s.mkt.published || s.mkt.grants.any (fun g => decide (g.cls = 0 ∧ g.unit = cl ∧ g.ctx = c)))

/-- Whether a class of heat may enter a cluster (R240). -/
def heatFits (s : State) (cl : Nat) (hot : Bool) : Bool :=
  (clusterBlocks s cl).all (fun b => decide ((s.blk b).heat = 2) == hot)

/-- The dark neighbour of an active core of a HOT cluster (R80). -/
def darkOf (core : Nat) : Nat := if core % 2 = 0 then core + 1 else core - 1

/-- Whether a block fits on a core, and the units it takes there (R237). -/
def fitsOn (s : State) (c : Nat) (n : Need) (core : Nat) : Option Place :=
  let bs := coreBlocks s core
  let grans := (granulesFree s core).length
  let acc := bs.foldl (fun k b => k + (s.blk b).acc) 0
  if 16 ≤ bs.length ∨ 64 < (slotsUsed s core).length + n.grps ∨ grans < n.grans ∨ 8 < acc + n.acc then none
  else match allotUnits (unitsFree s core (spadGroups s c core)) (n.units + n.xunits) with
    | none => none
    | some us =>
      let d := darkOf core
      match if n.eunits = 0 then some [] else allotUnits (unitsFree s d (0 :: spadGroups s c d)) n.eunits with
      | none => none
      | some es => some ⟨core, us.take n.units, us.drop n.units, es⟩

/-- The cores of a context's clusters that a class of heat may use (R240). -/
def coresFor (s : State) (c : Nat) (hot : Bool) : List Nat :=
  (heldUnits s c 0).flatMap (fun cl =>
    if !clusterOpen s c cl || !heatFits s cl hot then []
    else if hot then (clusterCores cl).take 1 ++ (clusterCores cl).drop 3 else clusterCores cl)

/-- The order of R241: not gated first, then the most free group slots, then the lowest number; a core that a reservation wakes is gated no
more (R243). -/
def placeBefore (s : State) (p q : Nat) : Bool :=
  let gated (n : Nat) : Nat := if (s.core n).gate = 2 then 1 else 0
  let key (n : Nat) : Nat := gated n * 2 ^ 20 + (slotsUsed s n).length * 2 ^ 10 + n
  decide (key p < key q)

/-- The core on which a block is placed (R241). -/
def findPlace (s : State) (c : Nat) (n : Need) : Option Place :=
  ((coresFor s c n.hot).filterMap (fitsOn s c n)).foldl (fun r p => match r with
    | none => some p
    | some q => if placeBefore s p.core q.core then some p else some q) none

/-! ### Gating (R243) -/

/-- A reservation on a core: a gating window is cancelled, and a gated core wakes. The flag says that the block waits for it. -/
def reserveCore (s : State) (core : Nat) : State × Bool :=
  match (s.core core).gate with
  | 0 => (s, false)
  | 1 => ((s.updCore core (fun k => { k with gate := 0 })).unpost .gatingCommit { x := core }, false)
  | 2 => ((s.updCore core (fun k => { k with gate := 3 })).post (s.gts + lcTime s core 128) core .coreWake { x := core }, true)
  | _ => (s, true)

/-- A core without a resident group starts to count its idle time. -/
def idleCore (s : State) (core : Nat) : State :=
  if (coreBlocks s core).isEmpty then
    (s.updCore core (fun k => { k with idleSince := s.gts })).post (s.gts + 10000) core .powerGatingBegin { x := core }
  else s

/-- A core begins its gating window. -/
def beginGating (s : State) (core : Nat) : State :=
  if (s.core core).gate = 0 then (s.updCore core (fun k => { k with gate := 1 })).post (s.gts + 32) core .gatingCommit { x := core } else s

/-- The dark cores of a cluster that takes the HOT mode (R240, R243). -/
def darken (s : State) (cl : Nat) : State :=
  s.foldl [(clusterCores cl).getD 1 0, (clusterCores cl).getD 2 0] (fun t n => beginGating (t.updCore n (fun k => { k with dark := true })) n)

/-- A cluster that has emptied leaves its mode (R240). -/
def clearMode (s : State) (cl : Nat) : State :=
  if (clusterBlocks s cl).isEmpty then s.foldl (clusterCores cl) (fun t n => if (t.core n).dark then t.updCore n (fun k => { k with dark := false }) else t)
  else s

/-- A block settles on a core: reservation, mode, and whether it waits for the core to wake. -/
def settleOn (s : State) (core : Nat) (hot : Bool) : State × Bool :=
  let s := if hot ∧ (clusterBlocks s (clusterOf core)).isEmpty then darken s (clusterOf core) else s
  reserveCore s core

/-! ### Dispatch (R241, R242) -/

/-- The lowest numbers below a bound that are not in use. -/
def lowestFree (bound : Nat) (used : List Nat) : List Nat := (upto bound).filter (fun n => !used.contains n)

/-- A thread at dispatch (R242). -/
def freshThread (pc : Nat) (w : Tab Word) : Thread := { pc := BitVec.ofNat 48 pc, mode := .active, w := w }

/-- A group at dispatch. -/
def freshGroup (slot gran pc priv gts : Nat) (w : Tab Word) (g : List Nat) : Group :=
  { slot := slot, gran := gran, thr := (upto 32).map (fun l => (l, freshThread pc w))
    g := (upto g.length).map (fun k => (k, BitVec.ofNat 32 (g.getD k 0))), priv := priv, age := gts }

/-- g0 to g7 of a group (R242). -/
def launchG (e : Nat) (l : Launch) (i j : Nat) : List Nat :=
  let bx := i % l.gx
  let by_ := i / l.gx % l.gy
  [i, by_ * 65536 + bx, i / (l.gx * l.gy), e, l.args % 2 ^ 32, l.args / 2 ^ 32, j, l.grps]

/-- Units for `n` bytes. -/
def unitsFor (n : Nat) : Nat := (n + 65535) / 65536

/-- Whether a block dispatched now is checked for races (11 R288). -/
def raceChecked (x : Ctx) (grps : Nat) : Bool := x.raceEn && decide (grps ≤ 15)

/-- What a block of a launch needs. -/
def launchNeed (x : Ctx) (l : Launch) : Need :=
  let k := unitsFor l.scratch
  { grps := l.grps, grans := l.grps, acc := l.acc, units := k, xunits := if raceChecked x l.grps then (k + 3) / 4 else 0
    eunits := unitsFor l.eaves, hot := decide (l.heat = 2) }

/-- A context's blocks are marked for the trace by their block slot: 16 × core + slot (R237). -/
def blockSlot (b : Block) : Nat := 16 * b.core.getD 0 + b.slot

/-- The groups of a new block take the lowest free slots and granules of the core (R238). -/
def newGroups (s : State) (core n pc priv : Nat) (w : Tab Word) (g : Nat → List Nat) : Tab Group :=
  let slots := lowestFree 64 (slotsUsed s core)
  let grans := granulesFree s core
  (upto n).map (fun j => (j, freshGroup (slots.getD j 0) (grans.getD j 0) pc priv s.gts w (g j)))

/-- Dispatches the next block of a launch to a place (R241, R242). -/
def dispatchAt (s : State) (c e : Nat) (p : Place) : State :=
  let x := s.ctx c
  let l := x.launch e
  let (b, s) := s.fresh
  let slot := (lowestFree 16 ((coreBlocks s p.core).map (fun n => (s.blk n).slot))).headD 0
  let gs := newGroups s p.core l.grps l.code l.priv [] (launchG e l l.next)
  let r := settleOn s p.core (decide (l.heat = 2))
  let k : Block :=
    { ctx := c, launch := some e, index := l.next, grps := l.grps, core := some p.core, slot := slot, waking := r.2, groups := gs
      units := p.units, xunits := p.xunits, eunits := p.eunits, acc := l.acc, tiles := (upto l.acc).map (fun z => (z, zeroTile {}))
      priv := l.priv, kid := l.kid, xreg := l.xreg, setk := l.setk, heat := l.heat, age := s.gts, checked := raceChecked x l.grps }
  let s := { r.1 with blks := tset r.1.blks b k }
  let s := s.updCtx c (fun x => if x.raceEn then { x with raceSkip := decide (15 < l.grps) } else x)
  let s := s.updLaunch c e (fun l => { l with next := l.next + 1, held := false })
  traceEvent s c 4 p.core s.gts (blockSlot k) k.index 0

/-- Dispatches one block of a launch where it fits best. -/
def dispatchOne (s : State) (c e : Nat) : Option State :=
  (findPlace s c (launchNeed (s.ctx c) ((s.ctx c).launch e))).map (dispatchAt s c e)

/-- Dispatches all blocks of a gang, or none (R239). -/
def dispatchGangN : Nat → State → Nat → Nat → Option State
  | 0, s, _, _ => some s
  | n + 1, s, c, e => match dispatchOne s c e with
    | some t => dispatchGangN n t c e
    | none => none

/-- A gang takes the lowest free bridle channel (11 R283). -/
def dispatchGang (s : State) (c e : Nat) : Option State :=
  let l := (s.ctx c).launch e
  match (upto 16).find? (fun n => (s.chan n).holder.isNone) with
  | none => none
  | some n => dispatchGangN (l.target - l.next) ({ s with chans := tset s.chans n { holder := some (c, e), gen := 0 } }.updLaunch c e
      (fun l => { l with chan := some n })) c e

/-- Dispatches from a launch. -/
def dispatchFrom (s : State) (c e : Nat) : Option State :=
  if ((s.ctx c).launch e).bco then dispatchGang s c e else dispatchOne s c e

/-- The priority of a launch's queue, as it stands at the decision (08 R195). -/
def launchPrio (x : Ctx) (l : Launch) : Nat := fld (x.queue l.queue).cfg 10 8

/-- Launches with undispatched blocks, in the order they were taken. -/
def waitingLaunches (x : Ctx) : List (Nat × Launch) := x.launches.filter (fun e => decide (e.2.next < e.2.target))

/-- The launches to try at a decision: of the highest priority, one per queue, round-robin (08 R220). -/
def launchTurn (x : Ctx) : List (Nat × Launch) :=
  let ls := waitingLaunches x
  let top := ls.foldl (fun n e => max n (launchPrio x e.2)) 0
  let ls := ls.filter (fun e => decide (launchPrio x e.2 = top))
  let qs := sortNat (ls.map (fun e => e.2.queue))
  (qs.filter (fun q => decide (x.lastQ ≤ q)) ++ qs.filter (fun q => decide (q < x.lastQ))).filterMap (fun q => ls.find? (fun e => e.2.queue = q))

/-- Launches of a lower priority are held back; NEXT of each goes to its record (08 R221, R236). -/
def holdLower (s : State) (c : Nat) : State :=
  let x := s.ctx c
  let top := (waitingLaunches x).foldl (fun n e => max n (launchPrio x e.2)) 0
  s.foldl ((waitingLaunches x).filter (fun e => decide (launchPrio x e.2 < top) && !e.2.held)) (fun t e =>
    writeNext (t.updLaunch c e.1 (fun l => { l with held := true })) c e.1)

/-! ### Message blocks (13 R324, R325) -/

/-- What a message needs of a core; a block checked for races needs its shadow units as well (11 R288, R289). -/
def msgNeed (x : Ctx) (m : QMsg) : Need :=
  let k := if 64 < m.payload.length then 1 else 0
  { grps := 1, grans := 1, acc := 0, units := k, xunits := if raceChecked x 1 then (k + 3) / 4 else 0, eunits := 0, hot := false }

/-- Spawns a message's handler block where one fits: under HOT placement on an active core (R240). -/
def spawnMsg (s : State) (c : Nat) (m : QMsg) : Option State :=
  let need := msgNeed (s.ctx c) m
  let place := match findPlace s c need with
    | some p => some (p, false)
    | none => (findPlace s c { need with hot := true }).map (fun p => (p, true))
  place.map (fun (r : Place × Bool) =>
    let p := r.1
    let (b, s) := s.fresh
    let slot := (lowestFree 16 ((coreBlocks s p.core).map (fun n => (s.blk n).slot))).headD 0
    let w : Tab Word := [(0, BitVec.ofNat 32 m.payload.length), (1, BitVec.ofNat 32 (m.sender.getD 0 0)), (2, BitVec.ofNat 32 (m.sender.getD 1 0)),
      (3, BitVec.ofNat 32 (m.sender.getD 5 0))]
    let g (_ : Nat) : List Nat := (upto 16).map (fun k => leNat ((m.payload.drop (4 * k)).take 4))
    let gs := newGroups s p.core 1 m.pc 0 w g
    let q := settleOn s p.core r.2
    let k : Block :=
      { ctx := c, grps := 1, core := some p.core, slot := slot, waking := q.2, groups := gs, units := p.units, xunits := p.xunits
        xreg := m.xreg, heat := if r.2 then 2 else 0, age := s.gts, sender := some m.sender, checked := raceChecked (s.ctx c) 1 }
    let s := { q.1 with blks := tset q.1.blks b k, sram := regionWrite q.1.sram p.units 0 (if p.units.isEmpty then [] else m.payload.drop 64) }
    let s := s.updCtx c (fun x => if x.raceEn then { x with raceSkip := false } else x)
    traceEvent s c 4 p.core s.gts (blockSlot k) 0 0)

/-- DISPATCH_DECISION (R220, R221, R241): a message first, then one block, or one gang. -/
def dispatchStep (s : State) (c : Nat) : State :=
  let x := s.ctx c
  if x.st ≠ .running ∨ x.noDispatch then s
  else match x.msgs with
    | m :: ms => (match spawnMsg s c m with
      | some t => pokeDispatch (t.updCtx c (fun x => { x with msgs := ms })) c
      | none => launches s)
    | [] => launches s
where
  launches (s : State) : State :=
    match (launchTurn (s.ctx c)).findSome? (fun e => (dispatchFrom s c e.1).map (fun t => (e.2.queue, t))) with
    | some (q, t) => pokeDispatch (t.updCtx c (fun x => { x with lastQ := q + 1 })) c
    | none => holdLower s c

/-! ### Exit (R244) -/

/-- Writes back every dirty line of a block; a line that meets a fault stays dirty and its entry is reported once (03 R76). A line that waits
for its page does not hold back the others; the first that waits is named. -/
def flushMaps (s : State) (b : Nat) : State × Option (Nat × Nat × Lack) :=
  let r := (dirtyLines (s.blk b)).foldl (fun (r : State × List Nat × Option (Nat × Nat × Lack)) l =>
    match writeBackLine r.1 b l.1 l.2 with
    | .done t => (t, r.2)
    | .wait va stage need => (r.1, r.2.1, some (r.2.2.getD (va, stage, need)))
    | .fail _ _ _ => (r.1, insertNat l.1 r.2.1, r.2.2)) (s, [], none)
  (if r.2.2.isSome then r.1
   else r.1.foldl r.2.1 (fun t m => notice t (t.blk b).ctx 3 (m + 16 * blockSlot (t.blk b)) (t.blkCore b)), r.2.2)

/-- Whether tile or engine operations of a block are left on its core (R434, 17 R416). -/
def blockBusy (s : State) (b : Nat) : Bool :=
  let k := s.core (s.blkCore b)
  k.tileQ.any (fun c => c.blk == b) || k.engQ.any (fun q => q.2.any (fun o => !isPacket o && o.blk == b)) ||
    k.entering.any (fun e => !isPacket e.2 && e.2.blk == b)

/-- A block leaves the device: its slots, granules, tiles and units are free, and its core may go idle. -/
def removeBlock (s : State) (b : Nat) : State :=
  let core := (s.blk b).core
  let s := keepContribution s b
  let s := { s with blks := tdel s.blks b, page := { s.page with waiters := s.page.waiters.filter (fun w => match w.grp with | some g => g.1 ≠ b | none => true) } }
  match core with
  | some n => clearMode (idleCore (serveXacq s n) n) (clusterOf n)
  | none => s

/-- Asks for the saved blocks of a context to resume, and for a dispatch decision (03 R79, R267). -/
def pokeContext (s : State) (c : Nat) : State :=
  if (s.ctx c).st = .running ∧ !(s.ctx c).noDispatch then
    let saved := s.blkIds.filter (fun b => decide ((s.blk b).ctx = c) && (s.blk b).core.isNone)
    pokeDispatch (s.foldl saved (fun t b => t.postOnce t.gts (rafterSrc s) .blockResume { x := b })) c
  else s

/-- What follows the end of a block: its count, its launch's bridle, and what may take its place. -/
def afterBlock (s : State) (c : Nat) (launch : Option Nat) : State :=
  match launch with
  | some e =>
    let chan := ((s.ctx c).launch e).chan
    let s := countLaunch s c e 1
    let s := match chan with | some n => pokeBridle s n | none => s
    pokeContext s c
  | none => pokeContext s c

/-- A block that has been written back leaves, and is counted (R244). -/
def endBlock (s : State) (b : Nat) : State :=
  let k := s.blk b
  let s := traceEvent s k.ctx 5 (s.blkCore b) s.gts (blockSlot k) k.index 0
  afterBlock (removeBlock s b) k.ctx k.launch

/-- BLOCK_EXIT (R244): write-backs, release, and the count. -/
def blockExit (s : State) (b : Nat) (a : Arg) : State :=
  let k := s.blk b
  if k.core.isNone || !(k.groupIds.all (fun j => (k.grp j).done)) || blockBusy s b then s
  else
    let r := flushMaps s b
    match r.2 with
    | some (va, stage, need) => waitOn r.1 k.ctx va aWB stage need (s.blkCore b) (.blockExit, a)
    | none => endBlock r.1 b

/-- The record of a message in its ring: implementation state, whose bytes are free (13 R321, log 43). -/
def feedRecord (m : QMsg) : List Byte := (upto 512).map (Config.imageByte m.no)

/-- A block whose exit has only write-backs left to wait for. -/
def exiting (s : State) (b : Nat) : Bool := (s.blk b).groupIds.all (fun j => ((s.blk b).grp j).done) && !blockBusy s b

/-- The exit of a block at the end of a handover of one of its units: write-backs that still wait have passed their deadline, and their bytes are lost
with the scratchpad, without a notice (12 R301, log 98). -/
def exitNow (s : State) (b : Nat) : State := endBlock (flushMaps s b).1 b

end Sys2Proof.Machine
end

