-- ==== Sys2Proof/Machine/Message.lean ====
section
/-!
DEFINITION. Active messages (13_link.md R321 to R328): sending, polling and ending a handler, and the arrival of messages and answers.
-/

namespace Sys2Proof.Machine

/-! ### Statuses (R323) -/

def amACCEPTED : Nat := 1
def amQUEUED : Nat := 2
def amHANDLED : Nat := 3
def amNOCTX : Nat := 4
def amNOHANDLER : Nat := 5
def amDENIED : Nat := 6
def amFULL : Nat := 7
def amBUSY : Nat := 8
def amUNREACH : Nat := 9
def amEXPIRED : Nat := 15

/-- Whether a ticket is among the 32 latest of a group (R322). -/
def ticketLive (g : Group) (n : Nat) : Bool := let d := (g.amseq + 65536 - n % 65536) % 65536; decide (1 ≤ d ∧ d ≤ 32)

/-- An answer reaches its sender (R323): one for a group that is gone, or for a ticket the ring no longer holds, is discarded. -/
def answerHere (s : State) (b j n status reply : Nat) : State :=
  let g := s.grp b j
  if !thas s.blks b || !thas (s.blk b).groups j || g.done || g.alive.isEmpty || !ticketLive g n then s
  else s.updGrp b j (fun g => { g with amst := tset g.amst (n % 32) (status + 256 * (reply % 2 ^ 32)) })

/-- Sends an answer to the sender of a message: device, context, core, block, group, ticket. -/
def sendAnswer (s : State) (sender : List Nat) (status reply : Nat) : State :=
  let at_ (k : Nat) : Nat := sender.getD k 0
  if at_ 0 = s.devNo then
    s.post (s.gts + 1) (at_ 2) .messageAnswerArrival { x := at_ 3, y := at_ 4, z := at_ 5, u := status, v := BitVec.ofNat 64 reply }
  else sendNamed s (at_ 0) (at_ 2) kSTATUS noCtx [at_ 3, at_ 4, at_ 5, status] (natLe 4 reply) (0, 0, 0)

/-! ### AMSG, AMPOLL and AMEND (R322, R327, R328) -/

/-- The operands of AMSG in one lane: destination, offset and length. -/
def amsgArgs (s : State) (f : WA) (m : Nat × Nat) : Nat × Nat × Nat :=
  ((rdX s m f.a.toNat).toNat, (rdW s m f.b.toNat).toNat, (rdW s m (f.b.toNat + 1)).toNat)

/-- The scratchpad ranges that the guarded lanes send. -/
def amsgRanges (s : State) (f : WA) : List (Nat × Nat) := (guarded s f.pr.toNat).map (fun m => (amsgArgs s f m).2)

/-- The checks of AMSG over all guarded lanes (R322): ILL, REMOTE, PROT, then what it waits for. A send counts as a store of the thread, so that
it waits for the thread's earlier accesses and reports a fault among them (04 R116, log 71). -/
def amsgCheck (s : State) (f : WA) : Check :=
  let ms := guarded s f.pr.toNat
  let k := s.blk s.cur.blk
  let ill (m : Nat × Nat) : Bool :=
    let a := amsgArgs s f m
    decide (a.1 / 2 ^ 30 ≠ 0 ∨ 256 < a.2.2 ∨ a.2.2 % 4 ≠ 0 ∨ a.2.1 % 4 ≠ 0)
  let out (m : Nat × Nat) : Bool := let a := amsgArgs s f m; decide (0 < a.2.2 ∧ padSize k < a.2.1 + a.2.2)
  let ads := ms.map (fun m => (m, tagged 1 (amsgArgs s f m).2.1, 0))
  if ms.any ill then .trap { cause := cILL }
  else if ms.any (fun m => decide (575 < (amsgArgs s f m).1 % 1024)) then .trap { cause := cREMOTE }
  else if ms.any out then .trap { cause := cPROT, addr := ads }
  else if ms.isEmpty then .pass
  else (reportCheck s f.pr.toNat Point.arrival arriving 9).andThen (
    if 64 ≤ (s.core (s.blkCore s.cur.blk)).sendQ.length then .hold 14
    else match padFill s s.cur.blk (amsgRanges s f) with
      | .wait va stage need => .page k.ctx va aFILL stage need 14
      | .fail va syn det => .trap { cause := cLFAULT, det := det, addr := ads.map (fun e => (e.1, va, syn)) }
      | .done _ => .pass)

/-- Sends the message of one lane (R322). It stands in the core's send queue until it has arrived: one to a peer until the peer has acknowledged it. -/
def sendMessage (f : WA) (m : Nat × Nat) (s : State) : State :=
  let b := s.cur.blk
  let k := s.blk b
  let core := s.blkCore b
  let a := amsgArgs s f m
  let dev := a.1 % 1024
  let ctx := bits a.1 21 10
  let hidx := bits a.1 29 22
  let n := (s.grp b m.1).amseq % 65536
  let pay := padRead s b a.2.1 a.2.2
  let key := (s.ctx k.ctx).amkey
  let s := s.updGrp b m.1 (fun g => { g with amseq := (n + 1) % 65536, amst := tset g.amst (n % 32) 0 })
  let s := wrX s m f.d.toNat (BitVec.ofNat 64 n)
  let queued (s : State) : State := s.updCore core (fun c => { c with sendQ := c.sendQ ++ [[b, m.1, n]] })
  if dev = s.devNo then
    (queued s).post (s.gts + 1) core .messageArrival
      { x := dev, y := k.ctx, z := core, u := b, l := [m.1, n, ctx, hidx], v := key.setWidth 64, data := pay }
  else if (usablePorts s dev).isEmpty then sendAnswer s [s.devNo, k.ctx, core, b, m.1, n] amUNREACH 0
  else sendNamed (queued s) dev core kMESSAGE k.ctx [k.ctx, b, m.1, n, ctx, hidx, key.toNat] pay (b, m.1, n)

/-- AMSG (R322). -/
def execAmsg (f : WA) (s : State) : Out := .next <|
  word (.amsg f) s (fun s => amsgCheck s f) (fun s =>
    let t := match padFill s s.cur.blk (amsgRanges s f) with | .done t => t | _ => s
    busy (forLanes t f.pr.toNat (fun m t => sendMessage f m t)) 2 8)

/-- The result of AMPOLL for a ticket (R327). -/
def pollResult (g : Group) (n : Nat) : Nat :=
  if ticketLive g n then
    let e := tget 0 g.amst (n % 32)
    let st := e % 256
    n % 65536 + st * 2 ^ 24 + (if st = amHANDLED then e / 256 % 2 ^ 32 * 2 ^ 32 else 0)
  else n % 65536 + amEXPIRED * 2 ^ 24

/-- AMPOLL (R327). -/
def execAmpoll (f : WA) (s : State) : Out := .next <|
  plain (.ampoll f) s (fun s =>
    busy (s.foldl (guardedGroups s f.pr.toNat) (fun t j =>
      issueValue t j f.d.toNat 8 8 (guardedIn s f.pr.toNat j)
        (fun l => pollResult (s.grp s.cur.blk j) ((rdW s (j, l) f.a.toNat).toNat % 65536)))) 2 8)

/-- The checks of AMEND: a handler group, and its implicit switch marker and store drain (R328). -/
def amendCheck (s : State) (f : WA) : Check :=
  if (s.blk s.cur.blk).sender.isNone then .trap { cause := cILL }
  else if (lowest s f.pr.toNat).isNone then .pass
  else (markerCheck s false).andThen (if draining (s.srcGrp s.cur.j) then .hold 9 else .pass)

/-- AMEND (R328): the reply, then the exit of every thread. -/
def execAmend (f : WA) (s : State) : Out := .next <|
  word (.amend f) s (fun s => amendCheck s f) (fun s =>
    match lowest s f.pr.toNat with
    | none => s
    | some m =>
      let t := sendAnswer s ((s.blk s.cur.blk).sender.getD []) amHANDLED (rdW s m f.a.toNat).toNat
      exitGroup t t.cur.blk 1 m.1 (t.grp t.cur.blk m.1).alive)

/-! ### Arrival (R321, R323 to R326) -/

/-- Records of a context's message feed (R321). -/
def feedRoom (x : Ctx) : Nat := if x.amfeed.getLsbD 4 then 2 ^ (min (x.amfeed.toNat % 16) 8 + 4) else 0

/-- Appends a message to the feed: its record takes the next place of the ring (R321, R325). -/
def appendMessage (s : State) (c : Nat) (m : QMsg) : State :=
  let x := s.ctx c
  let m := { m with va := fld x.amfeed 56 16 * 65536 + 512 * (x.amNext % feedRoom x), no := s.freeCtr }
  let s := s.tick.updCtx c (fun x => { x with msgs := x.msgs ++ [m], amNext := x.amNext + 1, amKept := x.amKept || x.msgs.isEmpty })
  ownWrite s c m.va (feedRecord m) (rafterSrc s)

/-- Spawns, queues or refuses a message whose handler is known (R324, R325). -/
def acceptMessage (s : State) (c : Nat) (m : QMsg) : State :=
  let x := s.ctx c
  let spawned := if x.st = .running ∧ x.msgs.isEmpty ∧ !x.noDispatch then spawnMsg s c m else none
  match spawned with
  | some t => sendAnswer t m.sender amACCEPTED 0
  | none =>
    if x.msgs.length < feedRoom x then
      sendAnswer (pokeDispatch (appendMessage s c m) c) m.sender amQUEUED 0
    else sendAnswer (s.updCtx c (fun x => { x with amFull := satInc x.amFull })) m.sender amFULL 0

/-- The handler that a message names: reads the entry as a load of the context. -/
def readHandler (s : State) (c hidx : Nat) : RRes :=
  vread s c (fld (s.ctx c).amht 56 11 * 2048 + 8 * (hidx % 256)) 8 aLOAD 0

/-- An entry that names a handler (R321). -/
def handlerOk (e : Nat) : Bool := e.testBit 63 && decide (bits e 61 48 = 0 ∧ e % 2 ^ 48 % 12 = 0)

/-- The number in order of arrival of a message that waits for its handler table's page: it follows the message's other operands. -/
def arrivalNo (a : Arg) : Option Nat := a.l[4]?

/-- An earlier message of the same source core to the same context that waits, or is about to be tried again (R326). -/
def messageBehind (s : State) (a : Arg) : Bool :=
  let behind (r : Arg) : Bool := r.x == a.x && r.z == a.z && r.l.getD 2 0 == a.l.getD 2 0 &&
    (match arrivalNo r, arrivalNo a with
      | some k, some n => decide (k < n)
      | some _, none => true
      | none, _ => false)
  s.page.waiters.any (fun w => match w.retry with
    | some (i, r) => decide (i = Instr.messageArrival) && behind r
    | none => false) ||
  s.agenda.any (fun e => decide (e.ev = Instr.messageArrival) && behind e.arg)

/-- A message for this device leaves the send queue of its core once it has been answered or queued. -/
def leaveSendQ (s : State) (a : Arg) : State :=
  if a.x = s.devNo then s.leaveSends a.z a.u (a.l.getD 0 0) (a.l.getD 1 0) else s

/-- The waiting message takes its number at its first wait. -/
def numbered (s : State) (a : Arg) : Arg × State :=
  match arrivalNo a with
  | some _ => (a, s)
  | none => ({ a with l := (a.l ++ List.replicate 4 0).take 4 ++ [s.nextId] }, { s with nextId := s.nextId + 1 })

/-- MESSAGE_ARRIVAL (R323 to R326). -/
def messageArrives (s : State) (a : Arg) : State :=
  let c := a.l.getD 2 0
  let x := s.ctx c
  let sender := [a.x, a.y, a.z, a.u, a.l.getD 0 0, a.l.getD 1 0]
  let refuse (st : Nat) : State := sendAnswer (leaveSendQ s a) sender st 0
  let table := fld x.amht 56 11 * 2048
  let src := if a.x = s.devNo then a.z else 1024 + a.x
  if x.st = .free ∨ x.st = .destroyed then refuse amNOCTX
  else if messageBehind s a then let r := numbered s a; r.2.post (s.gts + 1000) src .messageArrival r.1
  else if x.st = .migrating ∨ x.st = .faulted ∨ x.resetting then refuse amBUSY
  else if loWord a.v ≠ x.amkey then refuse amDENIED
  else if !x.amht.getLsbD 0 then refuse amNOHANDLER
  else match readHandler s c (a.l.getD 3 0) with
    | .wait _ stage _ need => let r := numbered s a; waitOn r.2 c table aLOAD stage need src (.messageArrival, r.1)
    | .fail _ _ => refuse amNOHANDLER
    | .done bs =>
      let e := leNat bs
      if handlerOk e then acceptMessage (leaveSendQ s a) c { sender := sender, pc := e % 2 ^ 48, xreg := e.testBit 62, payload := a.data.take 256 }
      else refuse amNOHANDLER

/-- MESSAGE_ARRIVAL. -/
def execMessageArrival (s : State) : Out :=
  if 4096 ≤ s.arg.l.getD 2 0 then .fault (.noSuchObject "context" (s.arg.l.getD 2 0)) else .next (messageArrives s s.arg)

/-- MESSAGE_ANSWER_ARRIVAL (R323). -/
def execMessageAnswerArrival (s : State) : Out := .next <|
  let a := s.arg
  answerHere s a.x a.y a.z a.u (loWord a.v).toNat

end Sys2Proof.Machine
end

