-- ==== Sys2Proof/Machine/Image.lean ====
section
/-!
DEFINITION. The context image (06_context.md R151, R160 to R162): its header, its registers, its opaque sections, and the records of saved blocks
with the 128-bit form of their map entries (03_memory.md R72), their tiles, scratch, eaves and dirty residue (R76, R78, R81).
-/

namespace Sys2Proof.Machine

/-- The saved blocks of a context, in order. -/
def savedBlocks (s : State) (c : Nat) : List Nat := s.blkIds.filter (fun b => decide ((s.blk b).ctx = c) && (s.blk b).core.isNone)

/-- The blocks of a context on cores. -/
def residentBlocks (s : State) (c : Nat) : List Nat := s.blkIds.filter (fun b => decide ((s.blk b).ctx = c) && (s.blk b).core.isSome)

/-! ### Access to the image -/

/-- The outcome of a save or restore. -/
inductive SaveRes where
  | done (s : State)
  | wait (s : State) (va acc stage : Nat) (need : Lack)
  /-- IMGFAULT. -/
  | bad (s : State)

def SaveRes.andThen (r : SaveRes) (f : State → SaveRes) : SaveRes := match r with | .done s => f s | r => r

/-- Writes bytes of the image from an offset on, page by page; a page that is not there is waited for (R151). -/
def writePart (s : State) (c off : Nat) (bs : List Byte) : SaveRes :=
  (piecesOf ((s.ctx c).imgva + off) bs.length).foldl (fun (r : SaveRes) p => r.andThen (fun t =>
    match vwrite t c p.1 ((bs.drop p.2.1).take p.2.2) aEWRITE 1 (rafterSrc t) with
    | .done u => .done u
    | .wait _ stage _ need => .wait t p.1 aEWRITE stage need
    | .fail _ _ => .bad t)) (.done s)

/-- Reads `n` bytes of the image from an offset on and goes on with them (R151); the reads are the context's (07 R189). -/
def readPart (s : State) (c off n : Nat) (f : List Byte → State → SaveRes) : SaveRes :=
  let r := (piecesOf ((s.ctx c).imgva + off) n).foldl (fun (r : List Byte × State × Option SaveRes) p =>
    match r.2.2, vread s c p.1 p.2.2 aEREAD 1 with
    | some _, _ => r
    | none, .done bs => (r.1 ++ bs, touchRead r.2.1 c p.1 p.2.2 aEREAD 1, none)
    | none, .wait _ stage _ need => (r.1, r.2.1, some (.wait s p.1 aEREAD stage need))
    | none, .fail _ _ => (r.1, r.2.1, some (.bad s))) ([], s, none)
  r.2.2.getD (f r.1 r.2.1)

/-- Bytes with their CRC-32C after them (R160, R162). -/
def withCrc (bs : List Byte) : List Byte := bs ++ natLe 4 (crc32c bs)

/-- Whether the last four bytes are the CRC-32C of those before. -/
def crcGood (bs : List Byte) : Bool := decide (leNat (bs.drop (bs.length - 4)) = crc32c (bs.take (bs.length - 4)))

/-- Opaque bytes, which are free (R160, R162; log 43). -/
def opaqueBytes (k n : Nat) : List Byte := (upto n).map (Config.imageByte k)

/-! ### Block records (R162) -/

/-- The 128-bit form of a map entry (03 R72). -/
def mapForm (m : MapEntry) : List Byte := natLe 16 (b2n m.v + b2n m.ro * 2 + m.sline * 2 ^ 16 + m.nlm1 * 2 ^ 32 + m.vline * 2 ^ 64)

/-- The groups of a block that its record holds. -/
def recordGroups (k : Block) : Nat := (k.groups.filter (fun e => !e.2.done)).length

/-- The lines that a fault of their write-back has left dirty: line of the scratchpad and mask (03 R76). -/
def residue (k : Block) : List (Nat × Nat) :=
  k.maps.flatMap (fun e => if e.2.v then (e.2.dirty.filter (fun d => d.2 ≠ 0)).map (fun d => (e.2.sline + d.1, d.2)) else [])

/-- The sizes of a record's opaque parts, its tiles, its scratch and eaves, and the whole with its CRC. -/
def recordHead (k : Block) : Nat := 256 + Config.blockStateSize + 16384 * recordGroups k
def recordTiles (k : Block) : Nat := k.acc * 34824
def recordScratch (k : Block) : Nat := 65536 * (k.units.length + k.eunits.length)
def recordLength (k : Block) : Nat := recordHead k + recordTiles k + recordScratch k + 144 * (residue k).length + 4

/-- 64 KiB places that a record takes (R160). -/
def recordUnits (k : Block) : Nat := (recordLength k + 65535) / 65536

/-- The place of eaves bytes among the saved ones. -/
def eavesBase : Nat := 2 ^ 40

/-- A tile as a record holds it: 1024 elements in redundant form and the interrupted step (R62, R162). -/
def tileRecord (t : Tile) : List Byte := (upto 1024).flatMap (fun i => redundantImage (tget {} t.el i)) ++ natLe 8 t.stepNo

/-- The record of a saved block, with the free bytes of its opaque parts. -/
def recordBytes (k : Block) : List Byte :=
  let pad := (upto (65536 * k.units.length)).map (fun o => tget memDefault k.saved o)
  let eaves := (upto (65536 * k.eunits.length)).map (fun o => tget memDefault k.saved (eavesBase + o))
  let left := (residue k).flatMap (fun l => (upto 128).map (fun o => tget memDefault k.saved (l.1 * 128 + o)) ++ natLe 16 l.2)
  withCrc ((upto 16).flatMap (fun e => mapForm (k.map e)) ++ opaqueBytes k.recNo (recordHead k - 256) ++
    (upto k.acc).flatMap (fun z => tileRecord (tget {} k.tiles z)) ++ pad ++ eaves ++ left)

/-- An element as a record holds it: its S, e and CLASS exactly (02 R61, R162). -/
def recordElem (bs : List Byte) : Elem :=
  let v := leNat bs
  { cls := clsOf (bits v 271 270), e := sextNat (bits v 267 256) 12, sum := BitVec.ofNat 128 (bits v 127 0), carry := BitVec.ofNat 128 (bits v 255 128) }

/-- A tile from its part of a record. -/
def recordTile (t : Tile) (bs : List Byte) : Tile :=
  { t with el := (upto 1024).map (fun i => (i, recordElem ((bs.drop (34 * i)).take 34))), stepNo := leNat ((bs.drop 34816).take 8) }

/-- The bytes of a list that empty memory does not hold, by place from a base on. -/
def listed (base : Nat) (bs : List Byte) : Tab Byte :=
  ((upto bs.length).zip bs).filterMap (fun e => if e.2 = memDefault then none else some (base + e.1, e.2))

/-- A saved block takes its tiles, scratch and eaves from its record (R162, 03 R78, R81). -/
def fromRecord (k : Block) (bs : List Byte) : Block :=
  let tiles := bs.drop (recordHead k)
  let scratch := tiles.drop (recordTiles k)
  let n := 65536 * k.units.length
  { k with
    tiles := tmap (fun z t => recordTile t ((tiles.drop (34824 * z)).take 34824)) k.tiles
    saved := listed 0 (scratch.take n) ++ listed eavesBase ((scratch.drop n).take (65536 * k.eunits.length)) }

/-- The places that records of a context take: first 64 KiB unit and units. -/
def recordsPlaced (s : State) (c : Nat) : List (Nat × Nat) :=
  (savedBlocks s c).filterMap (fun b => (s.blk b).recAt.map (fun p => (p, recordUnits (s.blk b))))

/-- The first place that takes `n` units beside the records placed (log 43). -/
def recordPlace (used : List (Nat × Nat)) (n : Nat) : Nat :=
  (sortNat ((0 :: used.map (fun r => r.1 + r.2)).filter (fun p => used.all (fun r => decide (p + n ≤ r.1 ∨ r.1 + r.2 ≤ p))))).headD 0

/-- Where a record begins in the image (R160). -/
def recordOff (p : Nat) : Nat := 0x10_0000 + 65536 * p

/-- Writes the record of a saved block that has none yet. -/
def writeRecord (s : State) (c b : Nat) : SaveRes :=
  let k := s.blk b
  let p := recordPlace (recordsPlaced s c) (recordUnits k)
  if k.recAt.isSome then .done s
  else if (s.ctx c).imgsz * 65536 < recordOff p + 65536 * recordUnits k then .bad s
  else (writePart s c (recordOff p) (recordBytes k)).andThen (fun t =>
    .done (t.updBlk b (fun k => { k with recAt := some p, saved := [] })))

/-- Reads the record of a saved block, and checks its CRC (R151). -/
def readRecord (s : State) (c b : Nat) : SaveRes :=
  let k := s.blk b
  match k.recAt with
  | none => .done s
  | some p => readPart s c (recordOff p) (recordLength k) (fun bs s =>
    if crcGood bs then .done (s.updBlk b (fun k => fromRecord k bs)) else .bad s)

/-! ### The header, the registers and the opaque sections (R160, R161) -/

/-- Bytes 0x40 to 0x3FFF: the registers, the bids and the decode tables (R160, 07 R173). -/
def imageRegs (x : Ctx) : List Byte :=
  let regs := natLe 8 x.tvec.toNat ++ natLe 8 x.nbase.toNat ++ natLe 8 (nptrOf x) ++ natLe 8 x.nmask.toNat
  let bids := (upto 5).flatMap (fun k => natLe 8 (x.bid k).lo.toNat ++ natLe 8 (x.bid k).wgts)
  let table (k : Nat) : List Byte := (upto 1024).flatMap (fun n => natLe 2 (tget 0 (tget [] x.slots (k + 1)) n))
  regs ++ bids ++ List.replicate 0x1F50 0 ++ (upto 4).flatMap table

/-- The code of a state (R147). -/
def CtxState.code : CtxState → Nat
  | .free => 0 | .created => 1 | .runnable => 2 | .running => 3 | .suspended => 4 | .migrating => 5 | .faulted => 6 | .destroyed => 7

/-- The header (R161); `saved` is SAVEGTS. -/
def imageHeader (s : State) (c : Nat) (regs : List Byte) (saved : Nat) : List Byte :=
  let x := s.ctx c
  let bs := savedBlocks s c
  let ngrp := bs.foldl (fun n b => n + recordGroups (s.blk b)) 0
  let nacc := bs.foldl (fun n b => n + (s.blk b).acc) 0
  natLe 64 (1 + x.st.code * 2 ^ 16 + c % 4096 * 2 ^ 20 + x.vf % 64 * 2 ^ 32 + s.devNo % 1024 * 2 ^ 38 + saved % 2 ^ 64 * 2 ^ 64 +
    x.ctxen % 2 ^ 64 * 2 ^ 128 + bs.length % 65536 * 2 ^ 192 + ngrp % 65536 * 2 ^ 208 + nacc % 65536 * 2 ^ 224 + crc32c regs * 2 ^ 256)

/-- Writes the registers and the header. A header that waits for the answer of a peer home stands with its SAVEGTS (R161). -/
def writeHeader (s : State) (c saved : Nat) : SaveRes :=
  let regs := imageRegs (s.ctx c)
  let saved := (s.ctx c).imgGts.getD saved
  (writePart s c 64 regs).andThen (fun t => match writePart t c 0 (imageHeader t c regs saved) with
    | .wait u va acc stage (.store home pa bs) => .wait (u.updCtx c (fun x => { x with imgGts := some saved })) va acc stage (.store home pa bs)
    | r => r)

/-- The opaque sections: engine queue state and profiling sessions, by offset and size (R160). -/
def imageSections : List (Nat × Nat) := [(0x4000, 0xC000), (0x1_0000, 0x1_0000)]

/-- The free bytes of the opaque sections are those of the save, however often its writes are tried. -/
def imageNo (s : State) (c : Nat) : Nat × State :=
  match (s.ctx c).imgNo with
  | some n => (n, s)
  | none => (s.freeCtr, { s with freeCtr := s.freeCtr + 2 }.updCtx c (fun x => { x with imgNo := some s.freeCtr, imgOk := false }))

/-- Writes NEXT of every active launch (09 R236) and the whole image (R153, R160). -/
def writeImage (s : State) (c : Nat) : SaveRes :=
  let s := s.foldl (s.ctx c).launches (fun t e => writeNext t c e.1)
  let (n, s) := imageNo s c
  let r := (savedBlocks s c).foldl (fun (r : SaveRes) b => r.andThen (fun t => writeRecord t c b)) (.done s)
  let r := (imageSections.zip [n, n + 1]).foldl (fun (r : SaveRes) p =>
    r.andThen (fun t => writePart t c p.1.1 (withCrc (opaqueBytes p.2 (p.1.2 - 4))))) r
  (r.andThen (fun t => writeHeader t c t.gts)).andThen (fun t => .done (t.updCtx c (fun x => { x with imgOk := true, imgNo := none, imgGts := none })))

/-- Reads the image before a restore: version, registers and opaque sections (R151, R160). -/
def readImage_ (s : State) (c : Nat) : SaveRes :=
  readPart s c 0 0x4000 (fun bs s =>
    if recBits (bs.take 64) 15 0 ≠ 1 ∨ recBits (bs.take 64) 287 256 ≠ crc32c (bs.drop 64) then .bad s
    else imageSections.foldl (fun (r : SaveRes) p => r.andThen (fun t =>
      readPart t c p.1 p.2 (fun bs t => if crcGood bs then .done t else .bad t))) (.done s))

/-- The records of the messages in the feed, while its ring has stood enabled all along: one that has changed is an image fault (13 R321, R151). -/
def feedIntact (s : State) (c : Nat) : SaveRes :=
  let x := s.ctx c
  if !(x.amKept && x.amfeed.getLsbD 4) then .done s
  else x.msgs.foldl (fun (r : SaveRes) m => r.andThen (fun t =>
    match slotRead t c m.va 512 with
    | .done bs u => if overOwn u c m.va bs = feedRecord m then .done u else .bad u
    | .wait va stage need => .wait t va aLOAD stage need
    | .fail => .bad t)) (.done s)

/-- Event 12: the context is FAULTED and held, by a save or by the restore of blocks (R152). -/
def imageFault (s : State) (c : Nat) (save : Bool) (bs : List Nat) : State :=
  s.updCtx c (fun x => { x with st := .faulted, held := true, heldSave := save, heldBlks := bs, saving := false, saveAt := none, imgNo := none, imgGts := none, noDispatch := true })

/-- The records of the blocks that resume are read (R151). -/
def readRecords (r : SaveRes) (c : Nat) (bs : List Nat) : SaveRes := bs.foldl (fun (r : SaveRes) b => r.andThen (fun t => readRecord t c b)) r

/-- What a restore of blocks reads: the image, where a save has completed, and their records. -/
def readBack (s : State) (c : Nat) (bs : List Nat) : SaveRes :=
  readRecords (if (s.ctx c).imgOk then (readImage_ s c).andThen (fun t => feedIntact t c) else .done s) c bs

end Sys2Proof.Machine
end

