-- ==== Sys2Proof/Machine/Save.lean ====
section
/-!
DEFINITION. Pre-emption and resumption (10_group.md R266, R267; 04_ordering.md R106; 06_context.md R151, R153; 03_memory.md R75, R78), and the end of blocks by cancel, reset and destruction (09_kernel.md R246; 06_context.md R154).
-/

namespace Sys2Proof.Machine

/-! ### Stopping a block (R266) -/

/-- Whether an operation of a core belongs to a block. -/
def opOf (b : Nat) (o : EngOp) : Bool := !isPacket o && o.blk == b

/-- Operations that have not begun leave the queues, in order, for the image (R153 step 3). -/
def pullEngine (s : State) (b : Nat) : State :=
  let core := s.blkCore b
  let mine (o : EngOp) : Bool := opOf b o && !o.begun
  let qs := (upto 7).flatMap (fun q => ((s.engQ core q).filter mine).map (fun o => (q, o)))
  let es := (s.core core).entering.filter (fun e => opOf b e.2)
  let s := s.updBlk b (fun k => { k with engSaved := k.engSaved ++ qs ++ es })
  let s := s.foldl (upto 7) (fun t q => setEngQ t core q (fun l => l.filter (fun o => !mine o)))
  let s := s.updCore core (fun k => { k with entering := k.entering.filter (fun e => !opOf b e.2) })
  s.foldl (upto 7) (fun t q => pokeEngine (fillEngine t core q) core q)

/-- Whether the head of a tile queue stays at a pre-emption until it has come to its next boundary or its end (17 R404): a command that has begun,
but for a TMMA that waits at a boundary. -/
def headStays (s : State) (core : Nat) (c : TileCmd) : Bool :=
  c.begun && (!isTmma c.op || s.posted (turnOf c.op) { x := core })

/-- Tile commands leave the queue, the one whose chain is open with its step in the tile (R266 step 3); with `all` also the head that R404 lets come
to its boundary. -/
def pullTile (s : State) (b : Nat) (all : Bool) : State :=
  let core := s.blkCore b
  match (s.core core).tileQ with
  | [] => s
  | h :: q =>
    let stays := h.blk ≠ b ∨ (!all ∧ headStays s core h)
    let out := (if stays then q else h :: q).filter (fun c => c.blk == b)
    let left := (if stays then [h] else []) ++ q.filter (fun c => c.blk ≠ b)
    let s := if stays then s else leaveTurn s core h
    let s := s.updBlk b (fun k => { k with tileSaved := k.tileSaved ++ out })
    let s := s.updCore core (fun k => { k with tileQ := left })
    if stays then s else pokeTile s core

/-- The scheduler stops choosing a block's groups, and what has not begun is set aside (R266). -/
def stopBlock (s : State) (b : Nat) : State :=
  if (s.blk b).stopped || (s.blk b).core.isNone then s
  else
    let s := s.updBlk b (fun k =>
      { k with stopped := true, groups := tmap (fun _ g => { g with lapse := [], rep := none, inRep := none }) k.groups })
    let s := { s with page := { s.page with waiters := s.page.waiters.filter (fun w => match w.grp with | some g => g.1 ≠ b | none => true) } }
    pullTile (pullEngine s b) b false

/-- Performs the entries of a group's store queue that can be performed, and the loads that stand between them. -/
def drainQueue : Nat → State → Nat → Nat → State
  | 0, s, _, _ => s
  | fuel + 1, s, b, j =>
    let s := settle s b j
    let n := (s.grp b j).sq.length
    let s := performHead s b j
    if (s.grp b j).sq.length < n then drainQueue fuel s b j else s

/-- Whether a group's store queue holds an entry that is not faulted, stands behind no faulted access and is not performed yet (R106); a
release atomic whose engine operations are saved with the block is saved with them (log 76). -/
def queueWaits (s : State) (b j : Nat) : Bool :=
  let g := s.grp b j
  match g.runnable with
  | e :: _ => !releaseWaits g e
  | [] => false

/-- Results whose values are known are written. -/
def landResults (s : State) (b j : Nat) : State :=
  s.foldl (s.grp b j).pend (fun t p =>
    t.foldl p.accs (fun t a => if a.cap && decide (a.st ≠ 1 ∧ a.st ≠ 2 ∧ a.st ≠ 3) then returnLane t b j p.id a.lane else t))

/-- Lines that a write-back left clean become INVALID (03 R75). -/
def dropClean (k : Block) : Block :=
  { k with maps := tmap (fun _ m => { m with valid := m.valid.filter (fun i => decide (tget 0 m.dirty i ≠ 0)), inval := [] }) k.maps }

/-- The bytes of a region that are not what empty memory holds, by offset. -/
def spill (m : List Host.Cell) (units : List Nat) (base : Nat) : List (Nat × Byte) :=
  let k := units.length
  m.filterMap (fun c =>
    let u := c.1 / 65536
    if units.contains u then
      let o := c.1 % 65536
      some (base + (o / 128 * k + units.idxOf u) * 128 + o % 128, c.2)
    else none)

/-- An operation that has begun leaves its queue with its remainder (07 R180). -/
def pullBegun (s : State) (b : Nat) : State :=
  let core := s.blkCore b
  let s := s.foldl (upto 7) (fun t q => setEngQ t core q (fun l => l.map (fun o => if opOf b o then { o with begun := false } else o)))
  pullEngine s b

/-- A block whose work is through leaves its core for the image (R266). -/
def saveBlock (s : State) (b : Nat) : State :=
  let k := s.blk b
  let core := s.blkCore b
  let s := traceEvent s k.ctx 6 core s.gts (blockSlot k) k.index 0
  let s := s.updCore core (fun c => { c with xacqQ := c.xacqQ.filter (fun p => p.1 ≠ b) })
  let saved := spill s.sram k.units 0 ++ spill s.sram k.eunits eavesBase
  let s := s.tick.updBlk b (fun k => { dropClean k with core := none, saved := saved, recAt := none, recNo := s.freeCtr, waking := false })
  clearMode (idleCore (serveXacq s core) core) (clusterOf core)

/-- Tries to complete the pre-emption of a block: the flag says that it is saved (R266, R153). `force` is the end of a handover, at which
what still waits is saved as it stands (07 R181, log 77). With `late` a write-back that waits has passed its deadline: its line stays dirty and is
saved as residue (12 R301, log 98). -/
def trySave (s : State) (b : Nat) (force late : Bool) : State × Bool :=
  let s := stopBlock s b
  let k := s.blk b
  if k.core.isNone then (s, true)
  else
    let core := s.blkCore b
    let s := if force then pullTile (pullBegun s b) b true else s
    let s := s.foldl k.groupIds (fun t j => landResults (drainQueue 17 t b j) b j)
    let begun := (upto 7).any (fun q => (s.engQ core q).any (opOf b)) || (s.core core).tileQ.any (fun c => c.blk == b)
    if !thas s.blks b then (s, true)
    else if !force && (begun || k.groupIds.any (queueWaits s b)) then (s, false)
    else
      let r := flushMaps s b
      match r.2 with
      | some (va, stage, need) =>
        if force || late then (saveBlock r.1 b, true)
        else (waitOn r.1 k.ctx va aWB stage need core (.blockResume, { x := b, y := 1 }), false)
      | none => (saveBlock r.1 b, true)

/-! ### COPY packets at a lapse or save (08 R229) -/

/-- COPY packets of a context leave a core's queue cq3. -/
def pullPackets (s : State) (c core : Nat) (begun : Bool) : State :=
  let mine (o : EngOp) : Bool := (match o.kind with | .packet d _ _ => decide (d = c) | _ => false) && (begun || !o.begun)
  let os := (s.engQ core 3).filter mine ++ ((s.core core).entering.filter (fun e => mine e.2)).map Prod.snd
  if os.isEmpty then s
  else
    let s := setEngQ s core 3 (fun l => l.filter (fun o => !mine o))
    let s := s.updCore core (fun k => { k with entering := k.entering.filter (fun e => !mine e.2) })
    let s := s.updCtx c (fun x => { x with packets := x.packets ++ os.map (fun o => { o with begun := false }) })
    pokeEngine (fillEngine s core 3) core 3

/-! ### Resumption (R267) -/

/-- What a saved block needs: GRPS granules and one more for each extended one (R261). -/
def savedNeed (k : Block) : Need :=
  let gs := k.groups.filter (fun e => !e.2.done)
  { grps := gs.length, grans := k.grps + (gs.filter (fun e => e.2.xgran.isSome)).length, acc := k.acc, units := k.units.length
    xunits := k.xunits.length, eunits := k.eunits.length, hot := decide (k.heat = 2) }

/-- Groups take new slots and granules (R238, R261). -/
def seatGroups (gs : Tab Group) (slots grans : List Nat) : Tab Group :=
  match gs with
  | [] => []
  | (j, g) :: r =>
    if g.done then (j, g) :: seatGroups r slots grans
    else
      let x := g.xgran.isSome
      (j, { g with slot := slots.headD 0, gran := grans.headD 0, xgran := if x then some (grans.getD 1 0) else none }) ::
        seatGroups r (slots.drop 1) (grans.drop (if x then 2 else 1))

/-- Loads that are not final are issued again, and a group's waits and pending events go on (R106, R267). -/
def wakeGroup (s : State) (b j : Nat) : State :=
  let g := s.grp b j
  if g.done then s
  else
    let core := s.blkCore b
    let s := s.updGrp b j (fun g => { g with pend := g.pend.map (fun p =>
      if p.kind = .load then { p with accs := p.accs.map (fun a => if a.cap ∨ a.st = 1 ∨ a.st = 2 then a else { a with st := 0 }) } else p) })
    let s := s.foldl (g.pend.filter (fun p => p.kind = .load)) (fun t p =>
      t.foldl (p.accs.filter (fun a => !a.cap && decide (a.st ≠ 2))) (fun t a =>
        (t.tick).post (t.gts + latency a.sp + Config.extraLatency t.freeCtr) core .loadResultReturn { x := b, y := j, z := p.id, u := a.lane }))
    let s := match g.wait with
      | .sleep wake => s.post (max wake s.gts) core .sleepWake { x := b, y := j }
      | .promise wake _ _ _ => s.post (max wake s.gts) core .promiseWake { x := b, y := j }
      | .xacq => s.updCore core (fun k => { k with xacqQ := k.xacqQ ++ [(b, j)] })
      | _ => s
    let s := if g.trap.isSome then s.post s.gts core .trapEntry { x := b, y := j } else s
    settle (pokeQueue s b j) b j

/-- Engine operations and tile commands return to the queues of the new core, in order. -/
def requeue (s : State) (b : Nat) : State :=
  let k := s.blk b
  let core := s.blkCore b
  let s := s.updBlk b (fun k => { k with engSaved := [], tileSaved := [] })
  let s := s.foldl k.engSaved (fun t e =>
    if e.2.prom = 0 ∧ ofThread e.2 then t.updCore core (fun c => { c with entering := c.entering ++ [e] })
    else setEngQ t core e.1 (fun l => l ++ [e.2]))
  let s := s.foldl (upto 7) (fun t q => pokeEngine (fillEngine t core q) core q)
  let empty := (s.core core).tileQ.isEmpty
  let s := s.updCore core (fun c => { c with tileQ := c.tileQ ++ k.tileSaved })
  if empty then pokeTile s core else s

/-- A saved block resumes at a place (R267, 03 R78). -/
def resumeAt (s : State) (b : Nat) (p : Place) : State :=
  let k := s.blk b
  let slot := (lowestFree 16 ((coreBlocks s p.core).map (fun n => (s.blk n).slot))).headD 0
  let slots := lowestFree 64 (slotsUsed s p.core)
  let grans := granulesFree s p.core
  let r := settleOn s p.core (decide (k.heat = 2))
  let sram := k.saved.foldl (fun m e =>
    memSet m (if eavesBase ≤ e.1 then sramKey p.eunits (e.1 - eavesBase) else sramKey p.units e.1) e.2)
    (r.1.sram.filter (fun c => !(p.units ++ p.eunits).contains (c.1 / 65536)))
  let s := { r.1 with sram := sram }
  let s := s.updBlk b (fun k =>
    { k with core := some p.core, slot := slot, waking := r.2, units := p.units, xunits := p.xunits, eunits := p.eunits, saved := []
             recAt := none, stopped := false, shadow := [], groups := seatGroups k.groups slots grans })
  let s := requeue s b
  let s := s.foldl (s.blk b).groupIds (fun t j => wakeGroup t b j)
  let s := exitCheck (serveXacq s p.core) b
  let s := match channelOf s b with | some n => pokeBridle s n | none => s
  pokeExit (traceEvent s k.ctx 7 p.core s.gts (blockSlot (s.blk b)) k.index 0) b

/-- The blocks that resume with a block: its gang, or itself (R239). -/
def resumeWith (s : State) (b : Nat) : List Nat :=
  let k := s.blk b
  match k.launch with
  | some e => if ((s.ctx k.ctx).launch e).bco then (savedBlocks s k.ctx).filter (fun n => decide ((s.blk n).launch = some e)) else [b]
  | none => [b]

/-- A gang that has migrated takes the lowest free bridle channel with the state its own had; without a free one it does not fit (11 R283). -/
def seatChannel (s : State) (b : Nat) : Option State :=
  let c := (s.blk b).ctx
  match (s.blk b).launch with
  | none => some s
  | some e => match ((s.ctx c).launch e).chanSaved with
    | none => some s
    | some ch => match (upto 16).find? (fun n => (s.chan n).holder.isNone) with
      | none => none
      | some n => some ({ s with chans := tset s.chans n { ch with holder := some (c, e) } }.updLaunch c e (fun l => { l with chan := some n, chanSaved := none }))

/-- Resumes blocks one after the other, all or none. -/
def resumeAll : List Nat → State → Option State
  | [], s => some s
  | b :: bs, s => match findPlace s (s.blk b).ctx (savedNeed (s.blk b)) with
    | some p => resumeAll bs (resumeAt s b p)
    | none => none

/-- BLOCK_RESUME (R267): the block resumes with its gang where all fit, from what the image holds. -/
def blockResume (s : State) (b : Nat) (a : Arg) : State :=
  let k := s.blk b
  let x := s.ctx k.ctx
  if k.core.isSome || !thas s.blks b || x.st ≠ .running || x.noDispatch || x.imgDue then s
  else
    let bs := resumeWith s b
    let seat (s : State) : Option State := (seatChannel s b).bind (resumeAll bs)
    if (seat s).isNone then s
    else match readBack s k.ctx bs with
      | .wait t va acc stage need => waitOn t k.ctx va acc stage need (rafterSrc s) (.blockResume, a)
      | .bad t => imageFault t k.ctx false bs
      | .done t => (seat t).getD s

/-- Whether a block stands on a lapsing cluster or holds a unit of a lapsing bank group. -/
def blockAffected (k : Block) (clus banks : List Nat) : Bool :=
  match k.core with
  | none => false
  | some core =>
    clus.contains (clusterOf core) ||
    (k.units ++ k.xunits ++ k.eunits).any (fun u =>
      let n := u / 128
      (if u / 16 % 8 = 0 then clus.contains (clusterOf n) else banks.contains (7 * n + u / 16 % 8 - 1)))

/-- The blocks of an abandoned save that stay on their cores go on there: those on no unit in handover (06 R152 event 9). -/
def goOnBlocks (s : State) (c : Nat) : State :=
  let off (cls : Nat) : List Nat := (s.mkt.units.filter (fun e => decide (e.1 / 4096 = cls) && e.2.handover)).map (fun e => e.1 % 4096)
  s.foldl ((residentBlocks s c).filter (fun b => (s.blk b).stopped && !blockAffected (s.blk b) (off 0) (off 1))) (fun t b =>
    requeue (t.updBlk b (fun k => { k with stopped := false })) b)

/-! ### Ends by cancel, reset and destruction -/

/-- Every group of a block is terminated (04 R104). -/
def terminateBlock (s : State) (b : Nat) : State := s.foldl (s.blk b).groupIds (fun t j => terminateGroup t b j)

/-- A saved block ends without resuming: its saved work and residue go with it (R246). -/
def dropSaved (s : State) (b : Nat) (count : Bool) : State :=
  let k := s.blk b
  let s := keepContribution s b
  let s := { s with blks := tdel s.blks b }
  let s := s.updCtx k.ctx (fun x => { x with stops := x.stops.filter (fun p => p.blk ≠ b) })
  if count then afterBlock s k.ctx k.launch else s

/-- The queued tile commands of a block are discarded, and an open TMMA stops at its boundary, at once where it waits at one (17 R416). -/
def discardTiles (s : State) (b : Nat) : State :=
  let core := s.blkCore b
  let s := s.foldl (((s.core core).tileQ.filter (fun c => c.blk == b && !c.begun))) (fun t c => discardTile t core c)
  match (s.core core).tileQ with
  | h :: q =>
    if h.blk ≠ b ∨ !isTmma h.op then s
    else if headStays s core h then s.updCore core (fun k => { k with tileQ := { h with stop := true } :: q })
    else finishTile s core h
  | [] => s

/-- A block is marked for termination (R245, R246, R251): what has not begun is discarded, and a waiting group takes CANCEL at once. -/
def markBlock (s : State) (b : Nat) : State :=
  let s := s.updBlk b (fun k => { k with marked := true })
  if (s.blk b).core.isNone then dropSaved s b true
  else
    let s := discardTiles (discardEngine s b) b
    s.foldl (s.blk b).groupIds (fun t j => if (t.grp b j).done then t else cancelAtOnce t b j)

/-- Ends a block of a reset or destroyed context at once: nothing is written back or counted (R154, 08 R227). -/
def killBlock (s : State) (b : Nat) : State :=
  if (s.blk b).core.isNone then dropSaved s b false
  else
    let core := s.blkCore b
    let s := terminateBlock s b
    let tile := match (s.core core).tileQ with | c :: _ => c.blk == b | [] => false
    let s := if tile then match (s.core core).tileQ with | c :: _ => s.unpost (turnOf c.op) { x := core } | [] => s else s
    let s := s.updCore core (fun k =>
      { k with tileQ := k.tileQ.filter (fun c => c.blk ≠ b), engQ := tmap (fun _ q => q.filter (fun o => !opOf b o)) k.engQ
               entering := k.entering.filter (fun e => !opOf b e.2) })
    let s := s.foldl (upto 7) (fun t q => pokeEngine (fillEngine t core q) core q)
    let s := if tile then pokeTile s core else s
    removeBlock s b

end Sys2Proof.Machine
end

