-- ==== Sys2Proof/Machine/Kernel.lean ====
section
/-!
DEFINITION. Cancel (09_kernel.md R245, R247), and the events of dispatch, gating, exit and resumption (R241 to R244, 10_group.md R267).
-/

namespace Sys2Proof.Machine

/-! ### Cancel (R245, R247) -/

/-- The upper entries above an entry, lowest first, as Gyold's own copies name them. -/
def ancestors (x : Ctx) : Nat → Nat → List Nat
  | 0, _ => []
  | fuel + 1, n => match tfind x.nodes n with
    | some nd => n :: ancestors x fuel nd.parent
    | none => []

/-- The entries of an active launch: its own, and those on its PARENT chain. -/
def launchChain (x : Ctx) (e : Nat) : List Nat := ancestors x 4 (x.launch e).parent

/-- The entry that a launch's block names by 0xFFFF at a level. -/
def ownNode (x : Ctx) (launch : Option Nat) (lv : Nat) : Option Nat :=
  match launch with
  | none => none
  | some e => if lv = 0 then some e else (launchChain x e).find? (fun n => (x.node n).level = lv)

/-- CNC and H of an entry (R245). -/
def setCancel (s : State) (c n lv : Nat) (h : Bool) : State :=
  if lv = 0 then
    if !thas (s.ctx c).launches n then wrPut s c n 24 1 (wrFlags 1 h true 0) else
    let s := s.updLaunch c n (fun l => { l with cnc := true, hard := l.hard || h })
    wrPut s c n 24 1 (wrFlags 1 ((s.ctx c).launch n).hard true 0)
  else
    let s := s.updNode c n (fun d => { d with cnc := true, hard := d.hard || h })
    wrPut s c n 24 1 (wrFlags 1 ((s.ctx c).node n).hard true lv)

/-- One launch under a cancelled node: its undispatched blocks are dropped, its feeds close, and `.H` marks its blocks (R245, 08 R229). -/
def cancelLaunch (s : State) (c e : Nat) (h : Bool) : State :=
  let l := (s.ctx c).launch e
  let d := l.target - l.next
  let bs := s.blkIds.filter (fun b => decide ((s.blk b).ctx = c ∧ (s.blk b).launch = some e))
  let s := s.updLaunch c e (fun l => { l with next := l.target, dropped := l.dropped + d })
  let s := pokeDispatch (countLaunch (pokeBlocked (closeFeeds s c e) c 3) c e d) c
  if h then s.foldl bs markBlock else s

/-- What kcanc gives: its status, or a wait for the page of the entry. -/
inductive CancelRes where
  | done (s : State) (status : Nat)
  | wait (va stage : Nat) (need : Lack)

/-- CNC and H of an entry that is ACTIVE in the table, Gyold's copy of which is taken from there; no active launch stands under such a launch
entry (R245). -/
def adoptEntry (s : State) (c n lv : Nat) (e : List Byte) : State :=
  if thas (s.ctx c).launches n ∨ lv = 0 ∨ decide (((tfind (s.ctx c).nodes n).map Node.st) = some 1) then s
  else s.updNode c n (fun _ => nodeOf lv (recBits e 239 224) e)

/-- kcanc of R245. -/
def kcanc (s : State) (c : Nat) (launch : Option Nat) (n lv : Nat) (h : Bool) : CancelRes :=
  let x := s.ctx c
  match if n = 0xFFFF then ownNode x launch lv else some n with
  | none => .done s 1
  | some n =>
    if wrSize x ≤ n then .done s 1
    else match readEntry s c n with
      | .wait va stage need => .wait va stage need
      | .fail => .done s 1
      | .done e s =>
        if recBits e 193 192 ≠ 1 then .done s 1
        else if recBits e 199 198 ≠ lv then .done s 2
        else
          let s := adoptEntry s c n lv e
          let x := s.ctx c
          let under := (x.launches.filter (fun e => decide (e.1 = n) && decide (lv = 0) || (launchChain x e.1).contains n)).map Prod.fst
          .done ((setCancel s c n lv h).foldl under (fun t e => cancelLaunch t c e h)) 0

/-- KCANC (R245): the cancel flags are set as by a store, behind the accesses that the issuing groups have made before (04 R94, R116). -/
def execKcanc (hard : Bool) (lv : BitVec 2) (f : WA) (s : State) : Out := .next <|
  let run (s : State) (m : Nat × Nat) : CancelRes := kcanc s s.curCtx (s.blk s.cur.blk).launch (rdW s m f.a.toNat).toNat lv.toNat hard
  word (.kcanc hard lv f) s (fun s => (reportCheck s f.pr.toNat Point.arrival arriving 9).andThen
      (match (lowest s f.pr.toNat).map (run s) with
      | some (.wait va stage need) => .page s.curCtx va aLOAD stage need 8
      | _ => .pass)) (fun s => market s f.pr.toNat
    (fun _ r => busy (lanesW r.1 f.pr.toNat f.d.toNat (fun _ => BitVec.ofNat 32 r.2)) 8 8)
    (fun m => match run s m with | .done t n => (t, n) | .wait _ _ _ => (s, 1)))

/-- The cancel state of a block's own nodes (R247). -/
def cancelState (s : State) (b : Nat) : Nat :=
  let k := s.blk b
  let x := s.ctx k.ctx
  let cnc (lv : Nat) : Nat := match ownNode x k.launch lv with
    | some n => b2n (if lv = 0 then (x.launch n).cnc else (x.node n).cnc) * 2 ^ lv
    | none => 0
  cnc 0 + cnc 1 + cnc 2 + cnc 3 + b2n k.marked * 16

/-- KCHK (R247). -/
def execKchk (f : WA) (s : State) : Out := .next <|
  plain (.kchk f) s (fun s => busy (lanesW s f.pr.toNat f.d.toNat (fun _ => BitVec.ofNat 32 (cancelState s s.cur.blk))) 2 8)

/-! ### Events -/

/-- DISPATCH_DECISION (R241). -/
def execDispatchDecision (s : State) : Out := .next <| dispatchStep s s.arg.x

/-- POWER_GATING_BEGIN (R243): the core has stayed idle for 10 µs. -/
def execPowerGatingBegin (s : State) : Out :=
  let n := s.arg.x
  if 256 ≤ n then .fault (.noSuchObject "core" n)
  else .next <|
    if (coreBlocks s n).isEmpty && decide ((s.core n).idleSince + 10000 ≤ s.gts) then beginGating s n else s

/-- GATING_COMMIT (R243). -/
def execGatingCommit (s : State) : Out :=
  let n := s.arg.x
  if 256 ≤ n then .fault (.noSuchObject "core" n)
  else .next <| if (s.core n).gate = 1 then s.updCore n (fun k => { k with gate := 2 }) else s

/-- CORE_WAKE (R243): the eighth step has ended, and the blocks that waited may issue. -/
def execCoreWake (s : State) : Out :=
  let n := s.arg.x
  if 256 ≤ n then .fault (.noSuchObject "core" n)
  else .next <|
    let s := s.updCore n (fun k => { k with gate := 0 })
    idleCore (s.foldl (coreBlocks s n) (fun t b => t.updBlk b (fun k => { k with waking := false }))) n

/-- BLOCK_EXIT (R244). -/
def execBlockExit (s : State) : Out := .next <| blockExit s s.arg.x s.arg

/-- BLOCK_RESUME (10 R267). -/
def execBlockResume (s : State) : Out := .next <| blockResume s s.arg.x s.arg

end Sys2Proof.Machine
end

