-- ==== Sys2Proof/Machine/Queue.lean ====
section
/-!
DEFINITION. Queues and their packets (08_queue.md R194 to R229; 09_kernel.md R232, R235, R236, R239). A rafter that holds a queue's ordering
lock looks at the packet that comes next; when it can be taken, the event of its type takes and executes it.
-/

namespace Sys2Proof.Machine

/-! ### Places and packets -/

def qEn (k : Queue) : Bool := k.cfg.getLsbD 0
/-- Slots of the ring (R195, R196). -/
def qSize (k : Queue) : Nat := 2 ^ (fld k.cfg 7 4 + 4)
def qRing (k : Queue) : Nat := fld k.cfg 56 12 * 4096

/-- A field of a packet: bits `[hi:lo]`. -/
def pk (bs : List Byte) (hi lo : Nat) : Nat := bits (leNat bs) hi lo
def pkType (bs : List Byte) : Nat := pk bs 7 0
def pkSer (bs : List Byte) : Bool := decide (pk bs 8 8 = 1)
def pkMsi (bs : List Byte) : Bool := decide (pk bs 9 9 = 1)

/-- A place as an event's operand names it: ring index, and offset in a buffer plus one. -/
def placeKey (idx ib : Nat) : Nat := idx + 2 ^ 32 * ib
def keyIdx (z : Nat) : Nat := if z < 2 ^ 64 then z % 2 ^ 32 else z / 2 ^ 64 * 2 ^ 64
def keyIb (z : Nat) : Nat := z % 2 ^ 64 / 2 ^ 32

/-- Whether an index stands for that of a packet taken before its queue was enabled anew. -/
def isOld (idx : Nat) : Bool := decide (2 ^ 64 ≤ idx)

/-- Packets taken and incomplete, those of an earlier enabling first (R198). -/
def Queue.running (k : Queue) : List Taken := k.old ++ k.taken

def Queue.entry (k : Queue) (idx ib : Nat) : Option Taken := k.running.find? (fun t => t.idx == idx && t.ib == ib)

/-- The place of the packet that comes next: one to execute once more, one of the buffer at HEAD, or the ring's. -/
def Queue.place (k : Queue) : Nat × Nat :=
  match k.again, k.ibuf with
  | p :: _, _ => p
  | [], some (_, _, off) => (k.head, off + 1)
  | [], none => (k.head, 0)

/-- Whether a type's fields lie within the limits of its map (R203, R205 to R214; addresses: log 109). -/
def fieldsOk (bs : List Byte) : Bool :=
  let z (hi lo : Nat) : Bool := decide (pk bs hi lo = 0)
  let al (hi lo n : Nat) : Bool := decide (pk bs hi lo % n = 0)
  z 31 10 &&
  match pkType bs with
  | 1 => z 511 320 && z 127 32 && decide (pk bs 271 256 ≠ 0xFFFF) && al 255 192 64 && al 191 128 128
  | 2 =>
    let n := pk bs 159 144
    z 255 160 && z 63 37 && al 127 64 32 &&
      (if pk bs 35 35 = 1 then decide (1 ≤ n ∧ n ≤ 7) && z 127 64
       else decide (n ≤ 4096) && z 511 256 && (decide (n ≠ 0) || decide (pk bs 36 36 = 1)))
  | 3 => z 511 192 && z 63 32 && al 127 64 32
  | 4 => z 511 320 && z 127 64 && z 47 36 && al 191 128 8 && decide (pk bs 35 32 < 4)
  | 5 => z 511 160 && z 63 32 && al 127 64 64 && decide (1 ≤ pk bs 159 128 ∧ pk bs 159 128 ≤ 65536)
  | 6 =>
    let len := pk bs 255 192
    let src := pk bs 127 64
    let dst := pk bs 191 128
    z 511 256 && z 63 32 && decide (1 ≤ len ∧ len ≤ 2 ^ 32) && decide (src + len ≤ dst ∨ dst + len ≤ src)
  | 7 => z 511 192 && z 63 34 && al 127 64 8 && decide (pk bs 33 32 < 3)
  | 8 => z 511 80 && z 63 35
  | 9 => z 511 128 && al 127 64 8
  | 10 => z 511 128 && z 63 35 && al 127 64 2048 && decide (1 ≤ pk bs 34 32 ∧ pk bs 34 32 ≤ 4)
  | _ => false

/-- Continuation slots of an inline FEED (R206). -/
def contSlots (bs : List Byte) : Nat :=
  if pkType bs = 2 ∧ pk bs 35 35 = 1 ∧ 1 ≤ pk bs 159 144 ∧ pk bs 159 144 ≤ 7 then pk bs 159 144 / 2 else 0

/-- The event of a packet's type. -/
def packetEvent (ty : Nat) : Instr :=
  match ty with
  | 1 => .launchPacket | 2 => .feedPacket | 3 => .fencePacket | 4 => .waitPacket | 5 => .indirectPacket | 6 => .copyPacket
  | 7 => .signalPacket | 8 => .cancelPacket | 9 => .markPacket | _ => .dtloadPacket

def isPacketEvent (i : Instr) : Bool := ((upto 10).map (fun t => packetEvent (t + 1))).contains i

/-! ### States, stops and completion (R197, R198, R204, R222, R223) -/

/-- A context makes progress (R226). -/
def progress (s : State) (c : Nat) : State := s.updCtx c (fun x => { x with progress := s.gts })

/-- The watchdog is checked at the next multiple of 1 ms (R226). -/
def armWatchdog (s : State) (c : Nat) : State :=
  if s.agenda.any (fun e => decide (e.ev = .watchdogExpiry ∧ e.arg = { x := c })) then s
  else s.post ((s.gts / 1000000 + 1) * 1000000) (rafterSrc s) .watchdogExpiry { x := c }

/-- The queue is served again, by a rafter that takes the event or by the one that holds the lock (R201). -/
def serveLater (s : State) (c q : Nat) : State := s.postOnce s.gts (rafterSrc s) .rafterEventTake { x := 0, y := 1, z := 16 * c + q }

/-- Releases the ordering lock; PENDING has the queue served once more (R201). -/
def unlockQueue (s : State) (c q : Nat) : State :=
  let p := ((s.ctx c).queue q).pending
  let s := s.updQueue c q (fun k => { k with locked := false, pending := false })
  if p then serveLater s c q else s

def blockQueue (s : State) (c q reason : Nat) : State := unlockQueue (s.updQueue c q (fun k => { k with st := 3, reason := reason })) c q

/-- A failure stops the queue, or is held behind the one reported (R222, R223). -/
def stopQueue (s : State) (c q idx ib code cont : Nat) : State :=
  let k := (s.ctx c).queue q
  if k.st = 4 then s.updQueue c q (fun k => { k with fails := k.fails ++ [(idx, ib, code)] })
  else if k.st = 0 ∨ k.st = 5 then s
  else
    let s := s.updQueue c q (fun k => { k with st := 4, ecode := code, eidx := idx, eib := ib, econt := cont })
    if k.cfg.getLsbD 3 then sendMsix s (s.ctx c).vf (16 + q) else s

/-- HEAD, or the place in the buffer at HEAD, moves past a packet and its continuation slots (R209). -/
def advanceHead (k : Queue) (cont : Nat) : Queue :=
  match k.ibuf with
  | none => { k with head := (k.head + 1 + cont) % 2 ^ 32, startOff := 0 }
  | some (va, n, off) =>
    if n ≤ off + 1 + cont then { k with head := (k.head + 1) % 2 ^ 32, ibuf := none, ibBlk := none }
    else { k with ibuf := some (va, n, off + 1 + cont) }

/-- The end of a packet: it is no longer incomplete, and MSI is sent unless it was abandoned (R202, R204, R223). -/
def endPacket (s : State) (c q idx ib : Nat) (abandoned : Bool) : State :=
  match ((s.ctx c).queue q).entry idx ib with
  | none => s
  | some t =>
    let s := s.updQueue c q (fun k => { k with
      taken := k.taken.filter (fun t => !(t.idx == idx && t.ib == ib)), old := k.old.filter (fun t => !(t.idx == idx && t.ib == ib)), again := k.again.filter (· ≠ (idx, ib)) })
    if abandoned then s
    else
      let s := progress s c
      if pkMsi t.bytes then sendMsix s (s.ctx c).vf (16 + q) else s

/-- An INDIRECT completes when its buffer has been taken and every packet of it is complete (R209). -/
def endIndirect (s : State) (c q idx : Nat) : State :=
  let k := (s.ctx c).queue q
  if (k.ibuf.isSome && k.head == idx) || k.running.any (fun t => t.idx == idx && t.ib != 0) then s
  else match k.entry idx 0 with
    | some t => if pkType t.bytes = 5 then endPacket s c q idx 0 false else s
    | none => s

/-- A packet completes (R204). -/
def completePacket (s : State) (c q idx ib : Nat) : State :=
  let s := endPacket s c q idx ib false
  if ib = 0 then s else endIndirect s c q idx

/-- The checkpoint after a FENCE at a place (R225): CKPT and IBOFF. -/
def afterFence (k : Queue) (idx ib : Nat) : Nat × Nat :=
  if ib = 0 then ((idx + 1) % 2 ^ 32, 0)
  else match k.entry idx 0 with
    | some p => if pk p.bytes 159 128 ≤ ib then ((idx + 1) % 2 ^ 32, 0) else (idx, ib)
    | none => ((idx + 1) % 2 ^ 32, 0)

/-- A packet is taken: unless it is executed once more, it counts as incomplete from here (R204, R226). -/
def takePacket (s : State) (c q idx ib : Nat) (bs : List Byte) : State :=
  let k := (s.ctx c).queue q
  let s := armWatchdog (progress s c) c
  if k.again.contains (idx, ib) then
    s.updQueue c q (fun k => { k with taken := k.taken.map (fun t => if t.idx = idx ∧ t.ib = ib then { t with bytes := bs, gts := s.gts, wgts := none } else t) })
  else s.updQueue c q (fun k => { k with taken := k.taken ++ [{ idx := idx, ib := ib, bytes := bs, gts := s.gts, ck := afterFence k idx ib }] })

/-- HEAD moves past a packet that has been taken, unless it was executed once more. -/
def passPacket (s : State) (c q idx ib cont : Nat) : State :=
  let s := s.updQueue c q (fun k => if k.again.contains (idx, ib) then { k with again := k.again.filter (· ≠ (idx, ib)) } else advanceHead k cont)
  if ib = 0 then s else endIndirect s c q idx

/-- A failure at the take: the packet is not taken (R223). A packet executed once more stays incomplete. -/
def failTake (s : State) (c q idx ib code cont : Nat) : State :=
  let s := s.updQueue c q (fun k => { k with again := k.again.filter (· ≠ (idx, ib)) })
  unlockQueue (stopQueue s c q idx ib code cont) c q

/-- A failure of a packet that has been taken (R223). -/
def failTaken (s : State) (c q idx ib code : Nat) : State := unlockQueue (stopQueue s c q idx ib code 0) c q

/-! ### Reading packets (R202, R215) -/

/-- VA of the slot at a place. -/
def slotVa (k : Queue) (idx ib : Nat) : Nat :=
  if ib = 0 then qRing k + 64 * (idx % qSize k)
  else match k.ibuf with
    | some (va, _, _) => if k.head = idx then va + 64 * (ib - 1) else other
    | none => other
where
  other : Nat := match k.entry idx 0 with | some t => pk t.bytes 127 64 + 64 * (ib - 1) | none => 0

/-- Reads the slot at a place: a buffer's through its fetch block, which is read once (R215, log 108). -/
def readSlot (s : State) (c q idx ib : Nat) (fresh : Bool) : SlotRes :=
  let k := (s.ctx c).queue q
  let va := slotVa k idx ib
  if ib = 0 || fresh then slotRead s c va 64
  else
    let base := va / 256 * 256
    match k.ibBlk with
    | some (a, bs) => if a = base then .done ((bs.drop (va % 256)).take 64) s else block base va
    | none => block base va
where
  block (base va : Nat) : SlotRes :=
    match slotRead s c base 256 with
    | .done bs t => .done ((bs.drop (va % 256)).take 64) (t.updQueue c q (fun k => { k with ibBlk := some (base, bs) }))
    | r => r

/-- Reads the continuation slots behind a place (R206). -/
def readCont (s : State) (c q idx ib : Nat) (fresh : Bool) (n : Nat) : SlotRes :=
  (upto n).foldl (fun (r : SlotRes) i => match r with
    | .done bs t =>
      (match readSlot t c q (if ib = 0 then (idx + 1 + i) % 2 ^ 32 else idx) (if ib = 0 then 0 else ib + 1 + i) fresh with
      | .done cs u => .done (bs ++ cs) u
      | r => r)
    | r => r) (.done [] s)

/-! ### Serving (R201, R204) -/

/-- Whether packets before a place are incomplete; the INDIRECT that holds a packet does not count (R204). -/
def earlierIncomplete (k : Queue) (idx ib : Nat) : Bool :=
  (k.taken.takeWhile (fun t => !(t.idx == idx && t.ib == ib))).any (fun t => !(decide (ib ≠ 0) && t.idx == idx && t.ib == 0))

/-- The feed that a FEED packet names, where the append is allowed (R217). -/
def feedOf (s : State) (c : Nat) (bs : List Byte) : Option (Nat × Nat × Feed) :=
  let e := pk bs 143 128
  let f := pk bs 34 32
  let l := (s.ctx c).launch e
  if thas (s.ctx c).launches e && decide (f < l.feedsN) && !(l.feed f).closed && decide (pk bs 159 144 ≤ (l.feed f).depth) then some (e, f, l.feed f)
  else none

/-- What keeps a well-formed packet from being taken now: a block reason, or a code. -/
def takeBar (s : State) (c q idx ib : Nat) (bs : List Byte) : Option (Nat × Bool) :=
  let k := (s.ctx c).queue q
  match pkType bs with
  | 1 => if 64 ≤ (s.ctx c).launches.length then some (5, false) else none
  | 2 => match feedOf s c bs with
    | none => some (7, true)
    | some (_, _, f) => if f.depth < f.recs.length + pk bs 159 144 then some (3, false) else none
  | 5 => if ib ≠ 0 then some (4, true) else if k.startOff ≠ 0 ∧ pk bs 159 128 ≤ k.startOff then some (1, true) else none
  | 6 => if (packetCore s c).isNone then some (4, false) else none
  | 10 => if k.cfg.getLsbD 11 then none else some (5, true)
  | _ => let _ := idx; none

/-- Looks at a packet that has been read: it stops the queue, blocks it, or is handed to the event of its type. A FEED
whose continuation slots are not there is log 107. -/
def offerPacket (s : State) (c q idx ib : Nat) (bs : List Byte) : State :=
  let k := (s.ctx c).queue q
  let cont := contSlots bs
  let replay := decide (k.startOff ≠ 0 ∧ ib = 0) && k.again.isEmpty
  if !fieldsOk bs || (replay && decide (pkType bs ≠ 5)) then failTake s c q idx (if replay then k.startOff + 1 else ib) 1 cont
  else if (match k.ibuf with | some (_, n, off) => decide (ib ≠ 0 ∧ n < off + 1 + cont) && k.again.isEmpty | none => false) then failTake s c q idx ib 1 cont
  else if ib = 0 ∧ k.again.isEmpty ∧ (k.tail + 2 ^ 32 - k.head) % 2 ^ 32 < 1 + cont then unlockQueue s c q
  else if (pkSer bs || pkType bs == 3) && earlierIncomplete k idx ib then blockQueue s c q 1
  else match takeBar s c q idx ib bs with
    | some (code, true) => failTake s c q idx (if pkType bs = 5 ∧ ib = 0 then k.startOff + 1 else ib) code cont
    | some (reason, false) => blockQueue s c q reason
    | none => s.post s.gts (rafterSrc s) (packetEvent (pkType bs)) { x := c, y := q, z := placeKey idx ib, data := bs }

/-- Whether a taken packet has failed and waits for QCTL (R223); a refused doorbell is no failure of a packet. -/
def hasFailed (k : Queue) (t : Taken) : Bool :=
  decide (k.st = 4 ∧ k.ecode ≠ 3 ∧ k.eidx = t.idx ∧ k.eib = t.ib) || k.fails.any (fun f => f.1 == t.idx && f.2.1 == t.ib && f.2.2 != 3)

/-- A WAIT that was taken and whose condition has not held yet. -/
def openWait (k : Queue) : Option Taken := k.taken.find? (fun t => pkType t.bytes == 4 && !hasFailed k t)

/-- The next evaluation of a WAIT, and its timeout (R208). -/
def startWait (s : State) (c q : Nat) (t : Taken) : State :=
  let key := placeKey t.idx t.ib
  let tmo := pk t.bytes 63 48
  let due := if tmo = 0 then 0 else s.gts + tmo * 1000000
  let s := s.updQueue c q (fun k => { k with taken := k.taken.map (fun u => if u.idx = t.idx ∧ u.ib = t.ib then { u with deadline := due } else u) })
  let s := if tmo = 0 then s else s.post due (rafterSrc s) .waitTimeout { x := c, y := q, z := key }
  s.post s.gts (rafterSrc s) .waitReevaluation { x := c, y := q, z := key }

/-- Whether a WAIT's evaluations are under way. -/
def waitPosted (s : State) (c q : Nat) (t : Taken) : Bool := s.posted .waitReevaluation { x := c, y := q, z := placeKey t.idx t.ib }

/-- Looks at the packet that comes next, with the ordering lock held. -/
def serveNext (s : State) (c q : Nat) : State :=
  let s := s.updQueue c q (fun k => if k.st = 3 then { k with st := 2, reason := 0 } else k)
  let k := (s.ctx c).queue q
  let x := s.ctx c
  if k.st ≠ 2 || !qEn k then unlockQueue s c q
  else if x.st ≠ .runnable ∧ x.st ≠ .running then blockQueue s c q 6
  else match if k.again.isEmpty then openWait k else none with
    | some t => blockQueue (if waitPosted s c q t then s else startWait s c q t) c q 2
    | none =>
      if k.again.isEmpty && k.ibuf.isNone && k.head == k.tail then
        unlockQueue (if k.taken.isEmpty then s.updQueue c q (fun k => { k with st := 1 }) else s) c q
      else
        let p := k.place
        match readSlot s c q p.1 p.2 (!k.again.isEmpty) with
        | .done bs t => offerPacket t c q p.1 p.2 bs
        | .fail => failTake s c q p.1 p.2 2 0
        | .wait va stage need =>
          unlockQueue (waitOn s c va aLOAD stage need (rafterSrc s) (.rafterEventTake, { x := 0, y := 1, z := 16 * c + q })) c q

/-- A rafter acquires the lock and serves the queue, or sets PENDING (R201). -/
def serveQueue (s : State) (c q : Nat) : State :=
  if ((s.ctx c).queue q).locked then s.updQueue c q (fun k => { k with pending := true })
  else serveNext (s.updQueue c q (fun k => { k with locked := true, pending := false })) c q

/-- The queues of a context that has become able to run are served again (R199). -/
def kickQueues (s : State) (c : Nat) : State :=
  s.foldl ((s.ctx c).queues) (fun t e =>
    let k := e.2
    if k.st = 1 ∧ k.tail ≠ k.head then serveLater (t.updQueue c e.1 (fun k => { k with st := 2 })) c e.1
    else if k.st = 2 ∨ k.st = 3 then serveLater t c e.1
    -- R229: the timers of a WAIT start again in a STOPPED queue, too
    else match if k.st = 4 then openWait k else none with
      | some w => if waitPosted t c e.1 w then t else startWait t c e.1 w
      | none => t)

/-- RAFTER_EVENT_TAKE (R28, R201): the oldest event of the device's queue, or, with y = 1, another turn for queue z % 16 of context z / 16. -/
def execRafterEventTake (s : State) : Out := .next <|
  let a := s.arg
  if a.y = 1 then serveQueue s (a.z / 16) (a.z % 16)
  else
    let s := { s with rafters := tset s.rafters a.x false }
    match s.evq with
    | [] => s
    | (c, q) :: r => serveQueue { s with evq := r } c q

/-! ### Doorbells and queue control (R195, R198, R199, R223) -/

/-- Packet events of a queue are no longer wanted, and what becomes of the waits and turns of its packets follows from `f`. -/
def mapQueueWork (s : State) (c q : Nat) (f : Nat → Option Nat) : State :=
  let mine (i : Instr) (a : Arg) : Bool := (isPacketEvent i || i == .waitReevaluation || i == .waitTimeout) && a.x == c && a.y == q
  let go (i : Instr) (a : Arg) : Option Arg := if mine i a then (f a.z).map (fun z => { a with z := z }) else some a
  { s with agenda := s.agenda.filterMap (fun e => (go e.ev e.arg).map (fun a => { e with arg := a }))
           page := { s.page with waiters := s.page.waiters.filterMap (fun w => match w.retry with
             | some r => (go r.1 r.2).map (fun a => { w with retry := some (r.1, a) })
             | none => some w) }
           peerGot := s.peerGot.map (fun g => { g with retry := g.retry.map (fun r => (r.1, (go r.1 r.2).getD r.2)) }) }

/-- Packet events of a queue are no longer wanted. -/
def dropQueueWork (s : State) (c q : Nat) : State := mapQueueWork s c q (fun _ => none)

/-- The queue is enabled anew and its indices begin at 0: what it has taken and still runs goes on under indices of its own (R198). -/
def orphanPackets (s : State) (c q : Nat) : State :=
  let k := (s.ctx c).queue q
  let ns := (k.taken.map Taken.idx).eraseDups
  let base := s.nextId
  let newIdx (i : Nat) : Nat := 2 ^ 64 * (base + ns.idxOf i + 1)
  let key (z : Nat) : Option Nat :=
    if isOld z then some z
    else if (k.entry (keyIdx z) (keyIb z)).isSome then some (placeKey (newIdx (keyIdx z)) (keyIb z)) else none
  let moved (o : EngOp) : EngOp := match o.kind with
    | .packet d p z => if d = c ∧ p = q then { o with kind := .packet c q ((key z).getD z) } else o
    | _ => o
  let s := mapQueueWork { s with nextId := base + ns.length } c q key
  let s := s.updCtx c (fun x => { x with launches := tmap (fun _ l => if l.queue = q then { l with pidx := (key l.pidx).getD l.pidx } else l) x.launches
                                         packets := x.packets.map moved })
  let s := { s with cores := tmap (fun _ k => { k with engQ := tmap (fun _ l => l.map moved) k.engQ, entering := k.entering.map (fun (e : Nat × EngOp) => (e.1, moved e.2)) }) s.cores }
  s.updQueue c q (fun (k : Queue) => { k with taken := [], old := k.old ++ k.taken.map (fun t => { t with idx := newIdx t.idx }) })

/-- The bits of QCFG that a write sets (R195). -/
def qcfgBits (v : DWord) : DWord := v &&& 0x01FF_FFFF_FFFF_FFF9

/-- QCFG_WRITE (R195, R196, R198, R229; EN set again within a reset: log 110). -/
def execQcfgWrite (s : State) : Out := .next <|
  let c := s.arg.x
  let q := s.arg.y
  let v := qcfgBits s.arg.v
  let k := (s.ctx c).queue q
  if (s.ctx c).st = .free then s
  else if 13 ≤ fld v 7 4 || (qEn k && (decide (fld v 56 12 ≠ fld k.cfg 56 12) || decide (fld v 7 4 ≠ fld k.cfg 7 4))) then
    s.updQueue c q (fun k => { k with cfg := k.cfg ||| 4 })
  else
    let s := s.updQueue c q (fun k => { k with cfg := v })
    if v.getLsbD 0 && !qEn k then
      (orphanPackets s c q).updQueue c q (fun k => { cfg := v, st := if k.st = 5 then 5 else 1, old := k.old })
    else if !v.getLsbD 0 && qEn k && decide (k.st ≠ 5) then
      -- a WAIT that is open, a packet that has failed, and an INDIRECT whose buffer is not taken whole end here
      let drop := ((k.taken.filter (fun t => pkType t.bytes = 4 ∨ hasFailed k t)).map (fun t => (t.idx, t.ib))) ++
        (if k.ibuf.isSome then [(k.head, 0)] else [])
      let s := dropUntaken s c q drop
      s.updQueue c q (fun k => { k with st := 0, reason := 0, again := [], fails := [], ibuf := none, ibBlk := none
                                        taken := k.taken.filter (fun t => !drop.contains (t.idx, t.ib)), locked := false, pending := false })
    else if (s.ctx c).st = .running then pokeDispatch s c
    else s
where
  /-- What was on its way to be taken is not taken; packets already taken go on to their completion. -/
  dropUntaken (s : State) (c q : Nat) (drop : List (Nat × Nat)) : State :=
    let k := (s.ctx c).queue q
    let stale (i : Instr) (a : Arg) : Bool :=
      a.x == c && a.y == q && !isOld a.z && ((isPacketEvent i && a.u == 0 && (k.entry (keyIdx a.z) (keyIb a.z)).isNone) ||
        ((i == .waitReevaluation || i == .waitTimeout) && drop.contains (keyIdx a.z, keyIb a.z)))
    { s with agenda := s.agenda.filter (fun e => !stale e.ev e.arg)
             page := { s.page with waiters := s.page.waiters.filter (fun w => match w.retry with | some r => !stale r.1 r.2 | none => true) } }

/-- DOORBELL (R199). -/
def execDoorbell (s : State) : Out := .next <|
  let c := s.arg.x
  let q := s.arg.y
  let t := fld s.arg.v 31 0
  let k := (s.ctx c).queue q
  let x := s.ctx c
  if k.st = 0 || x.st = .destroyed || x.st = .free then s
  else if qSize k < (t + 2 ^ 32 - k.ckpt) % 2 ^ 32 then
    let off := match k.ibuf with | some (_, _, o) => o | none => k.startOff
    if k.st = 5 then s else stopQueue s c q k.head (if off = 0 ∧ k.ibuf.isNone then 0 else off + 1) 3 0
  else
    let s := s.updQueue c q (fun k => { k with tail := t })
    if k.st = 4 || k.st = 5 || x.st = .suspended || x.st = .migrating then s
    else queueEvent (if k.st = 1 ∧ t ≠ k.head then s.updQueue c q (fun k => { k with st := 2 }) else s) c q

/-- The next failure that is held stops the queue again; with none, the queue goes on (R223). -/
def goOnQueue (s : State) (c q : Nat) : State :=
  let s := s.updQueue c q (fun k => { k with st := 2, ecode := 0 })
  match ((s.ctx c).queue q).fails with
  | [] => queueEvent s c q
  | (idx, ib, code) :: r =>
    let s := s.updQueue c q (fun k => { k with fails := [] })
    (stopQueue s c q idx ib code 0).updQueue c q (fun k => { k with fails := r })

/-- RETRY (R223). -/
def execRetry (s : State) : Out := .next <|
  let c := s.arg.x
  let q := s.arg.y
  let k := (s.ctx c).queue q
  if k.st ≠ 4 then s
  else
    let s := s.updQueue c q (fun k =>
      if k.ecode = 3 then k
      else if (k.entry k.eidx k.eib).isSome then { k with again := k.again ++ [(k.eidx, k.eib)] }
      else { k with ibBlk := none })
    goOnQueue s c q

/-- SKIP (R223). -/
def execSkip (s : State) : Out := .next <|
  let c := s.arg.x
  let q := s.arg.y
  let k := (s.ctx c).queue q
  if k.st ≠ 4 then s
  else
    let s :=
      if k.ecode = 3 then s
      else if (k.entry k.eidx k.eib).isSome then endIndirect (endPacket s c q k.eidx k.eib true) c q k.eidx
      else endIndirect (s.updQueue c q (fun k => advanceHead k k.econt)) c q k.eidx
    goOnQueue s c q

/-! ### Packets -/

/-- Whether a packet event still stands: the queue holds its lock, runs and the place is the next one. -/
def packetStands (s : State) (c q : Nat) (z : Nat) : Bool :=
  let k := (s.ctx c).queue q
  k.locked && decide (k.st = 2) && qEn k && decide (k.place = (keyIdx z, keyIb z)) && decide ((s.ctx c).st = .runnable ∨ (s.ctx c).st = .running)

/-- A packet event that no longer stands gives the lock up. -/
def packetGone (s : State) (c q : Nat) : State := if ((s.ctx c).queue q).locked then serveNext s c q else s

/-- Takes a packet, and lets its effect decide what follows. -/
def withPacket (s : State) (f : State → Nat → Nat → Nat → Nat → List Byte → State) : State :=
  let a := s.arg
  if packetStands s a.x a.y a.z then f s a.x a.y (keyIdx a.z) (keyIb a.z) a.data else packetGone s a.x a.y

/-- A packet whose effect is complete at its take. -/
def donePacket (s : State) (c q idx ib : Nat) (bs : List Byte) : State :=
  let s := passPacket (takePacket s c q idx ib bs) c q idx ib (contSlots bs)
  serveNext (completePacket s c q idx ib) c q

/-- The completion of a packet that runs on after its take: u = 1, or u = 2 for an error of a COPY. -/
def packetEnded (s : State) : State :=
  let a := s.arg
  let s := if a.u = 2 then
      if isOld a.z then endPacket s a.x a.y (keyIdx a.z) (keyIb a.z) true
      else (if (((s.ctx a.x).queue a.y).entry (keyIdx a.z) (keyIb a.z)).isSome then stopQueue s a.x a.y (keyIdx a.z) (keyIb a.z) 10 0 else s)
    else completePacket s a.x a.y (keyIdx a.z) (keyIb a.z)
  serveQueue s a.x a.y

/-! #### LAUNCH (R205, 09 R232, R235, R236, R239) -/

/-- A malformed kernel descriptor (R235). -/
def descBad (d : List Byte) : Bool :=
  let f (hi lo : Nat) : Nat := recBits d hi lo
  decide (f 1023 192 ≠ 0 ∨ f 159 148 ≠ 0 ∨ f 63 48 ≠ 0 ∨ f 147 144 = 1 ∨ 8 < f 147 144 ∨ 8 < f 143 140 ∨ f 137 136 = 3 ∨ 8 < f 135 128) ||
  decide (f 127 96 ≠ 0 ∧ f 137 136 ≠ 2) || decide (115 < unitsFor (f 127 96) ∨ 112 < unitsFor (f 95 64) ∨ f 47 0 % 12 ≠ 0)

/-- A malformed launch record (R236). -/
def recordBad (d r : List Byte) : Bool :=
  let f (hi lo : Nat) : Nat := recBits r hi lo
  decide (f 415 384 ≠ 0 ∨ f 287 256 ≠ 0 ∨ f 207 197 ≠ 0 ∨ f 191 0 ≠ 0) ||
  decide (f 255 240 = 0 ∨ f 239 224 = 0 ∨ f 223 208 = 0 ∨ 2 ^ 32 ≤ f 255 240 * f 239 224 * f 223 208) ||
  decide (f 196 192 + 1 < recBits d 147 144) || decide (f 383 288 / 2 ^ (12 * recBits d 143 140) ≠ 0)

/-- Gyold's copy of a launch that is taken. -/
def newLaunch (c q : Nat) (k : Queue) (z : Nat) (e parent recVa gts : Nat) (d r : List Byte) : Launch :=
  let _ := c
  let feeds := recBits d 143 140
  { entry := e, parent := parent, queue := q, pidx := z, priv := b2n (k.cfg.getLsbD 11)
    kid := recBits d 191 160, setk := recBits d 147 144, feedsN := feeds, bco := decide (recBits d 139 139 = 1)
    xreg := decide (recBits d 138 138 = 1), heat := recBits d 137 136, acc := recBits d 135 128, eaves := recBits d 127 96
    scratch := recBits d 95 64, code := recBits d 47 0, recVa := recVa, args := recBits r 511 448
    gx := recBits r 255 240, gy := recBits r 239 224, gz := recBits r 223 208, grps := recBits r 196 192 + 1
    target := recBits r 255 240 * recBits r 239 224 * recBits r 223 208, takeGts := gts
    feeds := (upto feeds).map (fun i => (i, { depth := recBits r (288 + 12 * i + 11) (288 + 12 * i) + 1 })) }

/-- Blocks of a launch that fit on one core with every resource free (R239). -/
def fitsAlone (x : Ctx) (l : Launch) : Nat :=
  let n := launchNeed x l
  let per (have_ takes : Nat) (k : Nat) : Nat := if takes = 0 then k else min k (have_ / takes)
  per 112 (n.units + n.xunits) (per 115 n.eunits (per 8 n.acc (per 64 n.grps (per 96 n.grans 16))))

/-- Whether a gang can never be resident at once (R239). -/
def gangTooBig (x : Ctx) (l : Launch) : Bool := l.bco && decide (fitsAlone x l * (if l.heat = 2 then 2 else 4) * x.maxclu < l.target)

/-- The entries that a LAUNCH packet names, from the job down: level, index, and the next named index above. -/
def namedEntries (bs : List Byte) : List (Nat × Nat × Nat) :=
  let n (lv : Nat) : Nat := pk bs (271 + 16 * lv) (256 + 16 * lv)
  let up (lv : Nat) : Nat := (([1, 2, 3].filter (fun k => decide (lv < k))).map n).find? (fun v => decide (v ≠ 0xFFFF)) |>.getD 0xFFFF
  ([3, 2, 1, 0].filter (fun lv => decide (lv = 0 ∨ n lv ≠ 0xFFFF))).map (fun lv => (lv, n lv, up lv))

/-- The outcome of the checks of a LAUNCH, with the state after its reads. -/
inductive LaunchRes where
  | ok (l : Launch) (ents : List (Nat × Nat × Nat × List Byte)) (s : State)
  | wait (va stage : Nat) (need : Lack)
  | refused
deriving DecidableEq, Repr

/-- Whether an entry lets its level be joined or begun (R232). -/
def entryRefused (s : State) (c lv n up : Nat) (e : List Byte) : Bool :=
  let f (hi lo : Nat) : Nat := recBits e hi lo
  decide (f 255 240 ≠ 0 ∨ f 223 200 ≠ 0 ∨ f 195 194 ≠ 0 ∨ f 127 96 ≠ 0 ∨ f 199 198 ≠ lv) ||
  (if lv = 0 then thas (s.ctx c).launches n || decide (f 193 192 = 1) else decide (f 193 192 ≠ 0 ∧ f 239 224 ≠ up))

/-- Reads and checks what a LAUNCH names (R205, R232, R235, R236, R239). -/
def checkLaunch (s : State) (c q z : Nat) (bs : List Byte) : LaunchRes :=
  let x := s.ctx c
  let ents := namedEntries bs
  match slotRead s c (pk bs 191 128) 128 with
  | .wait va stage need => .wait va stage need
  | .fail => .refused
  | .done d s => match slotRead s c (pk bs 255 192) 64 with
    | .wait va stage need => .wait va stage need
    | .fail => .refused
    | .done r s =>
      if descBad d || recordBad d r then .refused
      else
        let e := pk bs 271 256
        let l := newLaunch c q (x.queue q) z e ((ents.getLastD (0, 0, 0xFFFF)).2.2) (pk bs 255 192) s.gts d r
        if gangTooBig x l || ents.any (fun t => decide (wrSize x ≤ t.2.1)) then .refused
        else ents.foldl (fun (r : LaunchRes) t => match r with
          | .ok l es s =>
            (match readEntry s c t.2.1 with
            | .done e s => if entryRefused s c t.1 t.2.1 t.2.2 e then .refused else .ok l (es ++ [(t.1, t.2.1, t.2.2, e)]) s
            | .wait va stage need => .wait va stage need
            | .fail => .refused)
          | r => r) (.ok l [] s)

/-- Activates or joins an upper entry (R232, R233). -/
def activateNode (s : State) (c lv n up : Nat) (e : List Byte) : State :=
  let st := recBits e 193 192
  if st = 0 then
    let s := s.updNode c n (fun _ => { level := lv, parent := up, count := 0, target := recBits e 95 64, st := 1 })
    let s := wrPut (wrPut (wrPut s c n 28 2 up) c n 0 4 0) c n 24 1 (wrFlags 1 false false lv)
    if recBits e 95 64 = 0 then countNode 4 s c n 0 else s
  else
    s.updNode c n (fun _ => nodeOf lv up e)

/-- Starts a launch (R232, R245). -/
def startLaunch (s : State) (c : Nat) (l : Launch) (ents : List (Nat × Nat × Nat × List Byte)) : State :=
  let s := s.foldl (ents.filter (fun t => decide (t.1 ≠ 0))) (fun t e => activateNode t c e.1 e.2.1 e.2.2.1 e.2.2.2)
  let s := s.updLaunch c l.entry (fun _ => l)
  let s := wrPut (wrPut s c l.entry 28 2 l.parent) c l.entry 0 12 (l.target * 2 ^ 64)
  let s := writeNext (wrPut s c l.entry 24 1 (wrFlags 1 false false 0)) c l.entry
  let s := traceEvent s c 2 (rafterSrc s) s.gts l.entry l.kid 0
  if (launchChain (s.ctx c) l.entry).any (fun n => ((s.ctx c).node n).cnc) then
    countLaunch (s.updLaunch c l.entry (fun l => { l with next := l.target, dropped := l.target })) c l.entry l.target
  else pokeDispatch s c

/-- LAUNCH_PACKET (R205): the take, or with u = 1 the completion. -/
def execLaunchPacket (s : State) : Out := .next <|
  if s.arg.u = 1 then packetEnded s
  else withPacket s (fun s c q idx ib bs =>
    if 64 ≤ (s.ctx c).launches.length then blockQueue s c q 5
    else match checkLaunch s c q (placeKey idx ib) bs with
    | .refused => failTake s c q idx ib 6 0
    | .wait va stage need => waitOn s c va aLOAD stage need (rafterSrc s) (.launchPacket, s.arg)
    | .ok l ents s =>
      let s := passPacket (takePacket s c q idx ib bs) c q idx ib 0
      serveNext (startLaunch s c l ents) c q)

/-! #### FEED (R206, R217 to R219) -/

/-- The records of a FEED: the first inline one and the continuation slots, or those at SRC. -/
def feedRecords (s : State) (c q idx ib : Nat) (bs : List Byte) : SlotRes :=
  let k := (s.ctx c).queue q
  if pk bs 35 35 = 1 then
    match readCont s c q idx ib (!k.again.isEmpty) (contSlots bs) with
    | .done cs t => .done (bs.drop 32 ++ cs) t
    | r => r
  else if pk bs 159 144 = 0 then .done [] s
  else
    let va := pk bs 127 64
    match vreadAll s c va (32 * pk bs 159 144) aLOAD 0 with
    | .done cs => .done cs (touchRead s c va cs.length aLOAD 0)
    | .wait _ stage _ need => .wait (waitVa s c va (32 * pk bs 159 144) aLOAD 0) stage need
    | .fail _ _ => .fail

/-- The code of a FEED whose records at SRC cannot be read: the manual names none (log 60). -/
def feedSrcCode (s : State) : Nat := [2, 7, 10].getD (Config.choice 60 s.freeCtr % 3) 2

/-- FEED_PACKET (R206). -/
def execFeedPacket (s : State) : Out := .next <|
  withPacket s (fun s c q idx ib bs =>
    match feedOf s c bs, feedRecords s c q idx ib bs with
    | none, _ => failTake s c q idx ib 7 (contSlots bs)
    | _, .wait va stage need => waitOn s c va aLOAD stage need (rafterSrc s) (.feedPacket, s.arg)
    | _, .fail => failTake s.tick c q idx ib (if pk bs 35 35 = 1 then 2 else feedSrcCode s) (contSlots bs)
    | some (e, f, fd), .done rs t =>
      let n := pk bs 159 144
      if fd.depth < fd.recs.length + n then blockQueue t c q 3
      else
        let t := t.foldl (upto n) (fun t i => feedAppend t c e f ((rs.drop (32 * i)).take 32))
        donePacket (if pk bs 36 36 = 1 then feedClose t c e f else t) c q idx ib bs)

/-! #### FENCE, SIGNAL and MARK -/

/-- A packet that writes: at first it is taken; the write may then wait for a page or for a peer home, and is tried again with u = 4. One of a queue
that has been enabled anew since completes by itself (R198). -/
def writingPacket (s : State) (ev : Instr) (first : State → Nat → Nat → List Byte → State)
    (f : State → Nat → Nat → Taken → State × Option WRes) : State :=
  let a := s.arg
  let idx := keyIdx a.z
  let ib := keyIb a.z
  let again : Arg := { a with u := 4 }
  let go (s : State) : State :=
    match ((s.ctx a.x).queue a.y).entry idx ib with
    | none => packetGone s a.x a.y
    | some t =>
      -- SIGNAL ADD and MAX are atomics (R211, 12 R300)
      let acc := if pkType t.bytes = 7 ∧ pk t.bytes 33 32 ≠ 0 then aATOM else aSTORE
      if (s.ctx a.x).st ≠ .runnable ∧ (s.ctx a.x).st ≠ .running then s.post (s.gts + 100000) (rafterSrc s) ev again
      else match f s a.x a.y t with
        | (s, none) => let s := completePacket s a.x a.y idx ib; if isOld idx then s else serveNext s a.x a.y
        | (s, some (.wait _ stage _ need)) => waitOn s a.x (pk t.bytes 127 64) acc stage need (rafterSrc s) (ev, again)
        | (s, some _) => if isOld idx then endPacket s a.x a.y idx ib true else failTaken s a.x a.y idx ib 10
  if a.u = 4 then go s
  else withPacket s (fun s c q idx ib bs => go (passPacket (takePacket (first s c q bs) c q idx ib bs) c q idx ib 0))

/-- FENCE_PACKET (R207, R224, R225). The record's GTS is that of its write, which one at a peer home keeps until it is answered. -/
def execFencePacket (s : State) : Out := .next <|
  writingPacket s .fencePacket (fun s _ _ _ => s) (fun s c q t =>
    let va := pk t.bytes 127 64
    let ts := t.wgts.getD s.gts
    let stamp (t' : Taken) : Taken := if t'.idx = t.idx ∧ t'.ib = t.ib then { t' with wgts := some ts } else t'
    let keep (s : State) (r : WRes) : State × Option WRes := match r with
      | .wait _ _ _ (.store _ _ _) => (s.updQueue c q (fun k => { k with taken := k.taken.map stamp, old := k.old.map stamp }), some r)
      | _ => (s, some r)
    match vwrite s c (va + 8) (natLe 24 (ts + t.ck.2 * 2 ^ 80 + q * 2 ^ 96 + c * 2 ^ 100)) aSTORE 0 (rafterSrc s) with
    | .done s =>
      (match vwrite s c va (natLe 8 (pk t.bytes 191 128)) aSTORE 0 (rafterSrc s) with
      | .done s => (if isOld t.idx then s else s.updQueue c q (fun k => { k with ckpt := t.ck.1, iboff := t.ck.2 }), none)
      | r => keep s r)
    | r => keep s r)

/-- Every WAIT of the context on an address reads it again (R208). -/
def wakeWaits (s : State) (c addr : Nat) : State :=
  s.foldl ((s.ctx c).queues) (fun t e =>
    t.foldl (e.2.taken.filter (fun w => decide (pkType w.bytes = 4 ∧ vaOf (pk w.bytes 191 128) = vaOf addr))) (fun t w =>
      t.postOnce t.gts (rafterSrc s) .waitReevaluation { x := c, y := e.1, z := placeKey w.idx w.ib, u := 1 }))

/-- SIGNAL ADD or MAX at a peer home, as an atomic there (13 R318): none where the home is this device. -/
def signalPeer (s : State) (c va op v : Nat) : Option (Option WRes) :=
  match translate s c (vaOf va) aATOM 0 with
  | .ok dev pa _ =>
    if dev = s.devNo ∨ !peerUp s dev ∨ pa.testBit 39 then none
    else match peerGotFor s (.atom dev pa op v) with
      | none => some (some (.wait 0 0 0 (.atom dev pa op v)))
      | some g => some (if g.refused then some (.fail 0 0x0D) else none)
  | _ => none

/-- SIGNAL_PACKET (R211). -/
def execSignalPacket (s : State) : Out := .next <|
  writingPacket s .signalPacket (fun s _ _ _ => s) (fun s c _ t =>
    let va := pk t.bytes 127 64
    let v := pk t.bytes 191 128
    let put (s : State) (x acc : Nat) : State × Option WRes := match vwrite s c va (natLe 8 x) acc 0 (rafterSrc s) with
      | .done s => (wakeWaits s c va, none)
      | r => (s, some r)
    if pk t.bytes 33 32 = 0 then put s v aSTORE
    else match signalPeer s c va (if pk t.bytes 33 32 = 1 then 13 else 14) v with
    | some none => (wakeWaits s c va, none)
    | some r => (s, r)
    | none => match vread s c va 8 aATOM 0 with
      | .done bs => put s (if pk t.bytes 33 32 = 1 then (leNat bs + v) % 2 ^ 64 else max (leNat bs) v) aATOM
      | .wait st stage lvl need => (s, some (.wait st stage lvl need))
      | .fail syn det => (s, some (.fail syn det)))

/-- MARK_PACKET (R213). -/
def execMarkPacket (s : State) : Out := .next <|
  writingPacket s .markPacket (fun s c q bs => traceEvent s c 1 (rafterSrc s) s.gts (pk bs 63 32) q 0) (fun s c _ t =>
    if pk t.bytes 127 64 = 0 then (s, none)
    else match vwrite s c (pk t.bytes 127 64) (natLe 8 t.gts) aSTORE 0 (rafterSrc s) with
      | .done s => (s, none)
      | r => (s, some r))

/-! #### WAIT (R208) -/

/-- Whether a WAIT's condition holds for a value. -/
def waitHolds (bs : List Byte) (v : Nat) : Bool :=
  let x := pk bs 255 192
  let m := v &&& pk bs 319 256
  match pk bs 35 32 with | 0 => m == x | 1 => m != x | 2 => decide (x ≤ m) | _ => decide (m < x)

/-- HEAD moves past a WAIT that has ended; one executed once more leaves HEAD where it is. -/
def passWait (s : State) (c q idx ib : Nat) : State :=
  let k := (s.ctx c).queue q
  let here := decide (k.head = idx) && (match k.ibuf with | some (_, _, off) => ib == off + 1 | none => ib == 0)
  let s := if here then s.updQueue c q (fun k => advanceHead k 0) else s
  if ib = 0 then s else endIndirect s c q idx

/-- A WAIT stops its queue, which then stands past it (R223). -/
def stopWait (s : State) (c q idx ib code : Nat) : State := stopQueue (passWait s c q idx ib) c q idx ib code 0

/-- One evaluation of a WAIT (R208). -/
def evalWait (s : State) (c q : Nat) (t : Taken) : State :=
  let va := pk t.bytes 191 128
  match vread s c va 8 aLOAD 0 with
  | .done bs =>
    let s := touchRead s c va 8 aLOAD 0
    if waitHolds t.bytes (leNat bs) then
      serveQueue (completePacket (passWait s c q t.idx t.ib) c q t.idx t.ib) c q
    else s
  | .wait _ stage _ need =>
    waitOn s c va aLOAD stage need (rafterSrc s) (.waitReevaluation, { x := c, y := q, z := placeKey t.idx t.ib, u := 1 })
  | .fail _ _ => stopWait s c q t.idx t.ib 10

/-- WAIT_PACKET (R208): the take, which leaves the queue at the WAIT until its condition holds. -/
def execWaitPacket (s : State) : Out := .next <|
  withPacket s (fun s c q idx ib bs =>
    let s := takePacket s c q idx ib bs
    let s := s.updQueue c q (fun k => { k with again := k.again.filter (· ≠ (idx, ib)) })
    match ((s.ctx c).queue q).entry idx ib with
    | none => packetGone s c q
    | some t => blockQueue (startWait s c q t) c q 2)

/-- WAIT_REEVALUATION (R208): u = 1 for a read besides those every 2 µs. -/
def execWaitReevaluation (s : State) : Out := .next <|
  let a := s.arg
  let k := (s.ctx a.x).queue a.y
  match k.entry (keyIdx a.z) (keyIb a.z) with
  | none => s
  | some t =>
    if pkType t.bytes ≠ 4 ∨ k.st = 0 ∨ k.st = 5 then s
    else if (openWait k).isNone then s
    else if (s.ctx a.x).st ≠ .runnable ∧ (s.ctx a.x).st ≠ .running then
      if k.st = 3 then s.updQueue a.x a.y (fun k => { k with reason := 6 }) else s
    else
      let s := if a.u = 1 then s else s.post (s.gts + 2000) (rafterSrc s) .waitReevaluation a
      evalWait s a.x a.y t

/-- WAIT_TIMEOUT (R208): ADDR is read once more at the deadline; WAITTMO follows when the condition is false or its page is not there. -/
def execWaitTimeout (s : State) : Out := .next <|
  let a := s.arg
  let k := (s.ctx a.x).queue a.y
  match k.entry (keyIdx a.z) (keyIb a.z), openWait k with
  | some t, some _ =>
    if pkType t.bytes = 4 ∧ t.deadline = s.gts ∧ k.st ≠ 0 ∧ k.st ≠ 5 ∧ ((s.ctx a.x).st = .runnable ∨ (s.ctx a.x).st = .running) then
      let v := evalWait s a.x a.y t
      let k := (v.ctx a.x).queue a.y
      -- a timeout in a STOPPED queue is held behind the failure reported (R223)
      if (k.entry t.idx t.ib).isNone ∨ hasFailed k t then v else stopWait v a.x a.y t.idx t.ib 8
    else s
  | _, _ => s

/-! #### INDIRECT, COPY, CANCEL and DTLOAD -/

/-- INDIRECT_PACKET (R209, R215, R228): its buffer's slots come next, from the place of a replay where one is in progress. -/
def execIndirectPacket (s : State) : Out := .next <|
  withPacket s (fun s c q idx ib bs =>
    let s := takePacket s c q idx ib bs
    let s := s.updQueue c q (fun k =>
      if k.again.contains (idx, ib) then { k with again := k.again.filter (· ≠ (idx, ib)) }
      else { k with ibuf := some (pk bs 127 64, pk bs 159 128, k.startOff), ibBlk := none, startOff := 0 })
    serveNext s c q)

/-- COPY_PACKET (R210): the take, or the completion: u = 1 done, u = 2 an engine error. -/
def execCopyPacket (s : State) : Out := .next <|
  if s.arg.u = 1 ∨ s.arg.u = 2 then packetEnded s
  else withPacket s (fun s c q idx ib bs =>
    match packetCore s c with
    | none => blockQueue s c q 4
    | some core =>
      let s := passPacket (takePacket s c q idx ib bs) c q idx ib 0
      let (id, s) := s.fresh
      let o : EngOp := { id := id, kind := .packet c q (placeKey idx ib), ctx := c, lrec := bs, gts0 := s.gts, len := pk bs 255 192 }
      let s := s.updCore core (fun k => { k with entering := k.entering ++ [(3, o)] })
      serveNext (fillEngine s core 3) c q)

/-- CANCEL_PACKET (R212). -/
def execCancelPacket (s : State) : Out := .next <|
  withPacket s (fun s c q idx ib bs =>
    match kcanc s c none (pk bs 79 64) (pk bs 33 32) (decide (pk bs 34 34 = 1)) with
    | .done s _ => donePacket s c q idx ib bs
    | .wait va stage need => waitOn s c va aLOAD stage need (rafterSrc s) (.cancelPacket, s.arg))

/-- DTLOAD_PACKET (R214, log 109). -/
def execDtloadPacket (s : State) : Out := .next <|
  withPacket s (fun s c q idx ib bs =>
    let va := pk bs 127 64
    if !canonicalAddr va then failTake s c q idx ib 9 0
    else match vread s c va 2048 aLOAD 0 with
    | .wait _ stage _ need => waitOn s c va aLOAD stage need (rafterSrc s) (.dtloadPacket, s.arg)
    | .fail _ _ => failTake s c q idx ib 9 0
    | .done t =>
      let s := touchRead s c va 2048 aLOAD 0
      if (tableOf t).all (fun e => entryOk e.2) then
        donePacket (s.updCtx c (fun x => { x with slots := tset x.slots (pk bs 34 32) (tableOf t) })) c q idx ib bs
      else failTake s c q idx ib 9 0)

end Sys2Proof.Machine
end

