-- ==== Sys2Proof/Machine/Command.lean ====
section
/-!
DEFINITION. Contexts as wholes (06_context.md R145 to R166): VF configuration, the commands of the command window, saves and migration, the
energy counters, and the watchdog with the partition reset (08_queue.md R226, R227).
-/

namespace Sys2Proof.Machine

/-- The source of the work that a command window starts (log 42). -/
def hostSrc : Nat := 864

/-! ### Ends of commands (R148, R149) -/

/-- A command that is decided completes within 5 µs (R148). -/
def finishCommand (s : State) (vf status : Nat) : State :=
  (s.tick).post (s.gts + 1 + Config.extraLatency s.freeCtr % 4000) hostSrc .contextCommandComplete { x := vf, y := status }

/-- CONTEXT_COMMAND_COMPLETE (R148): MSI-X vector 0 is sent unless the VF is disabled (R146). -/
def execContextCommandComplete (s : State) : Out :=
  let n := s.arg.x
  if 64 ≤ n then .fault (.noSuchObject "virtual function" n)
  else .next <| sendMsix (s.updVf n (fun v => { v with go := false, status := s.arg.y })) n 0

/-- The context a command names, where the VF may name it and the context's state admits the command. Where several causes of refusal hold, BADID
of a VF that is not enabled comes first, then BADOP, BADID and BADSTATE (06 R149; the order is the model's, log 87). -/
def commandOf (s : State) (n : Nat) (admits : CtxState → Bool) : Except Nat Nat :=
  let v := s.vf n
  if !v.en then .error 2
  else if v.cctx < v.idbase ∨ v.idbase + v.idcnt ≤ v.cctx then .error 2
  else if admits (s.ctx v.cctx).st then .ok v.cctx
  else .error 3

/-- Runs a command of a window. -/
def command (s : State) (admits : CtxState → Bool) (f : State → Nat → Nat → State) : Out :=
  let n := s.arg.x
  if 64 ≤ n then .fault (.noSuchObject "virtual function" n)
  else .next <| match commandOf s n admits with
    | .error st => finishCommand s n st
    | .ok c => f s n c

/-! ### Holding clusters -/

/-- Whether a context has outstanding work (08 R226). -/
def outstanding (x : Ctx) : Bool := x.queues.any (fun e => e.2.running.any (fun t => pkType t.bytes != 4))

def holdsCluster (s : State) (c : Nat) : Bool := !(heldUnits s c 0).isEmpty

/-- A context becomes RUNNABLE or RUNNING, and its queues are served again. -/
def goState (s : State) (c : Nat) (st : CtxState) : State :=
  let s := (progress s c).updCtx c (fun x => { x with st := st, noDispatch := false })
  let s := kickQueues s c
  let s := if outstanding (s.ctx c) then armWatchdog s c else s
  if st = .running then resumePackets (pokeContext s c) c else s

/-! ### CREATE and ACTIVATE (R150, R152) -/

/-- A malformed context record (R150). -/
def ctxRecordBad (r : List Byte) : Bool :=
  let f (hi lo : Nat) : Nat := recBits r hi lo
  decide (f 511 168 ≠ 0 ∨ f 159 144 ≠ 0 ∨ f 127 105 ≠ 0 ∨ f 63 48 ≠ 0 ∨ f 11 0 ≠ 0) ||
  decide (f 167 160 = 0 ∨ 64 < f 167 160 ∨ f 143 128 < 16 + 576 * f 167 160)

/-- Whether every page of the image area takes a write (R149, R151). -/
def imageMapped (s : State) (c : Nat) : Bool :=
  (upto (s.ctx c).imgsz).all (fun i => match walk s c ((s.ctx c).imgva + 65536 * i) aEWRITE 1 with
    | .ok _ pa _ => !pa.testBit 39
    | .wait _ _ _ _ => true
    | _ => false)

/-- A new context stands in its record's terms: no register or translation of an earlier holder of the id is left. -/
def newContext (s : State) (n c : Nat) (r : List Byte) : State :=
  let x : Ctx := { st := .created, vf := n, groot := recBits r 47 12 * 4096, imgva := recBits r 104 64 * 65536, imgsz := recBits r 143 128
                   maxclu := recBits r 167 160 }
  { s with ctxs := tset s.ctxs c x }.updPage (fun p =>
    { p with tlb := tmap (fun _ ts => ts.filter (fun t => decide (t.ctx ≠ c))) p.tlb,
             ptrs := tmap (fun _ ps => ps.filter (fun q => decide (q.ctx ≠ c))) p.ptrs })

/-- Writes the header of a new context; a page that is not there is waited for (R151). -/
def createImage (s : State) (n c : Nat) : State :=
  match writeHeader s c 0 with
  | .done t => finishCommand t n 0
  | .wait t va acc stage need => waitOn t c va acc stage need hostSrc (.create, { x := n, y := 1, z := c })
  | .bad t => finishCommand { t with ctxs := tset t.ctxs c {} } n 5

/-- CREATE (R150): y = 1 goes on with the header of context z. -/
def execCreate (s : State) : Out :=
  if s.arg.y = 1 then .next (if (s.ctx s.arg.z).st = .created then createImage s s.arg.x s.arg.z else s)
  else command s (fun st => st == .free) (fun s n c =>
    let gpa := (s.vf n).carg % 2 ^ 48 / 64 * 64
    match readAt s (pageWalk s (ringCtx n c) gpa aLOAD) (ringCtx n c) 64 aLOAD with
    | .fail _ _ => finishCommand s n 4
    | .wait _ stage _ need => waitOn s (ringCtx n c) gpa aLOAD stage need hostSrc (.create, { x := n })
    | .done r =>
      if ctxRecordBad r then finishCommand s n 4
      else
        let t := newContext s n c r
        if imageMapped t c then createImage t n c else finishCommand s n 5)

/-- ACTIVATE (R152 event 2). -/
def execActivate (s : State) : Out :=
  command s (fun st => st == .created) (fun s n c => finishCommand (goState s c .runnable) n 0)

/-! ### Saves (R153) -/

/-- Starts a save: dispatch stops at once (R153 step 1). -/
def beginSave (s : State) (c : Nat) (cmd : List Nat) : State :=
  s.updCtx c (fun x => { x with saving := true, noDispatch := true, cmd := x.cmd ++ cmd })

/-- Steps 2 to 4: whether every resident block and every COPY packet that has begun is through. The deadline of a write-back is the bound of R153,
25 µs after the start of step 2 (12 R301, log 98). -/
def saveParts (s : State) (c : Nat) : State × Bool :=
  let start := (s.ctx c).saveAt.getD s.gts
  let late := decide (start + 25000 ≤ s.gts)
  let s := s.updCtx c (fun x => { x with saveAt := some start })
  let s := s.foldl ((heldUnits s c 0).flatMap clusterCores) (fun t n => pullPackets t c n false)
  let r := (residentBlocks s c).foldl (fun (r : State × Bool) b => let t := trySave r.1 b false late; (t.1, r.2 && t.2)) (s, true)
  let left := r.1.cores.any (fun e => (tget [] e.2.engQ 3).any (fun o => match o.kind with | .packet d _ _ => decide (d = c) | _ => false))
  (r.1, r.2 && !left)

/-- The commands that wait for a save complete. -/
def endCommand (s : State) (c status : Nat) : State :=
  (s.updCtx c (fun x => { x with cmd := [] })).foldl (s.ctx c).cmd (fun t n => finishCommand t n status)

/-- One turn of a save: it goes on later, ends, or meets an image fault (R151, R152 event 12). -/
def saveTurn (s : State) (c : Nat) (ev : Instr) (a : Arg) (done : State → State) : State :=
  if !(s.ctx c).saving then s
  else
    let r := saveParts s c
    if !r.2 then r.1.post (s.gts + 1000) (rafterSrc s) ev a
    else match writeImage r.1 c with
      | .done t => done (t.updCtx c (fun x => { x with saving := false, saveAt := none, imgDue := false }))
      | .wait t va acc stage need => waitOn t c va acc stage need (rafterSrc s) (ev, a)
      | .bad t => endCommand (imageFault t c true []) c 5

/-- An abandoned save: its command completes with BADSTATE (log 44). -/
def abandonSave (s : State) (c : Nat) : State :=
  let turn (i : Instr) (a : Arg) : Bool := (i == .suspend || i == .migrate || i == .resume) && decide (1 ≤ a.y ∧ a.z = c)
  let s := { s with agenda := s.agenda.filter (fun e => !turn e.ev e.arg)
                    page := { s.page with waiters := s.page.waiters.filter (fun w => match w.retry with | some r => !turn r.1 r.2 | none => true) } }
  endCommand (s.updCtx c (fun x => { x with saving := false, saveAt := none, imgNo := none, imgGts := none })) c 3

/-- SUSPEND (R152 event 5): y = 1 goes on with the save of context z. -/
def execSuspend (s : State) : Out :=
  let a := s.arg
  if a.y = 1 then .next (if (s.ctx a.z).st = .suspended then saveTurn s a.z .suspend a (fun t => endCommand t a.z 0) else s)
  else command s (fun st => st == .runnable || st == .running) (fun s n c =>
    let s := beginSave (s.updCtx c (fun x => { x with st := .suspended })) c [n]
    saveTurn s c .suspend { x := n, y := 1, z := c } (fun t => endCommand t c 0))

/-! ### RESUME (R152 events 6 and 6a) -/

/-- The context is RUNNABLE again, and RESUMED is posted once. -/
def resumed (s : State) (n c : Nat) : State :=
  let s := s.updCtx c (fun x => { x with held := false, heldSave := false, heldBlks := [] })
  finishCommand (notice (goState s c .runnable) c 6 0 hostSrc) n 0

/-- The restore that failed is tried again, with the records that it reads. -/
def retryRestore (s : State) (n c : Nat) (a : Arg) : State :=
  match readBack s c ((s.ctx c).heldBlks.filter (fun b => thas s.blks b)) with
  | .done t => resumed t n c
  | .wait t va acc stage need => waitOn t c va acc stage need hostSrc (.resume, a)
  | .bad t => finishCommand t n 5

/-- RESUME: y = 1 goes on with the save or restore that is tried again for context z. -/
def execResume (s : State) : Out :=
  let a := s.arg
  let again (s : State) (n c : Nat) : State :=
    let a : Arg := { x := n, y := 1, z := c }
    if (s.ctx c).heldSave then saveTurn s c .resume a (fun t => resumed (t.updCtx c (fun x => { x with cmd := [] })) n c)
    else retryRestore s n c a
  if a.y = 1 then .next (if (s.ctx a.z).held then again s a.x a.z else s)
  else if (s.ctx (s.vf a.x).cctx).st = .faulted ∧ !(s.ctx (s.vf a.x).cctx).held then command s (fun _ => false) (fun s _ _ => s)
  else command s (fun st => st == .suspended || st == .faulted) (fun s n c =>
    if (s.ctx c).st = .suspended then resumed s n c
    else again (if (s.ctx c).heldSave then beginSave s c [n] else s) n c)

/-! ### Ends of contexts: DESTROY and partition reset (R154, 08 R227) -/

/-- COPY packets of a context leave every queue. -/
def dropPackets (s : State) (c : Nat) : State :=
  let mine (o : EngOp) : Bool := match o.kind with | .packet d _ _ => decide (d = c) | _ => false
  let s := s.updCtx c (fun x => { x with packets := [] })
  let held := (tkeys s.cores).filter (fun n => (tget [] (s.core n).engQ 3).any mine || (s.core n).entering.any (fun e => mine e.2))
  s.foldl held (fun t n =>
    let t := setEngQ t n 3 (fun l => l.filter (fun o => !mine o))
    let t := t.updCore n (fun k => { k with entering := k.entering.filter (fun e => !mine e.2) })
    pokeEngine (fillEngine t n 3) n 3)

/-- Everything a context runs ends: its blocks, its packets, and its launches, whose entries return to IDLE with their COUNT (08 R227, 09 R234). -/
def stopContext (s : State) (c : Nat) : State :=
  let s := s.foldl ((tkeys (s.ctx c).queues)) (fun t q => (dropQueueWork t c q).updQueue c q (fun k =>
    { k with taken := [], old := [], again := [], fails := [], ibuf := none, ibBlk := none, startOff := 0, locked := false, pending := false }))
  let s := s.foldl (s.blkIds.filter (fun b => decide ((s.blk b).ctx = c))) killBlock
  let s := dropPackets s c
  let s := s.foldl (s.ctx c).launches (fun t e => freeChannel (wrPut t c e.1 24 1 (wrFlags 0 e.2.hard e.2.cnc 0)) c e.1)
  s.updCtx c (fun x => { x with launches := [], stops := [], msgs := [], imgDue := false })

/-- A migration or a save in progress is abandoned first (R152, R154, R155); a destination to which the image was sent discards its copy. -/
def abandon (s : State) (c : Nat) : State :=
  let sent := s.posted .migrationComplete { x := c }
  let s := if (s.ctx c).saving then abandonSave s c else s
  let s := if sent then sendNamed s (s.ctx c).migDest 781 kABORT noCtx [c, (s.ctx c).migGts] [] (0, 0, 0) else s
  s.unpost .migrationComplete { x := c }

/-- DESTROY (R152 event 13, R154). -/
def execDestroy (s : State) : Out :=
  command s (fun st => !(st == .free || st == .destroyed)) (fun s n c =>
    let s := stopContext (abandon s c) c
    let s := s.updCtx c (fun x => { x with st := .destroyed, held := false, resetting := false, noDispatch := true, msgs := []
                                           queues := tmap (fun _ k => { k with st := 0, reason := 0, cfg := k.cfg &&& ~~~(1 : DWord) }) x.queues })
    finishCommand s n 0)

/-- The messages to a context that wait for its handler table are discarded; their senders keep their last status (13 R325). -/
def dropMessages (s : State) (c : Nat) : State :=
  let of_ (i : Instr) (a : Arg) : Bool := decide (i = Instr.messageArrival ∧ a.l.getD 2 0 = c) && (arrivalNo a).isSome
  let ws := (s.page.waiters.filterMap (fun w => match w.retry with | some r => if of_ r.1 r.2 then some r.2 else none | none => none)) ++
    (s.agenda.filter (fun e => of_ e.ev e.arg)).map Event.arg
  let s := { s with agenda := s.agenda.filter (fun e => !of_ e.ev e.arg)
                    page := { s.page with waiters := s.page.waiters.filter (fun w => match w.retry with | some r => !of_ r.1 r.2 | none => true) } }
  s.foldl ws (fun t a => leaveSendQ t a)

/-- Event 10: the context is FAULTED, and the partition reset begins (R152, 08 R227). -/
def partitionReset (s : State) (c : Nat) : State :=
  let x := s.ctx c
  if x.st = .runnable ∨ x.st = .running ∨ x.st = .suspended ∨ x.st = .migrating then
    let s := dropSlots (dropMessages (stopContext (abandon s c) c) c) c
    let s := s.updCtx c (fun x => { x with st := .faulted, resetting := true, noDispatch := true
                                           queues := tmap (fun _ k => if qEn k then { k with st := 5, reason := 0 } else k) x.queues })
    (s.tick).post (s.gts + 1 + Config.extraLatency s.freeCtr % 2000000) (rafterSrc s) .resetComplete { x := c }
  else s

/-- One queue at the end of a partition reset (08 R198, R227): its state, and whether it replays (log 110). -/
def replayQueue (k : Queue) : Queue :=
  if k.st ≠ 5 then k
  else { k with head := k.ckpt, startOff := k.iboff, ecode := 0
                st := if !qEn k then 0 else if k.ckpt = k.tail then 1 else 2 }

/-- RESET_COMPLETE (R152 event 11, 08 R227). -/
def execResetComplete (s : State) : Out := .next <|
  let c := s.arg.x
  let x := s.ctx c
  if x.st ≠ .faulted ∨ x.held ∨ !x.resetting then s
  else
    let replays := (tkeys x.queues).filter (fun q => decide ((x.queue q).st = 5) && qEn (x.queue q))
    let s := s.updCtx c (fun x => { x with resetting := false, queues := tmap (fun _ k => replayQueue k) x.queues })
    let s := s.foldl replays (fun t q => notice t c 7 q (rafterSrc s))
    -- step 3: the leased units stay, but their L1 ways and L2 ways are written back and invalidated
    let s := s.foldl (upto 3) (fun t cls => (heldUnits t c cls).foldl (fun t u => cleanUnit t cls u) t)
    goState s c (if holdsCluster s c then .running else .runnable)

/-- WATCHDOG_EXPIRY (08 R226): the check at a multiple of 1 ms. -/
def execWatchdogExpiry (s : State) : Out := .next <|
  let c := s.arg.x
  let x := s.ctx c
  let ms := (s.vf x.vf).wdog
  let again (s : State) : State := s.post (s.gts + 1000000) (rafterSrc s) .watchdogExpiry s.arg
  if ms = 0 ∨ !outstanding x ∨ x.st = .free ∨ x.st = .destroyed then s
  -- 20 R462: it does not run while a stop is held
  else if x.st ≠ .running ∨ !x.stops.isEmpty then again (progress s c)
  else if ms * 1000000 ≤ s.gts - x.progress then partitionReset s c
  else again s

/-! ### Migration (R152 events 7 to 9, R164, R166, 20 R474) -/

/-- Whether a device's events include a code. -/
def evavHas (e0 e1 : DWord) (code : Nat) : Bool := if code < 64 then e0.getLsbD code else e1.getLsbD (code - 64)

/-- Whether an open session without FORCE counts an event that a destination lacks (20 R474). -/
def lacksEvents (s : State) (c dest : Nat) : Bool :=
  let has (code : Nat) : Bool := match tfind s.mkt.peers dest with
    | some e => evavHas e.evav0 e.evav1 code
    | none => false
  (s.ctx c).sessions.any (fun e => e.2.isOpen && !e.2.force && e.2.sel.any (fun t => decide (t.2 ≠ 0) && !has t.2))

/-- Whether a destination takes the context: it can be reached and has a free id (log 16: a free value). -/
def destinationTakes (s : State) (dest : Nat) : Bool :=
  decide (dest ≠ s.devNo) && peerUp s dest && decide (Config.choice 40 s.freeCtr % 2 = 0)

/-- A MIGRATE moves the context to MIGRATING (R152 event 7). -/
def beginMigrate (s : State) (c dest : Nat) (cmd : List Nat) : State :=
  beginSave (s.updCtx c (fun x => { x with before := x.st, st := .migrating, migDest := dest })) c cmd

/-- The parts of an image: header with registers, the opaque sections, and the records, by offset and size (R160). -/
def imageParts (s : State) (c : Nat) : List (Nat × Nat) :=
  (0, 0x4000) :: imageSections ++ (savedBlocks s c).filterMap (fun b => (s.blk b).recAt.map (fun p => (recordOff p, recordLength (s.blk b))))

/-- Sends the parts of an image to a destination on the message channel (13 R316, R331): each names the context, its VF and state, the stamp of the
migration and the part's offset. -/
def sendParts (s : State) (c : Nat) (stamp : Nat) : List (Nat × Nat) → SaveRes
  | [] => .done s
  | p :: ps => (sendParts s c stamp ps).andThen (fun t => readPart t c p.1 p.2 (fun bs t =>
      let x := t.ctx c
      .done (sendNamed t x.migDest 781 kIMAGE noCtx [c, x.vf, x.before.code, stamp, p.1] bs (0, 0, 0))))

/-- The saved image is shipped (R153, R164); a page of it that has gone meanwhile is waited for, and one that cannot be read aborts the migration. -/
def shipImage (s : State) (c : Nat) : State :=
  let s := endCommand s c 0
  let x := s.ctx c
  if !peerUp s x.migDest then s.post s.gts 781 .migrationAborted { x := c }
  else match sendParts s c s.gts (imageParts s c).reverse with
    | .done t => (t.tick.updCtx c (fun x => { x with migGts := s.gts })).post (s.gts + 1 + Config.extraLatency t.freeCtr) 781 .migrationComplete { x := c }
    | .wait _ va acc stage need => waitOn s c va acc stage need 781 (.migrate, { x := x.vf, y := 3, z := c })
    | .bad _ => s.post s.gts 781 .migrationAborted { x := c }

/-- A refusal or an abort bars a destination for 16 intervals (07 R193). -/
def barDestination (s : State) (c dest : Nat) : State := s.updCtx c (fun x => { x with migBar := tset x.migBar dest s.mkt.count })

/-- MIGRATE (R152 event 7): y = 1 goes on with the save of context z; y = 2 begins one of the migration engine for context z at T; y = 3 goes on with
the shipping of an image that is saved. -/
def execMigrate (s : State) : Out :=
  let a := s.arg
  if a.y = 3 then .next (if (s.ctx a.z).st = .migrating ∧ !(s.ctx a.z).saving then shipImage s a.z else s)
  else if a.y = 1 ∨ a.y = 2 then
    let s := if a.y = 2 ∧ (s.ctx a.z).st = .migrating then beginSave s a.z [] else s
    .next (if (s.ctx a.z).st = .migrating then saveTurn s a.z .migrate { a with y := 1 } (fun t => shipImage t a.z) else s)
  else command s (fun st => st == .runnable || st == .running || st == .suspended) (fun s n c =>
    let dest := (s.vf n).carg / 64 % 1024
    if lacksEvents s c dest || !destinationTakes s dest then finishCommand (barDestination s.tick c dest) n 6
    else saveTurn (beginMigrate s.tick c dest [n]) c .migrate { x := n, y := 1, z := c } (fun t => shipImage t c))

/-- A copy of a migration that is aborted is discarded: one that has arrived, or the context restored from it (R154). The stamp tells this migration
from others of the id. -/
def discardCopy (s : State) (dev id stamp : Nat) : State :=
  let s := { s with incoming := s.incoming.filter (fun m => !(decide (m.dev = dev ∧ m.id = id ∧ m.stamp = stamp))) }
  s.foldl ((tkeys s.ctxs).filter (fun c => decide ((s.ctx c).from_ = some (dev, id, stamp)))) (fun t c =>
    let t := stopContext (if (t.ctx c).saving then abandonSave t c else t) c
    { t with ctxs := tdel t.ctxs c })

/-- MIGRATION_ABORTED (R152 event 9): the destination is barred for 16 intervals (07 R193). y = 1: at the destination, for the context x of
device z and the migration with stamp u (R154). The blocks that an abandoned save has stopped go on where they stand. -/
def execMigrationAborted (s : State) : Out := .next <|
  let c := s.arg.x
  let x := s.ctx c
  if s.arg.y = 1 then discardCopy s s.arg.z c s.arg.u
  else if x.st ≠ .migrating then s
  else
    let s := goOnBlocks (barDestination (abandon s c) c x.migDest) c
    if x.before = .suspended then s.updCtx c (fun x => { x with st := .suspended })
    else goState s c (if holdsCluster s c then .running else .runnable)

/-- A session at its destination: counters whose codes are absent here keep their value and gain INVALID, which FROZEN shows (20 R472, R474). -/
def moveSession (z : Session) : Session × Bool :=
  let lost (k : Nat) : Bool := decide (tget 0 z.sel k ≠ 0) && !(tget false z.inval k) && (eventPriv (tget 0 z.sel k)).isNone
  if z.isOpen && (upto 8).any lost then ({ z with inval := (upto 8).foldl (fun t k => if lost k then tset t k true else t) z.inval }, true)
  else (z, false)

/-- The id an arriving context takes: its own where that is free in the VF's range, else the lowest free one (R164). -/
def arrivalId (s : State) (n want : Nat) : Option Nat :=
  let v := s.vf n
  let ids := ((upto v.idcnt).map (fun i => v.idbase + i)).filter (fun c => decide ((s.ctx c).st = .free))
  if !v.en then none else if ids.contains want then some want else ids.head?

/-- The gangs of an arriving context bring the state of their bridle channels; each takes the lowest free channel here as it resumes (11 R283,
log 78). -/
def placeChannels (s : State) (c : Nat) (cs : Tab Chan) : State :=
  s.foldl cs (fun t e => t.updLaunch c e.1 (fun l => { l with chan := none, chanSaved := some e.2 }))

/-- Packets that were writing when the context was saved, and have not failed, go on writing (08 R229). -/
def resumeWrites (s : State) (c : Nat) : State :=
  s.foldl (s.ctx c).queues (fun t e => t.foldl (e.2.running.filter (fun p => [3, 7, 9].contains (pkType p.bytes) && !hasFailed e.2 p)) (fun t p =>
    t.post t.gts (rafterSrc t) (packetEvent (pkType p.bytes)) { x := c, y := e.1, z := placeKey p.idx p.ib, u := 4 }))

/-- An image that has arrived is restored here (R152 event 8, R164). -/
def restoreHere (s : State) (m : Incoming) : State :=
  match arrivalId s m.vf m.id with
  | none => sendNamed s m.dev 781 kRESTORED noCtx [m.id, 0] [] (0, 0, 0)
  | some c =>
    let x := m.ctx
    let lost := (tkeys x.sessions).filter (fun n => (moveSession (tget {} x.sessions n)).2)
    let x : Ctx := { x with vf := m.vf, st := if x.before = .suspended then .suspended else .runnable, saving := false, cmd := []
                            noDispatch := decide (x.before = .suspended)
                            bids := (upto 5).map (fun k => (k, { x.bid k with wgts := s.gts, last := s.gts, was := ((x.bid k).lo, (x.bid k).wgts) }))
                            -- a packet on its way to its take at the source is looked at again here
                            queues := tmap (fun _ k => { k with locked := false, pending := false }) x.queues
                            packets := x.packets.map (fun o => { o with ctx := c, kind := match o.kind with | .packet _ q z => .packet c q z | k => k })
                            sessions := tmap (fun _ z => (moveSession z).1) x.sessions, migLast := some s.mkt.count, from_ := some (m.dev, m.id, m.stamp)
                            served := 0, leased := false }
    let s := sendNamed { s with ctxs := tset s.ctxs c x } m.dev 781 kRESTORED noCtx [m.id, 1] [] (0, 0, 0)
    let s := s.foldl m.blks (fun t k => let r := t.fresh; { r.2 with blks := tset r.2.blks r.1 { k with ctx := c } })
    let s := placeChannels s c m.chans
    let s := s.foldl lost (fun t n => notice t c 5 n 781)
    let s := notice s c 4 m.dev 781
    let s := resumeWrites s c
    if x.st = .runnable then goState s c .runnable else s

/-- MIGRATION_COMPLETE (R152 event 8): at the source, or with y = 1 at the destination for the image received first. -/
def execMigrationComplete (s : State) : Out := .next <|
  let a := s.arg
  if a.y = 1 then
    match s.incoming with
    | m :: ms => restoreHere { s with incoming := ms } m
    | [] => s
  else if (s.ctx a.x).st ≠ .migrating ∨ (s.ctx a.x).saving then s
  else
    let c := a.x
    let s := s.foldl ((tkeys (s.ctx c).queues)) (fun t q => dropQueueWork t c q)
    let s := s.foldl (savedBlocks s c) (fun t b => dropSaved t b false)
    let s := s.foldl (s.ctx c).launches (fun t e => freeChannel t c e.1)
    s.updCtx c (fun x => { x with st := .destroyed, launches := [], packets := [], queues := [], rings := [], msgs := [] })

/-! ### VF configuration and energy (R145, R146, R163) -/

/-- The period of a VF as Gyold clamps it, in ns (R145). -/
def energyPeriod (v : Vf) : Nat := 10000 * max 1 (min 1000 v.eper)

/-- The boundaries of an enabled VF stand on the agenda. -/
def armEnergy (s : State) (n : Nat) : State :=
  let p := energyPeriod (s.vf n)
  if s.posted .energyPeriodBoundary { x := n } then s else s.post ((s.gts / p + 1) * p) hostSrc .energyPeriodBoundary { x := n }

/-- The VF as a write of one half of VFCFG asks for it (R145). -/
def vfcfgAsked (v : Vf) (w : Nat) (d : DWord) : Vf :=
  if w = 0 then { v with en := d.getLsbD 0, idbase := fld d 27 16, idcnt := fld d 44 32, eper := max 1 (min 1000 (fld d 63 48)) }
  else { v with hroot := fld d 31 4 * 4096 }

/-- Whether a write of VFCFG is refused (R146). -/
def vfcfgRefused (s : State) (n : Nat) (v : Vf) : Bool :=
  let o := s.vf n
  let live := s.ctxs.any (fun e => decide (o.idbase ≤ e.1 ∧ e.1 < o.idbase + o.idcnt) && decide (e.2.st ≠ .free))
  let overlap := (upto 64).any (fun k => decide (k ≠ n) && (s.vf k).en && decide (v.idcnt ≠ 0 ∧ (s.vf k).idcnt ≠ 0) &&
    decide (v.idbase < (s.vf k).idbase + (s.vf k).idcnt ∧ (s.vf k).idbase < v.idbase + v.idcnt))
  (v.en && (overlap || decide (4096 < v.idbase + v.idcnt))) ||
  (live && (decide (v.hroot ≠ o.hroot ∨ v.idbase ≠ o.idbase ∨ v.idcnt ≠ o.idcnt) || (o.en && !v.en)))

/-- VFCFG_WRITE (R145, R146). -/
def execVfcfgWrite (s : State) : Out :=
  let n := s.arg.x
  if 64 ≤ n then .fault (.noSuchObject "virtual function" n)
  else .next <|
    let v := vfcfgAsked (s.vf n) s.arg.y s.arg.v
    if vfcfgRefused s n v then s.updVf n (fun v => { v with err := true })
    else
      -- the first period of a VF begins as it is enabled
      let v := if v.en && !(s.vf n).en then { v with sharedAt := s.shared.drawn, servedAt := s.shared.served } else v
      let s := s.updVf n (fun _ => { v with err := false })
      if v.en then armEnergy s n else s

/-- Whether a context holds a leased unit, or is handing one over (R163, 07 R181). -/
def drawsLeased (s : State) (c : Nat) : Bool := s.mkt.units.any (fun u => decide (u.2.holder = some c ∨ u.2.outgoing = some c))

/-- The energy of a context's leased units since the last boundary (R163); the amount is free (log 14). -/
def leasedEnergy (s : State) (c n : Nat) : Nat := if (s.ctx c).leased || drawsLeased s c then Config.energy n else 0

/-- The shared units have drawn a free amount of energy since they were last looked at, one for each GTS (R163, log 14). -/
def drawShared (s : State) : State :=
  if s.shared.gts = s.gts then s
  else { s with freeCtr := s.freeCtr + 1, shared := { s.shared with drawn := s.shared.drawn + Config.energy s.freeCtr, gts := s.gts } }

/-- The part of the shared units' energy in a VF's period that goes to `k` of the requests they served in it (R163). -/
def sharedPart (s : State) (v : Vf) (k : Nat) : Nat := (s.shared.drawn - v.sharedAt) * k / (s.shared.served - v.servedAt)

/-- ENERGY_PERIOD_BOUNDARY (R163): the shared energy of the period goes to all contexts in proportion to their requests. -/
def execEnergyPeriodBoundary (s : State) : Out :=
  let n := s.arg.x
  if 64 ≤ n then .fault (.noSuchObject "virtual function" n)
  else .next <|
    let s := drawShared s
    let v := s.vf n
    let cs := (tkeys s.ctxs).filter (fun c => decide ((s.ctx c).vf = n ∧ (s.ctx c).st ≠ .free))
    let ds := cs.map (fun c => (c, leasedEnergy s c (s.freeCtr + c) + if (s.ctx c).st = .suspended then 0 else sharedPart s v (s.ctx c).served))
    let s := { s with freeCtr := s.freeCtr + 4096 }
    let s := s.foldl ds (fun t d => t.updCtx d.1 (fun x => { x with ctxen := x.ctxen + d.2, served := 0, leased := drawsLeased s d.1 }))
    let s := s.updVf n (fun v => { v with vfen := v.vfen + v.freed + sharedPart s v v.freedServed + ds.foldl (fun k d => k + d.2) 0, freed := 0
                                          freedServed := 0, sharedAt := s.shared.drawn, servedAt := s.shared.served })
    if (s.vf n).en then armEnergy s n else s

end Sys2Proof.Machine
end

