-- ==== Sys2Proof/Machine/Float.lean ====
section
/-!
DEFINITION. Floating-point, conversion and special-function instructions, and the lane exchanges (15_float.md R357 to R374).
-/

namespace Sys2Proof.Machine

/-! ### FPC: modes and flags (02_numbers.md R40 to R43) -/

/-- The FPC a member lane uses: that of its own group, before the issue (R43, R357). -/
def fpcOf (s : State) (m : Nat × Nat) : Word := (s.srcGrp m.1).fpc
def ftzOf (s : State) (m : Nat × Nat) : Bool := (fpcOf s m).getLsbD 10
def f8nsOf (s : State) (m : Nat × Nat) : Bool := (fpcOf s m).getLsbD 11

/-- ORs flags into the FPC of a group, and notes them for an MTS to FPC in the same issue (R42, R357). -/
def raiseFlags (s : State) (j fl : Nat) : State :=
  if fl = 0 then s
  else
    let s := s.updGrp s.cur.blk j (fun g => { g with fpc := g.fpc ||| BitVec.ofNat 32 fl })
    { s with cur := { s.cur with raised := tset s.cur.raised j (tget 0 s.cur.raised j ||| fl) } }

/-- Writes w D of every guarded member with a result and raises its flags. -/
def lanesF (s : State) (pr d : Nat) (v : Nat × Nat → FRes) : State :=
  forLanes s pr (fun m t => raiseFlags (wrW t m d (BitVec.ofNat 32 (v m).bits)) m.1 (v m).flags)

/-- A w register as a bit pattern. -/
def rdN (s : State) (m : Nat × Nat) (r : Nat) : Nat := (rdW s m r).toNat

/-- The two BF16 elements of a w register (R47). -/
def elLo (x : Nat) : Nat := x % 2 ^ 16
def elHi (x : Nat) : Nat := x / 2 ^ 16 % 2 ^ 16

/-- A packed result from its elements (R47, R362). -/
def packed (lo hi : FRes) : FRes := ⟨lo.bits % 2 ^ 16 + hi.bits % 2 ^ 16 * 2 ^ 16, lo.flags ||| hi.flags⟩

/-- An element-wise operation on packed BF16 sources. -/
def packed2 (op : Nat → Nat → FRes) (a b : Nat) : FRes := packed (op (elLo a) (elLo b)) (op (elHi a) (elHi b))
def packed3 (op : Nat → Nat → Nat → FRes) (a b d : Nat) : FRes :=
  packed (op (elLo a) (elLo b) (elLo d)) (op (elHi a) (elHi b) (elHi d))

/-! ### FP32 arithmetic, minimum, maximum, magnitude and comparison -/

/-- FADD (R359). -/
def execFadd (rm : BitVec 2) (f : WA) (s : State) : Out := .next <|
  plain (.fadd rm f) s (fun s => lanesF s f.pr.toNat f.d.toNat (fun m => fpAddBits fp32 rm.toNat (ftzOf s m) (rdN s m f.a.toNat) (rdN s m f.b.toNat)))

/-- FSUB (R359). -/
def execFsub (rm : BitVec 2) (f : WA) (s : State) : Out := .next <|
  plain (.fsub rm f) s (fun s => lanesF s f.pr.toNat f.d.toNat (fun m => fpSubBits fp32 rm.toNat (ftzOf s m) (rdN s m f.a.toNat) (rdN s m f.b.toNat)))

/-- FMUL (R359). -/
def execFmul (rm : BitVec 2) (f : WA) (s : State) : Out := .next <|
  plain (.fmul rm f) s (fun s => lanesF s f.pr.toNat f.d.toNat (fun m => fpMulBits fp32 rm.toNat (ftzOf s m) (rdN s m f.a.toNat) (rdN s m f.b.toNat)))

/-- FFMA (R359). -/
def execFfma (rm : BitVec 2) (f : WA) (s : State) : Out := .next <|
  plain (.ffma rm f) s (fun s => lanesF s f.pr.toNat f.d.toNat (fun m => fpFmaBits fp32 rm.toNat (ftzOf s m) (rdN s m f.a.toNat) (rdN s m f.b.toNat) (rdN s m f.d.toNat)))

/-- FMIN (R360). -/
def execFmin (f : WA) (s : State) : Out := .next <|
  plain (.fmin f) s (fun s => lanesF s f.pr.toNat f.d.toNat (fun m => fpMinMaxBits fp32 (ftzOf s m) false (rdN s m f.a.toNat) (rdN s m f.b.toNat)))

/-- FMAX (R360). -/
def execFmax (f : WA) (s : State) : Out := .next <|
  plain (.fmax f) s (fun s => lanesF s f.pr.toNat f.d.toNat (fun m => fpMinMaxBits fp32 (ftzOf s m) true (rdN s m f.a.toNat) (rdN s m f.b.toNat)))

/-- FABS (R360). -/
def execFabs (f : WA) (s : State) : Out := .next <|
  plain (.fabs f) s (fun s => lanesF s f.pr.toNat f.d.toNat (fun m => ⟨fpAbsBits fp32 (ftzOf s m) (rdN s m f.a.toNat), 0⟩))

/-- FNEG (R360). -/
def execFneg (f : WA) (s : State) : Out := .next <|
  plain (.fneg f) s (fun s => lanesF s f.pr.toNat f.d.toNat (fun m => ⟨fpNegBits fp32 (ftzOf s m) (rdN s m f.a.toNat), 0⟩))

/-- The comparison of FSET with its flags (R361). -/
def setCompare (s : State) (f : WA) (cond : Nat) : State :=
  let a (m : Nat × Nat) : Fp := fpSource fp32 (ftzOf s m) (rdN s m f.a.toNat)
  let b (m : Nat × Nat) : Fp := fpSource fp32 (ftzOf s m) (rdN s m f.b.toNat)
  forLanes s f.pr.toNat (fun m t =>
    raiseFlags (wrP t m f.d.toNat (fpCompare cond (a m) (b m))) m.1 (if fpIsNaN (a m) || fpIsNaN (b m) then flNV else 0))

/-- FSET.EQ, NE, LT, LE (R361). -/
def execFsetEqToLe (cond : BitVec 2) (f : WA) (s : State) : Out := .next <|
  plain (.fsetEqToLe cond f) s (fun s => setCompare s f cond.toNat)

/-- FSET.GT, GE, UN, OR (R361). -/
def execFsetGtToOr (cond : BitVec 2) (f : WA) (s : State) : Out := .next <|
  plain (.fsetGtToOr cond f) s (fun s => setCompare s f (4 + cond.toNat))

/-! ### Packed BF16 arithmetic -/

/-- HADD2 (R362). -/
def execHadd2 (rm : BitVec 2) (f : WA) (s : State) : Out := .next <|
  plain (.hadd2 rm f) s (fun s => lanesF s f.pr.toNat f.d.toNat (fun m => packed2 (fpAddBits bf16 rm.toNat (ftzOf s m)) (rdN s m f.a.toNat) (rdN s m f.b.toNat)))

/-- HSUB2 (R362). -/
def execHsub2 (rm : BitVec 2) (f : WA) (s : State) : Out := .next <|
  plain (.hsub2 rm f) s (fun s => lanesF s f.pr.toNat f.d.toNat (fun m => packed2 (fpSubBits bf16 rm.toNat (ftzOf s m)) (rdN s m f.a.toNat) (rdN s m f.b.toNat)))

/-- HMUL2 (R362). -/
def execHmul2 (rm : BitVec 2) (f : WA) (s : State) : Out := .next <|
  plain (.hmul2 rm f) s (fun s => lanesF s f.pr.toNat f.d.toNat (fun m => packed2 (fpMulBits bf16 rm.toNat (ftzOf s m)) (rdN s m f.a.toNat) (rdN s m f.b.toNat)))

/-- HFMA2 (R362). -/
def execHfma2 (rm : BitVec 2) (f : WA) (s : State) : Out := .next <|
  plain (.hfma2 rm f) s (fun s => lanesF s f.pr.toNat f.d.toNat (fun m => packed3 (fpFmaBits bf16 rm.toNat (ftzOf s m)) (rdN s m f.a.toNat) (rdN s m f.b.toNat) (rdN s m f.d.toNat)))

/-- HMIN2 (R362). -/
def execHmin2 (f : WA) (s : State) : Out := .next <|
  plain (.hmin2 f) s (fun s => lanesF s f.pr.toNat f.d.toNat (fun m => packed2 (fpMinMaxBits bf16 (ftzOf s m) false) (rdN s m f.a.toNat) (rdN s m f.b.toNat)))

/-- HMAX2 (R362). -/
def execHmax2 (f : WA) (s : State) : Out := .next <|
  plain (.hmax2 f) s (fun s => lanesF s f.pr.toNat f.d.toNat (fun m => packed2 (fpMinMaxBits bf16 (ftzOf s m) true) (rdN s m f.a.toNat) (rdN s m f.b.toNat)))

/-- HABS2 (R362). -/
def execHabs2 (f : WA) (s : State) : Out := .next <|
  plain (.habs2 f) s (fun s => lanesF s f.pr.toNat f.d.toNat (fun m => packed2 (fun x _ => ⟨fpAbsBits bf16 (ftzOf s m) x, 0⟩) (rdN s m f.a.toNat) 0))

/-- HNEG2 (R362). -/
def execHneg2 (f : WA) (s : State) : Out := .next <|
  plain (.hneg2 f) s (fun s => lanesF s f.pr.toNat f.d.toNat (fun m => packed2 (fun x _ => ⟨fpNegBits bf16 (ftzOf s m) x, 0⟩) (rdN s m f.a.toNat) 0))

/-- The two-term dot product plus an FP32 addend, with one rounding (R363). -/
def hdot (mode : Nat) (ftz : Bool) (a b d : Nat) : FRes :=
  let e (x : Nat) : Fp := fpSource bf16 ftz x
  fpDeliver fp32 mode ftz (fpSum mode [fpMul (e (elLo a)) (e (elLo b)), fpMul (e (elHi a)) (e (elHi b)), fpSource fp32 ftz d])

/-- HDOT2 (R363). -/
def execHdot2 (rm : BitVec 2) (f : WA) (s : State) : Out := .next <|
  plain (.hdot2 rm f) s (fun s => lanesF s f.pr.toNat f.d.toNat (fun m => hdot rm.toNat (ftzOf s m) (rdN s m f.a.toNat) (rdN s m f.b.toNat) (rdN s m f.d.toNat)))

/-! ### Conversions -/

/-- CVT.BF16.F32 (R364). -/
def execCvtBf16F32 (rm : BitVec 2) (f : WA) (s : State) : Out := .next <|
  plain (.cvtBf16F32 rm f) s (fun s => lanesF s f.pr.toNat f.d.toNat (fun m => packed (fpDeliver bf16 rm.toNat (ftzOf s m) (fpSource fp32 (ftzOf s m) (rdN s m f.a.toNat))) (fpDeliver bf16 rm.toNat (ftzOf s m) (fpSource fp32 (ftzOf s m) (rdN s m f.b.toNat)))))

/-- CVT.F32.BF16L (R364). -/
def execCvtF32Bf16l (f : WA) (s : State) : Out := .next <|
  plain (.cvtF32Bf16l f) s (fun s => lanesF s f.pr.toNat f.d.toNat (fun m => ⟨fpWiden fp32 (fpSource bf16 (ftzOf s m) (elLo (rdN s m f.a.toNat))), 0⟩))

/-- CVT.F32.BF16H (R364). -/
def execCvtF32Bf16h (f : WA) (s : State) : Out := .next <|
  plain (.cvtF32Bf16h f) s (fun s => lanesF s f.pr.toNat f.d.toNat (fun m => ⟨fpWiden fp32 (fpSource bf16 (ftzOf s m) (elHi (rdN s m f.a.toNat))), 0⟩))

/-- Four BF16 elements to four 8-bit elements (R365). -/
def toEight (f : FFmt) (mode : Nat) (ns : Bool) (a b : Nat) : FRes :=
  let c (x : Nat) : FRes := fpConv8 f mode ns (fpDecode bf16 x)
  let r := [c (elLo a), c (elHi a), c (elLo b), c (elHi b)]
  ⟨leNat (r.map (fun x => BitVec.ofNat 8 x.bits)), r.foldl (fun n x => n ||| x.flags) 0⟩

/-- Two 8-bit elements, from element `i` on, to BF16 (R366). -/
def fromEight (f : FFmt) (i a : Nat) : FRes :=
  let c (k : Nat) : FRes := ⟨fpWiden bf16 (fpDecode f (a / 2 ^ (8 * k) % 256)), 0⟩
  packed (c i) (c (i + 1))

/-- CVT.E4M3.BF16 (R365). -/
def execCvtE4m3Bf16 (rm : BitVec 2) (f : WA) (s : State) : Out := .next <|
  plain (.cvtE4m3Bf16 rm f) s (fun s => lanesF s f.pr.toNat f.d.toNat (fun m => toEight e4m3 rm.toNat (f8nsOf s m) (rdN s m f.a.toNat) (rdN s m f.b.toNat)))

/-- CVT.E5M2.BF16 (R365). -/
def execCvtE5m2Bf16 (rm : BitVec 2) (f : WA) (s : State) : Out := .next <|
  plain (.cvtE5m2Bf16 rm f) s (fun s => lanesF s f.pr.toNat f.d.toNat (fun m => toEight e5m2 rm.toNat (f8nsOf s m) (rdN s m f.a.toNat) (rdN s m f.b.toNat)))

/-- CVT.BF16.E4M3L (R366). -/
def execCvtBf16E4m3l (f : WA) (s : State) : Out := .next <|
  plain (.cvtBf16E4m3l f) s (fun s => lanesF s f.pr.toNat f.d.toNat (fun m => fromEight e4m3 0 (rdN s m f.a.toNat)))

/-- CVT.BF16.E4M3H (R366). -/
def execCvtBf16E4m3h (f : WA) (s : State) : Out := .next <|
  plain (.cvtBf16E4m3h f) s (fun s => lanesF s f.pr.toNat f.d.toNat (fun m => fromEight e4m3 2 (rdN s m f.a.toNat)))

/-- CVT.BF16.E5M2L (R366). -/
def execCvtBf16E5m2l (f : WA) (s : State) : Out := .next <|
  plain (.cvtBf16E5m2l f) s (fun s => lanesF s f.pr.toNat f.d.toNat (fun m => fromEight e5m2 0 (rdN s m f.a.toNat)))

/-- CVT.BF16.E5M2H (R366). -/
def execCvtBf16E5m2h (f : WA) (s : State) : Out := .next <|
  plain (.cvtBf16E5m2h f) s (fun s => lanesF s f.pr.toNat f.d.toNat (fun m => fromEight e5m2 2 (rdN s m f.a.toNat)))

/-- FP32 to a 32-bit integer range, as bits (R48, R367). -/
def toInteger (mode : Nat) (lo hi : Int) (a : Nat) : FRes :=
  let r := fpToIntSat mode lo hi (fpDecode fp32 a)
  ⟨(BitVec.ofInt 32 r.1).toNat, r.2⟩

/-- CVT.S32.F32 (R367). -/
def execCvtS32F32 (rm : BitVec 2) (f : WA) (s : State) : Out := .next <|
  plain (.cvtS32F32 rm f) s (fun s => lanesF s f.pr.toNat f.d.toNat (fun m => toInteger rm.toNat (-(2 ^ 31)) (2 ^ 31 - 1) (rdN s m f.a.toNat)))

/-- CVT.U32.F32 (R367). -/
def execCvtU32F32 (rm : BitVec 2) (f : WA) (s : State) : Out := .next <|
  plain (.cvtU32F32 rm f) s (fun s => lanesF s f.pr.toNat f.d.toNat (fun m => toInteger rm.toNat 0 (2 ^ 32 - 1) (rdN s m f.a.toNat)))

/-- CVT.F32.S32 (R367). -/
def execCvtF32S32 (rm : BitVec 2) (f : WA) (s : State) : Out := .next <|
  plain (.cvtF32S32 rm f) s (fun s => lanesF s f.pr.toNat f.d.toNat (fun m => fpDeliver fp32 rm.toNat false (fpOfInt (rdW s m f.a.toNat).toInt 0)))

/-- CVT.F32.U32 (R367). -/
def execCvtF32U32 (rm : BitVec 2) (f : WA) (s : State) : Out := .next <|
  plain (.cvtF32U32 rm f) s (fun s => lanesF s f.pr.toNat f.d.toNat (fun m => fpDeliver fp32 rm.toNat false (fpOfInt (rdN s m f.a.toNat) 0)))

/-- An INT8 element clamped to INT4, as a nibble (R368). -/
def nibbleOf (x : Nat) : Nat :=
  let v := sextNat x 8
  if v < -8 then 8 else if 7 < v then 7 else x % 16

/-- Eight INT8 elements packed as INT4 (R368). -/
def packNibbles (a b : Nat) : Nat :=
  (upto 8).foldl (fun n i => n + nibbleOf ((if i < 4 then a else b) / 2 ^ (8 * (i % 4)) % 256) * 2 ^ (4 * i)) 0

/-- Four INT4 elements, from element `i` on, sign-extended to INT8 (R368). -/
def spreadNibbles (i a : Nat) : Nat :=
  (upto 4).foldl (fun n k => n + (BitVec.ofInt 8 (sextNat (a / 2 ^ (4 * (k + i)) % 16) 4)).toNat * 2 ^ (8 * k)) 0

/-- CVT.S4.S8 (R368). -/
def execCvtS4S8 (f : WA) (s : State) : Out := .next <|
  plain (.cvtS4S8 f) s (fun s => lanesF s f.pr.toNat f.d.toNat (fun m => ⟨packNibbles (rdN s m f.a.toNat) (rdN s m f.b.toNat), 0⟩))

/-- CVT.S8.S4L (R368). -/
def execCvtS8S4l (f : WA) (s : State) : Out := .next <|
  plain (.cvtS8S4l f) s (fun s => lanesF s f.pr.toNat f.d.toNat (fun m => ⟨spreadNibbles 0 (rdN s m f.a.toNat), 0⟩))

/-- CVT.S8.S4H (R368). -/
def execCvtS8S4h (f : WA) (s : State) : Out := .next <|
  plain (.cvtS8S4h f) s (fun s => lanesF s f.pr.toNat f.d.toNat (fun m => ⟨spreadNibbles 4 (rdN s m f.a.toNat), 0⟩))

/-! ### Special functions -/

/-- FRRED (R370): the reduced angle in w D and the quadrant in w D+1. -/
def execFrred (f : WA) (s : State) : Out := .next <|
  plain (.frred f) s (fun s => forLanes s f.pr.toNat (fun m t =>
    let r := frred (ftzOf s m) (rdN s m f.a.toNat)
    raiseFlags (wrX t m f.d.toNat (joinWords (BitVec.ofNat 32 r.1.bits) (BitVec.ofNat 32 r.2))) m.1 r.1.flags))

/-- FSINR (R371). -/
def execFsinr (f : WA) (s : State) : Out := .next <|
  plain (.fsinr f) s (fun s => lanesF s f.pr.toNat f.d.toNat (fun m => fsincos false (ftzOf s m) (rdN s m f.a.toNat) (rdN s m f.b.toNat)))

/-- FCOSR (R371). -/
def execFcosr (f : WA) (s : State) : Out := .next <|
  plain (.fcosr f) s (fun s => lanesF s f.pr.toNat f.d.toNat (fun m => fsincos true (ftzOf s m) (rdN s m f.a.toNat) (rdN s m f.b.toNat)))

/-- FEXP2 (R372). -/
def execFexp2 (f : WA) (s : State) : Out := .next <|
  plain (.fexp2 f) s (fun s => lanesF s f.pr.toNat f.d.toNat (fun m => Sys2Proof.Machine.fexp2 (ftzOf s m) (rdN s m f.a.toNat)))

/-- FLOG2 (R372). -/
def execFlog2 (f : WA) (s : State) : Out := .next <|
  plain (.flog2 f) s (fun s => lanesF s f.pr.toNat f.d.toNat (fun m => Sys2Proof.Machine.flog2 (ftzOf s m) (rdN s m f.a.toNat)))

/-- FRCP (R372). -/
def execFrcp (f : WA) (s : State) : Out := .next <|
  plain (.frcp f) s (fun s => lanesF s f.pr.toNat f.d.toNat (fun m => Sys2Proof.Machine.frcp (ftzOf s m) (rdN s m f.a.toNat)))

/-- FRSQ (R372). -/
def execFrsq (f : WA) (s : State) : Out := .next <|
  plain (.frsq f) s (fun s => lanesF s f.pr.toNat f.d.toNat (fun m => Sys2Proof.Machine.frsq (ftzOf s m) (rdN s m f.a.toNat)))

/-- FSQRT (R372). -/
def execFsqrt (f : WA) (s : State) : Out := .next <|
  plain (.fsqrt f) s (fun s => lanesF s f.pr.toNat f.d.toNat (fun m => Sys2Proof.Machine.fsqrt (ftzOf s m) (rdN s m f.a.toNat)))

/-! ### Lane exchange -/

/-- The groups a lane exchange numbers its lanes over: the set at set scope, as it stood before the issue, else the lane's own group (R373, 05 R120). -/
def exchangeGroups (s : State) (sc : Nat) (m : Nat × Nat) : List Nat :=
  if sc = 2 then scopeGroups s.srcBlk m.1 2 else [m.1]

/-- N and l of R373. -/
def exchangeSize (s : State) (sc : Nat) (m : Nat × Nat) : Nat := 32 * (exchangeGroups s sc m).length
def exchangeLane (s : State) (sc : Nat) (m : Nat × Nat) : Nat := 32 * ((exchangeGroups s sc m).idxOf m.1) + m.2

/-- The w register of the lane numbered `l` (R373). -/
def exchangeRead (s : State) (sc : Nat) (m : Nat × Nat) (l r : Nat) : Word :=
  rdW s ((exchangeGroups s sc m).getD (l / 32) m.1, l % 32) r

/-- Every guarded lane takes w A of the lane that `src N l` names, or a constant 0 (R374). -/
def exchange (s : State) (sc pr d a : Nat) (src : Nat × Nat → Nat → Nat → Option Nat) : State :=
  lanesW s pr d (fun m =>
    match src m (exchangeSize s sc m) (exchangeLane s sc m) with
    | some l => exchangeRead s sc m l a
    | none => 0)

/-- ILL for a constant that names no lane of the set (R374). -/
def laneLimit (s : State) (sc : Nat) (k : Nat) : Check :=
  match s.cur.members with
  | m :: _ => if exchangeSize s sc m ≤ k then .trap { cause := cILL } else .pass
  | [] => .pass

/-- SOFTERR for a source lane whose w A holds an uncorrectable error (R375, 21 R487). -/
def laneSoft (s : State) (sc pr a : Nat) (src : Nat × Nat → Nat → Nat → Option Nat) : Check :=
  if (guarded s pr).any (fun m =>
      match src m (exchangeSize s sc m) (exchangeLane s sc m) with
      | some l => (s.srcThr ((exchangeGroups s sc m).getD (l / 32) m.1, l % 32)).bad.contains a
      | none => false) then .trap { cause := cSOFTERR, det := 1 }
  else .pass

/-- A lane exchange: its checks and its effect, with the source lane that `src` names. -/
def exchangeWord (i : Instr) (s : State) (sc pr d a : Nat) (limit : State → Check) (src : State → Nat × Nat → Nat → Nat → Option Nat) : State :=
  word i s (fun s => match limit s with | .pass => laneSoft s sc pr a (src s) | c => c) (fun s => exchange s sc pr d a (src s))

/-- LSWP.P (R374). -/
def execLswpP (f : WA) (s : State) : Out := .next <|
  exchangeWord (.lswpP f) s f.sc.toNat f.pr.toNat f.d.toNat f.a.toNat (fun _ => .pass) (fun _ _ _ l => some (l ^^^ 1))

/-- The source of LSHF: l - k, or l itself where that lies outside 0 to N - 1 (R374). -/
def shiftLane (k : BitVec 6) (n l : Nat) : Nat :=
  let t : Int := l - k.toInt
  if 0 ≤ t ∧ t < n then t.toNat else l

/-- LSHF (R374). -/
def execLshf (f : WI) (s : State) : Out := .next <|
  exchangeWord (.lshf f) s f.sc.toNat f.pr.toNat f.d.toNat f.a.toNat (fun _ => .pass) (fun _ _ n l => some (shiftLane f.k n l))

/-- LBCAST (R374). -/
def execLbcast (f : WI) (s : State) : Out := .next <|
  exchangeWord (.lbcast f) s f.sc.toNat f.pr.toNat f.d.toNat f.a.toNat (fun s => laneLimit s f.sc.toNat f.k.toNat) (fun _ _ _ _ => some f.k.toNat)

/-- LXOR (R374): a source beyond the last lane is the lane itself. -/
def execLxor (f : WI) (s : State) : Out := .next <|
  exchangeWord (.lxor f) s f.sc.toNat f.pr.toNat f.d.toNat f.a.toNat (fun s => laneLimit s f.sc.toNat f.k.toNat)
    (fun _ _ n l => some (if l ^^^ f.k.toNat < n then l ^^^ f.k.toNat else l))

/-- LIDX (R374): an index of N or more gives 0. -/
def execLidx (f : WA) (s : State) : Out := .next <|
  exchangeWord (.lidx f) s f.sc.toNat f.pr.toNat f.d.toNat f.a.toNat (fun _ => .pass) (fun s m n _ =>
    if rdN s m f.b.toNat < n then some (rdN s m f.b.toNat) else none)

/-- LROT (R374). -/
def execLrot (f : WI) (s : State) : Out := .next <|
  exchangeWord (.lrot f) s f.sc.toNat f.pr.toNat f.d.toNat f.a.toNat (fun _ => .pass) (fun _ _ n l => some ((l + n - f.k.toNat % n) % n))

end Sys2Proof.Machine
end

