-- ==== Sys2Proof/Machine/Market.lean ====
section
/-!
DEFINITION. The market (07_lease.md R167 to R193): sealing and clearing, placement, publication, the interval boundary, handovers, and the
exchange of prices with peers.
-/

namespace Sys2Proof.Machine

/-- The source number of the clearing engine (01 R34). -/
def clearSrc : Nat := 780

/-! ### The offer (R167, 13 R313) -/

/-- Whether a unit is withdrawn: it is fenced, a cluster not powered up yet (21 R485), or a lane that is not in use or whose port is DOWN, TRAINING or FAILED. -/
def unitWithdrawn (s : State) (cls u : Nat) : Bool :=
  s.power.fenced.contains (unitKey cls u) || (decide (cls = 0) && !(s.power.cl u).powered) ||
  (decide (cls = 4) && (let p := s.port (u / 2); decide (p.st = 0 ∨ p.st = 1 ∨ p.st = 6) || !(if u % 2 = 0 then p.l0 else p.l1)))

def offered (s : State) (cls : Nat) : List Nat := (upto (classUnits cls)).filter (fun u => !unitWithdrawn s cls u)

/-- A unit is withdrawn within an interval: the VF that was charged for it, whose context holds it or awaits its handover, is owed what was
paid (R191). -/
def withdrawUnit (s : State) (cls u : Nat) : State :=
  let x := s.mkt.unit cls u
  if x.withdrawn then s
  else
    let s := s.updMkt (fun m => { m with units := tset m.units (unitKey cls u) { x with withdrawn := true } })
    match x.holder.orElse (fun _ => x.incoming) with
    | some c => s.updVf (s.ctx c).vf (fun v => { v with refund := v.refund + x.paid })
    | none => s

/-! ### Sealing and clearing (R179, R183 to R186) -/

/-- The bids that take part: those of RUNNABLE and RUNNING contexts as they stood before this instant, with a quantity and a price (R176, R179). -/
def sealBids (s : State) : List (Nat × Nat × DWord × Nat) :=
  (tkeys s.ctxs).flatMap (fun c =>
    let x := s.ctx c
    if x.st = .runnable ∨ x.st = .running then
      (upto 5).filterMap (fun k =>
        let b := (x.bid k).before s.gts
        if bidQty b.1 ≠ 0 ∧ bidPrice b.1 ≠ 0 then some (c, k, b.1, b.2) else none)
    else [])

/-- A bid as its class clears it. -/
structure Bidder where
  ctx : Nat
  price : Nat
  wgts : Nat
  want : Nat
  minq : Nat
  cfg : Nat

/-- The commitment of a VF (R184). -/
def commitment (s : State) (bids : List (Nat × Nat × DWord × Nat)) (vf : Nat) : Nat :=
  bids.foldl (fun n b => if (s.ctx b.1).vf = vf then n + bidPrice b.2.2.1 * bidQty b.2.2.1 else n) 0

/-- The order of R185: price downward, then WGTS, then context id. -/
def bidFirst (a b : Bidder) : Bool :=
  decide (b.price < a.price) || (decide (a.price = b.price) && (decide (a.wgts < b.wgts) || (decide (a.wgts = b.wgts) && decide (a.ctx ≤ b.ctx))))

def reserveOf (s : State) (cls : Nat) : Nat := tget 0x100 s.mkt.res cls

/-- The bids of a class with their wanted quantities, in order (R183, R184); `clu` gives the clusters each context won. -/
def biddersOf (s : State) (bids : List (Nat × Nat × DWord × Nat)) (cls : Nat) (clu : Nat → Nat) : List Bidder :=
  sortBy bidFirst (bids.filterMap (fun b =>
    if b.2.1 ≠ cls then none
    else
      let c := b.1
      let v := b.2.2.1
      let com := commitment s bids (s.ctx c).vf
      let bal := (s.vf (s.ctx c).vf).bal
      let qty := if bal < com then bidQty v * bal / com else bidQty v
      let want := if cls = 0 then min qty (s.ctx c).maxclu else if cls = 1 then min qty (28 * clu c) else qty
      if want = 0 ∨ bidPrice v < reserveOf s cls then none
      else some ⟨c, bidPrice v, b.2.2.2, want, max (bidMin v) 1, bidCfg v⟩))

/-- What each bid gets, in order, and what is left (R185). -/
def allotBids : List Bidder → Nat → List (Bidder × Nat) × Nat
  | [], left => ([], left)
  | b :: bs, left =>
    let got := if min b.want left < b.minq then 0 else min b.want left
    let r := allotBids bs (left - got)
    ((b, got) :: r.1, r.2)

/-- The clearing of a class: its winners, its price and FREE (R185). -/
def clearClass (s : State) (cls : Nat) (bs : List Bidder) : List (Bidder × Nat) × Nat × Nat :=
  let r := allotBids bs (offered s cls).length
  let short := r.1.filter (fun e => decide (e.2 < e.1.want))
  (r.1.filter (fun e => decide (0 < e.2)), if short.isEmpty then reserveOf s cls else short.foldl (fun n e => max n e.1.price) 0, r.2)

/-! ### Placement (R187) -/

/-- Units assigned for the coming interval: unit and context. -/
abbrev Seats := List (Nat × Nat)

def leastBy (f : Nat → Nat) (l : List Nat) : Option Nat := l.foldl (fun r u => match r with | none => some u | some v => if f u < f v then some u else r) none

/-- Distance of two clusters on the device's 8 × 8 grid. -/
def clusterDist (a b : Nat) : Nat :=
  let x (c : Nat) : Nat := 4 * (c / 16 % 2) + c % 4
  let y (c : Nat) : Nat := 4 * (c / 16 / 2) + c % 16 / 4
  (max (x a) (x b) - min (x a) (x b)) + (max (y a) (y b) - min (y a) (y b))

/-- Resident groups of a cluster. -/
def clusterGroups (s : State) (cl : Nat) : Nat :=
  (clusterBlocks s cl).foldl (fun n b => n + ((s.blk b).groups.filter (fun e => !e.2.done)).length) 0

/-- Allotted scratchpad units of a bank group. -/
def bankUnits (s : State) (n : Nat) : Nat := ((unitsUsed s).filter (fun u => decide (u / 16 = n / 7 * 8 + n % 7 + 1))).length

/-- The units a context keeps: of those it may use, not those with the least on them, and else the lowest (log 45 for BNK). -/
def keptUnits (s : State) (cls c got : Nat) (clus : List Nat) : List Nat :=
  let us := (heldUnits s c cls).filter (fun u => !unitWithdrawn s cls u && (decide (cls ≠ 1) || clus.contains (clusterOf (u / 7))))
  let w (u : Nat) : Nat := if cls = 0 then clusterGroups s u else if cls = 1 then bankUnits s u else 0
  (sortBy (fun a b => decide (w b < w a) || (decide (w a = w b) && decide (a ≤ b))) us).take got

/-- The die with the most members of a list of clusters, and of equal ones the lowest (log 105). -/
def fullestDie (us : List Nat) : Nat := (leastBy (fun d => us.length - (us.filter (fun u => decide (u / 16 = d))).length) (upto 4)).getD 0

/-- Another cluster: on the die with the most free ones, then nearest to one of its own. -/
def nextCluster (free mine : List Nat) : Option Nat :=
  if mine.isEmpty then
    match free.find? (fun u => u / 16 = fullestDie free) with
    | some u => some u
    | none => free.head?
  else leastBy (fun u => mine.foldl (fun n m => min n (clusterDist u m)) (clusterDist u (mine.headD u))) free

/-- Another bank group: at the core of its clusters that has the fewest. -/
def nextBank (free mine clus : List Nat) : Option Nat :=
  match leastBy (fun k => (mine.filter (fun u => decide (u / 7 = k))).length)
      (sortNat ((clus.flatMap clusterCores).filter (fun k => free.any (fun u => decide (u / 7 = k))))) with
  | some k => free.find? (fun u => u / 7 = k)
  | none => free.head?

/-- Another way: round-robin over the dies, from that of most of its clusters; a die has its turn again when it has no more of the context's
ways than the others (log 45). -/
def nextWay (free mine clus : List Nat) : Option Nat :=
  let dies := ((upto 4).map (fun t => (fullestDie clus + t) % 4)).filter (fun d => free.any (fun u => u / 12 == d))
  match leastBy (fun d => (mine.filter (fun u => decide (u / 12 = d))).length) dies with
  | some d => free.find? (fun u => u / 12 = d)
  | none => none

/-- Another HBM slot: of the channel where it has the fewest. -/
def nextSlot (free mine : List Nat) : Option Nat :=
  match leastBy (fun m => (mine.filter (fun u => decide (u / 8 = m))).length) (sortNat (free.map (· / 8))) with
  | some m => free.find? (fun u => u / 8 = m)
  | none => none

/-- Another lane: of a port where it has one, then of a port that is up, else the lowest (log 105). -/
def nextLane (s : State) (free mine : List Nat) : Option Nat :=
  match free.find? (fun u => mine.any (fun m => m / 2 == u / 2)) with
  | some u => some u
  | none => match free.find? (fun u => decide ((s.port (u / 2)).st = 2 ∨ (s.port (u / 2)).st = 3)) with
    | some u => some u
    | none => free.head?

/-- Another unit of a class for a context. -/
def nextUnit (s : State) (cls c : Nat) (seats : Seats) (clus : List Nat) : Option Nat :=
  let free := (offered s cls).filter (fun u => !seats.any (fun e => e.1 == u))
  let mine := (seats.filter (fun e => e.2 = c)).map Prod.fst
  match cls with
  | 0 => nextCluster free mine
  | 1 => nextBank free mine clus
  | 2 => nextWay free mine clus
  | 3 => nextSlot free mine
  | _ => nextLane s free mine

/-- Places `n` further units. -/
def placeNew (s : State) (cls c : Nat) (clus : List Nat) : Nat → Seats → Seats
  | 0, seats => seats
  | n + 1, seats => match nextUnit s cls c seats clus with
    | some u => placeNew s cls c clus n (seats ++ [(u, c)])
    | none => seats

/-- Seats the winners of a class: what they keep, then new units in the order of the bids (log 45). -/
def placeClass (s : State) (cls : Nat) (wins : List (Bidder × Nat)) (clus : Seats) : Seats :=
  let of_ (c : Nat) : List Nat := sortNat ((clus.filter (fun e => e.2 = c)).map Prod.fst)
  let kept := wins.flatMap (fun w => (keptUnits s cls w.1.ctx w.2 (of_ w.1.ctx)).map (fun u => (u, w.1.ctx)))
  wins.foldl (fun seats w =>
    let n := (seats.filter (fun e => e.2 = w.1.ctx)).length
    placeNew s cls w.1.ctx (of_ w.1.ctx) (w.2 - n) seats) kept

/-- What the winners of a class hold in the coming interval, and pay for each unit (R186). -/
def grantsOf (cls price : Nat) (wins : List (Bidder × Nat)) (seats : Seats) : List Grant :=
  seats.filterMap (fun e => (wins.find? (fun w => w.1.ctx = e.2)).map (fun w => ⟨cls, e.1, e.2, min price w.1.price, w.1.cfg⟩))

/-- Clears and places the classes in the order of R183. -/
def clearAll (s : State) (bids : List (Nat × Nat × DWord × Nat)) : List Grant × List (Nat × Nat) :=
  let r0 := clearClass s 0 (biddersOf s bids 0 (fun _ => 0))
  let clus := placeClass s 0 r0.1 []
  let clu (c : Nat) : Nat := (clus.filter (fun e => e.2 = c)).length
  [1, 2, 3, 4].foldl (fun (acc : List Grant × List (Nat × Nat)) k =>
    let r := clearClass s k (biddersOf s bids k clu)
    (acc.1 ++ grantsOf k r.2.1 r.1 (placeClass s k r.1 clus), acc.2 ++ [r.2])) (grantsOf 0 r0.2.1 r0.1 clus, [r0.2])

/-! ### The migration engine (R193) -/

/-- The gain of moving a context to a peer, where the peer's entry admits it. -/
def moveGain (s : State) (c d : Nat) : Option Int :=
  match tfind s.mkt.peers d with
  | none => none
  | some e =>
    let held (k : Nat) : Nat := (heldUnits s c k).length
    let sum (p : Nat → Nat) : Nat := (upto 5).foldl (fun n k => n + held k * p k) 0
    let here := sum (fun k => match tfind s.mkt.spots k with | some p => p.price | none => 0)
    let there := sum (fun k => e.prices.getD k 0)
    if d = s.devNo ∨ e.prices.length < 5 ∨ 2 * s.mkt.len < (s.gts - e.stamp) / 256000 * 256000 then none
    else if lacksEvents s c d then none
    else if (match tfind (s.ctx c).migBar d with | some n => decide (s.mkt.count < n + 16) | none => false) then none
    else some (16 * ((here : Int) - there) - s.mkt.mcost * (1 + 36 * held 0))

/-- The best destination of a context: gain and device. -/
def bestMove (s : State) (c : Nat) : Option (Int × Nat) :=
  (tkeys s.mkt.peers).foldl (fun (r : Option (Int × Nat)) d => match moveGain s c d, r with
    | some g, some b => if b.1 < g then some (g, d) else r
    | some g, none => some (g, d)
    | none, r => r) none

/-- The moves of this sealing, at most four at once, by gain; before the first clearing there is no local price, and no move (log 89);
of equal gains the lower context goes first (log 106). -/
def chooseMoves (s : State) : List (Nat × Nat) :=
  if !s.mkt.migen || s.mkt.spots.length < 5 then []
  else
    let cands := (tkeys s.ctxs).filterMap (fun c =>
      let x := s.ctx c
      let free : Bool := match x.migLast with | some n => decide (n + 16 ≤ s.mkt.count) | none => true
      if decide (x.st = .runnable ∨ x.st = .running) && (s.vf x.vf).migok && free then
        match bestMove s c with
        | some (g, d) => if (s.mkt.migthr : Int) * 256 < g then some (g, c, d) else none
        | none => none
      else none)
    let busy := (s.ctxs.filter (fun e => decide (e.2.st = .migrating))).length
    ((sortBy (fun (a b : Int × Nat × Nat) => decide (b.1 < a.1) || (decide (a.1 = b.1) && decide (a.2.1 ≤ b.2.1))) cands).take (4 - busy)).map (fun t => t.2)

/-- SEALING (R179, R193). -/
def execSealing (s : State) : Out := .next <|
  let moves := chooseMoves s
  let bids := (sealBids s).filter (fun b => !moves.any (fun m => m.1 == b.1))
  let r := clearAll s bids
  s.updMkt (fun m => { m with sealedBids := bids, moves := moves, grants := r.1, results := r.2 })

/-! ### Publication (R179, R192) -/

/-- The grant of a unit for the coming interval. -/
def grantOf (m : Market) (cls u : Nat) : Option Grant := m.grants.find? (fun g => g.cls == cls && g.unit == u)

/-- Whether a held unit is renewed: granted to its holder again, with the same configuration (R182). -/
def unitRenewed (m : Market) (cls u : Nat) : Bool :=
  match (m.unit cls u).holder, grantOf m cls u with
  | some c, some g => decide (g.ctx = c) && (decide (cls ≠ 1) || decide (g.cfg = (m.unit cls u).cfg))
  | _, _ => false

/-- The units of a context that lapse at T, and those granted to it. -/
def lapsing (s : State) (c cls : Nat) : List Nat := (heldUnits s c cls).filter (fun u => !unitRenewed s.mkt cls u)
def gaining (s : State) (c cls : Nat) : List Nat :=
  ((s.mkt.grants.filter (fun g => decide (g.cls = cls ∧ g.ctx = c))).map Grant.unit).filter (fun u => !unitRenewed s.mkt cls u)

/-- The LAPSE traps of a context's affected blocks (06 R159). -/
def raiseLapse (s : State) (c arg : Nat) (clus banks : List Nat) : State :=
  if !(s.ctx c).nbase.getLsbD 1 then s
  else s.foldl (s.blkIds.filter (fun b => decide ((s.blk b).ctx = c) && blockAffected (s.blk b) clus banks)) (fun t b =>
    t.updBlk b (fun k => { k with groups := tmap (fun _ g => if g.done then g else { g with lapse := g.lapse ++ [arg] }) k.groups }))

/-- The notices of a context for one class. -/
def publishClass (s : State) (c cls : Nat) : State :=
  let ls := lapsing s c cls
  let gs := gaining s c cls
  let s := if ls.isEmpty then s
    else
      let arg := ls.length * 65536 + cls
      let t := notice s c 1 arg clearSrc
      if cls = 0 then raiseLapse t c arg ls [] else if cls = 1 then raiseLapse t c arg [] ls else t
  if gs.isEmpty then s else notice s c 2 (gs.length * 65536 + cls) clearSrc

/-- The background clean of the maps of one block; a line that waits for its page is tried again. A fault is reported by a notice here, and by
another when the lapse meets it again (03 R75, R76; log 83). -/
def cleanBlock (s : State) (b : Nat) : State :=
  if blockAffected (s.blk b) [] (lapsing s (s.blk b).ctx 1) then
    match flushMaps s b with
    | (t, some (va, stage, need)) => waitOn t (t.blk b).ctx va aWB stage need (t.blkCore b) (.publication, { x := 1, y := b })
    | (t, none) => t
  else s

/-- The background clean of the maps of blocks that hold units of lapsing bank groups (03 R75). -/
def backgroundClean (s : State) : State := s.foldl s.blkIds cleanBlock

/-- The price message to every domain peer, on channel 0 of a port of its route mask that carries scale-up traffic (R192, 13 R314, R331): it is never sent again.
It has no line address and no source core: the model takes 0 for both (log 79). -/
def broadcastPrices (s : State) : State :=
  let devs := (upto 576).filter (fun d => decide (d ≠ s.devNo ∧ portFor s d 0 0 ≠ 64))
  let data := natLe 8 (evavOf 0) ++ natLe 8 (evavOf 1)
  s.foldl devs (fun t d => linkSend t (portFor t d 0 0) 0 d ([8, s.gts] ++ s.mkt.results.map Prod.fst ++ s.mkt.results.map Prod.snd) data)

/-- The engine's MIGRATE of one context (R193, 06 R153): dispatch stops now, and the save begins at T. -/
def engineMove (s : State) (m : Nat × Nat) : State :=
  let x := s.ctx m.1
  if x.st ≠ .runnable ∧ x.st ≠ .running ∧ x.st ≠ .suspended then s
  else if lacksEvents s m.1 m.2 || !destinationTakes s m.2 then
    barDestination s.tick m.1 m.2
  else (beginMigrate s.tick m.1 m.2 []).post s.mkt.t 781 .migrate { x := x.vf, y := 2, z := m.1 }

/-- PUBLICATION (R179): x = 1 goes on with the background clean of block y. -/
def execPublication (s : State) : Out := .next <|
  if s.arg.x = 1 then (if s.mkt.published ∧ (s.blk s.arg.y).core.isSome then cleanBlock s s.arg.y else s)
  else if s.mkt.results.isEmpty then s
  else
    let s := s.updMkt (fun m =>
      { m with published := true, spots := (upto 5).map (fun k => let r := m.results.getD k (0, 0); (k, { price := r.1, free := r.2, gts := s.gts })) })
    let cs := (tkeys s.ctxs).filter (fun c => decide ((s.ctx c).st ≠ .free ∧ (s.ctx c).st ≠ .destroyed))
    let s := s.foldl cs (fun t c => t.foldl (upto 5) (fun t k => publishClass t c k))
    let s := broadcastPrices (backgroundClean s)
    (s.foldl s.mkt.moves engineMove).updMkt (fun m => { m with moves := [] })

/-! ### The boundary (R170, R172, R180 to R182) -/

/-- Settles the purse of an enabled VF (R170, 06 R146). -/
def settlePurse (s : State) (n : Nat) : State :=
  if !(s.vf n).en then s
  else
    let charge := s.mkt.grants.foldl (fun k g => if (s.ctx g.ctx).vf = n then k + g.price else k) 0
    s.updVf n (fun v =>
      let b := v.bal + v.refund
      let b := b - min charge b
      { v with bal := min (b + v.rate) (max b v.cap), refund := 0 })

/-- One unit passes T: renewed, or changed with its handover begun. A unit withdrawn since the sealing is charged for the interval that begins,
without a refund for it (log 86). -/
def turnUnit (m : Market) (cls u : Nat) : Market :=
  let x := m.unit cls u
  let g := grantOf m cls u
  let put (y : LUnit) : Market := { m with units := tset m.units (unitKey cls u) y }
  if unitRenewed m cls u then put { x with paid := (g.map Grant.price).getD 0, withdrawn := false }
  else if x.holder.isSome || g.isSome then
    put { holder := none, outgoing := x.holder, incoming := g.map Grant.ctx, cfg := (g.map Grant.cfg).getD 0, handover := true, paid := (g.map Grant.price).getD 0 }
  else if x.withdrawn then put { x with withdrawn := false }
  else m

/-- Units that change at T. -/
def changedUnits (s : State) : List (Nat × Nat) :=
  sortBy (fun a b => decide (unitKey a.1 a.2 ≤ unitKey b.1 b.2))
    ((heldNow ++ granted).eraseDups.filter (fun p => !unitRenewed s.mkt p.1 p.2))
where
  heldNow : List (Nat × Nat) := (s.mkt.units.filter (fun (e : Nat × LUnit) => e.2.holder.isSome)).map (fun (e : Nat × LUnit) => (e.1 / 4096, e.1 % 4096))
  granted : List (Nat × Nat) := s.mkt.grants.map (fun (g : Grant) => (g.cls, g.unit))

/-- The blocks whose work stops at T, with the gangs they belong to (R180, 09 R239). -/
def lapsingBlocks (s : State) : List Nat :=
  let bs := s.blkIds.filter (fun b => let k := s.blk b; blockAffected k (lapsing s k.ctx 0) (lapsing s k.ctx 1))
  let gang (b : Nat) : Option (Nat × Nat) := match (s.blk b).launch with
    | some e => if ((s.ctx (s.blk b).ctx).launch e).bco then some ((s.blk b).ctx, e) else none
    | none => none
  let gs := bs.filterMap gang
  s.blkIds.filter (fun b => (s.blk b).core.isSome && (bs.contains b || (match gang b with | some g => gs.contains g | none => false)))

/-- A context whose leave has ended returns to FREE: its leases are released, its image header is zeroed, and its energy goes to its VF (06 R152
event 14, R163). It waits for the header's page as a save does (06 R151). -/
def freeContext (s : State) (c : Nat) : State :=
  let s := s.foldl (upto 3) (fun t cls => (heldUnits t c cls).foldl (fun t u => cleanUnit t cls u) t)
  let s := s.updMkt (fun m => { m with units := tmap (fun _ u =>
    { u with holder := if u.holder = some c then none else u.holder, incoming := if u.incoming = some c then none else u.incoming }) m.units })
  match writePart s c 0 (List.replicate 64 0) with
  | .wait t va acc stage need => waitOn t c va acc stage need clearSrc (.handoverEnd, { x := 6, y := c })
  | .done s | .bad s =>
    let s := s.tick.updVf (s.ctx c).vf (fun v => { v with freed := v.freed + leasedEnergy s c s.freeCtr, freedServed := v.freedServed + (s.ctx c).served })
    { s with ctxs := tdel s.ctxs c
             page := { s.page with waiters := s.page.waiters.filter (fun w => w.ctx ≠ c), slots := s.page.slots.filter (fun g => g.ctx ≠ c)
                                   tlb := tmap (fun _ ts => ts.filter (fun t => t.ctx ≠ c)) s.page.tlb
                                   ptrs := tmap (fun _ ps => ps.filter (fun q => q.ctx ≠ c)) s.page.ptrs, requested := s.page.requested.filter (fun r => r.1 ≠ c) } }

/-- The state of a context after its units have passed T (06 R152 events 3, 4 and 14). -/
def turnContext (s : State) (c : Nat) : State :=
  let x := s.ctx c
  if x.st = .destroyed then freeContext s c
  else if x.st = .running ∧ !holdsCluster s c then kickQueues (s.updCtx c (fun x => { x with st := .runnable })) c
  else if x.st = .runnable ∧ holdsCluster s c then goState s c .running
  else s

/-- The timetable of the interval that ends at the market's T. -/
def scheduleInterval (s : State) : State :=
  let t := s.mkt.t
  ((s.post (t - 40000) clearSrc .sealing).post (t - 20000) clearSrc .publication).post t clearSrc .intervalBoundary

/-- INTERVAL_BOUNDARY (R170, R172, R180). The interval in which a peer's entry came counts among its 64 (R192, log 90). -/
def execIntervalBoundary (s : State) : Out := .next <|
  let changed := changedUnits s
  let blocks := lapsingBlocks s
  let cores := sortNat ((blocks.map s.blkCore) ++ (changed.filter (fun p => decide (p.1 = 0))).flatMap (fun p => clusterCores p.2))
  let leaving := (tkeys s.ctxs).map (fun c => (c, (lapsing s c 0).flatMap clusterCores))
  let s := s.foldl (upto 64) settlePurse
  let s := s.updPower (fun p => { p with errs := [] })
  let all : List (Nat × Nat) := (changed ++ s.mkt.units.map (fun (e : Nat × LUnit) => (e.1 / 4096, e.1 % 4096))).eraseDups
  let s := s.updMkt (fun m => all.foldl (fun m p => turnUnit m p.1 p.2) m)
  let s := s.foldl (blocks.map (fun b => (s.blk b).ctx)) (fun t c => t.updCtx c (fun x => { x with imgDue := true }))
  let s := s.foldl blocks (fun t b => (trySave t b false false).1)
  let s := s.foldl leaving (fun t e => resumePackets (t.foldl e.2 (fun t n => pullPackets t e.1 n false)) e.1)
  let s := s.foldl cores (fun t n => t.foldl (upto 7) (fun t q => t.post (t.gts + 20000) n .engineOperationStop { x := n, y := q }))
  let s := s.foldl changed (fun t p =>
    (t.tick).post (t.gts + 1 + Config.extraLatency t.freeCtr % 25000) clearSrc .handoverEnd { x := p.1, y := p.2, z := t.gts + 25000 })
  let s := s.foldl (tkeys s.ctxs) turnContext
  let len := 250000 * (s.mkt.ilen + 1)
  let old := s.mkt.peers.filter (fun e => decide (e.2.received + 64 ≤ s.mkt.count + 1))
  let s := s.foldl old (fun t e => t.post t.gts clearSrc .peerPriceEntryExpiry { x := e.1 })
  scheduleInterval (s.updMkt (fun m =>
    { m with published := false, grants := [], results := [], sealedBids := [], len := len, t := (s.gts / len + 1) * len, count := m.count + 1 }))

/-! ### Handover (R181) -/

/-- Writes the image of a context whose blocks were saved at a lapse (06 R153, R152 event 12). -/
def imageAfterLapse (s : State) (c : Nat) : State :=
  let x := s.ctx c
  if !x.imgDue || x.saving || decide (x.st = .free ∨ x.st = .destroyed) || (residentBlocks s c).any (fun b => (s.blk b).stopped) then s
  else match writeImage s c with
    | .done t => pokeContext (t.updCtx c (fun x => { x with imgDue := false })) c
    | .wait t va acc stage need => waitOn t c va acc stage need clearSrc (.handoverEnd, { x := 5, y := c })
    | .bad t => imageFault (t.updCtx c (fun x => { x with imgDue := false })) c true []

/-- The blocks that still stand on a unit in handover. -/
def unitBlocks (s : State) (cls u : Nat) : List Nat :=
  if cls = 0 then s.blkIds.filter (fun b => blockAffected (s.blk b) [u] [])
  else if cls = 1 then s.blkIds.filter (fun b => blockAffected (s.blk b) [] [u])
  else []

/-- A unit that changes its holder is zeroed: the scratchpad units of a bank group, or those of a cluster's register files. -/
def zeroUnit (s : State) (cls u : Nat) : State :=
  let gone (k : Nat) : Bool :=
    if cls = 1 then decide (k / 65536 / 16 = u / 7 * 8 + u % 7 + 1)
    else cls == 0 && decide (k / 65536 / 16 % 8 = 0) && (clusterCores u).contains (k / 65536 / 128)
  if 1 < cls then s else { s with sram := s.sram.filter (fun c => !gone c.1) }

/-- A context's holding of a cluster begins: its samplers count afresh (22 R495). -/
def beginHolding (s : State) (c u : Nat) : State :=
  let v := (s.ctx c).smpctl
  if v.getLsbD 0 then s.foldl (clusterCores u) (fun t n => armSampler t n (samplePeriod v)) else s

/-- The end of a unit's handover (R181, 06 R152 event 3); what its last holder had in its caches is written back and invalidated (03 R69,
R180). -/
def endHandover (s : State) (cls u : Nat) : State :=
  let x := s.mkt.unit cls u
  let s := zeroUnit s cls u
  let s := if x.outgoing.isSome then cleanUnit s cls u else s
  let s := s.updMkt (fun m => { m with units := tset m.units (unitKey cls u) { x with holder := x.incoming, outgoing := none, incoming := none, handover := false } })
  match x.incoming with
  | none => s
  | some c =>
    let s := s.updCtx c (fun x => { x with leased := true })
    let s := if cls = 0 then beginHolding s c u else s
    if cls = 0 ∧ (s.ctx c).st = .runnable then goState s c .running
    else if (s.ctx c).st = .running then resumePackets (pokeContext s c) c else s

/-- HANDOVER_END (R181): it waits until the work of R180 on the unit is done, but not beyond z, 25 µs after T, when what still waits is saved as
it stands (log 77). x = 5 tries the image of context y again, and x = 6 the end of context y. -/
def execHandoverEnd (s : State) : Out := .next <|
  let a := s.arg
  if a.x = 5 then imageAfterLapse s a.y
  else if a.x = 6 then (if (s.ctx a.y).st = .destroyed then freeContext s a.y else s)
  else if !(s.mkt.unit a.x a.y).handover then s
  else
    let bs := unitBlocks s a.x a.y
    let due := decide (a.z ≤ s.gts)
    let s := s.foldl bs (fun t b => if due && exiting t b then exitNow t b else (trySave t b due due).1)
    if (unitBlocks s a.x a.y).isEmpty then
      let s := s.foldl (tkeys s.ctxs) imageAfterLapse
      endHandover s a.x a.y
    else s.post (min (s.gts + 1000) (max a.z (s.gts + 1))) clearSrc .handoverEnd a

/-! ### The peer price table (R192) -/

/-- PRICE_EXCHANGE_RECEIVED (R192). The operands: the device, its stamp, five prices and five FREE counts; `data` holds the two masks. -/
def execPriceExchangeReceived (s : State) : Out :=
  let a := s.arg
  if 576 ≤ a.x then .fault (.noSuchObject "device" a.x)
  else .next <|
    let e : PeerPrice :=
      { stamp := a.y, received := s.mkt.count, prices := a.l.take 5, free := (a.l.drop 5).take 5
        evav0 := BitVec.ofNat 64 (leNat (a.data.take 8)), evav1 := BitVec.ofNat 64 (leNat ((a.data.drop 8).take 8)) }
    match tfind s.mkt.peers a.x with
    | some o => if o.stamp < a.y then s.updMkt (fun m => { m with peers := tset m.peers a.x e }) else s
    | none => s.updMkt (fun m => { m with peers := tset m.peers a.x e })

/-- PEER_PRICE_ENTRY_EXPIRY (R192). -/
def execPeerPriceEntryExpiry (s : State) : Out := .next <|
  match tfind s.mkt.peers s.arg.x with
  | some e => if e.received + 64 ≤ s.mkt.count then s.updMkt (fun m => { m with peers := tdel m.peers s.arg.x }) else s
  | none => s

end Sys2Proof.Machine
end

