-- ==== Sys2Proof/Machine/Link.lean ====
section
/-!
DEFINITION. Scale-up ports (13_link.md R311 to R315), peer requests at their home and their answers (R318 to R320), the host link
(01_device.md R29, 08_queue.md R200), the reads that clear, and GTS synchronisation (01 R33).
-/

namespace Sys2Proof.Machine

/-- The source number of a port (01 R34). -/
def portSrc (p : Nat) : Nat := 800 + p

/-! ### Changes of state (R313, R314, R319) -/

/-- Devices that a change of ports or routes has left without a usable port: they become unreachable 2 ms later (R314). -/
def noteLost (old s : State) : State :=
  let lost := (upto 576).filter (fun d => !(usablePorts old d).isEmpty && (usablePorts s d).isEmpty)
  s.foldl lost (fun t d => { t with noPort := tset t.noPort d t.gts }.post (t.gts + 2000000) (1024 + d) .deviceUnreachable { x := d })

/-- Where a request not acknowledged goes when a port changes state (R319): from that port to another usable one; with no other it stays while the port
carries traffic or completes what is outstanding, and waits for a port else. One that waits takes any usable port. -/
def newPort (s : State) (p : Nat) (r : PeerReq) : Nat :=
  if r.port = 64 then portFor s r.home r.pa r.core
  else if r.port ≠ p then r.port
  else
    let others := (usablePorts s r.home).filter (· ≠ p)
    if !others.isEmpty then portAmong others r.pa r.core
    else if (s.port p).carries || decide ((s.port p).st = 5) then p
    else 64

/-- Requests not acknowledged on a port, or waiting for one, are sent again on another usable port (R319). -/
def resendRequests (s : State) (p : Nat) : State :=
  s.foldl s.peerReqs (fun t r =>
    let q := newPort t p r
    if q = r.port then t
    else
      let r' : PeerReq := { r with port := q }
      transmitReq { t with peerReqs := t.peerReqs.map (fun x => if x = r then r' else x) } r')

/-- Sends an answer to a peer on the response channel (R316): over a port that is DRAINING where no other is usable, and later where there is none. -/
def sendAnswerTo (s : State) (dev core : Nat) (hdr : List Nat) (data : List Byte) : State :=
  let p := portAmong (answerPorts s dev) 0 core
  if p = 64 then { s with peerHeld := s.peerHeld ++ [(dev, core, hdr, data)] } else linkSend s p 1 dev hdr data

/-- Answers that found no port are sent once there is one. -/
def sendHeld (s : State) : State := s.foldl s.peerHeld (fun t h => sendAnswerTo { t with peerHeld := t.peerHeld.drop 1 } h.1 h.2.1 h.2.2.1 h.2.2.2)

/-- What follows any change of a port: lanes out of use are withdrawn and refunded, routes are looked at, requests are sent again. -/
def portChanged (old s : State) (p : Nat) : State :=
  let s := s.foldl [2 * p, 2 * p + 1] (fun t u => if !unitWithdrawn old 4 u && unitWithdrawn t 4 u then withdrawUnit t 4 u else t)
  sendHeld (resendRequests (noteLost old s) p)

/-- A training attempt begins; its outcome is the link partner's and comes within 50 ms (R313, log 47). -/
def beginAttempt (s : State) (p : Nat) : State :=
  let ch (k : Nat) : Nat := Config.choice (70 + k) s.freeCtr
  let s := { s with agenda := s.agenda.filter (fun (e : Event) => !(decide (e.ev = Instr.trainingAttemptEnd) && e.arg.x == p)) }
  (s.tick).post (s.gts + 1 + ch 0 % 50000000) (portSrc p) .trainingAttemptEnd
    { x := p, y := ch 1 % 2, z := ch 2 % 2, u := ch 3 % 1024, l := [ch 4 % 2] }

/-- A port moves to a state. -/
def movePort (s : State) (p st : Nat) (f : Port → Port) : State :=
  let t := s.updPort p (fun k => { f k with st := st })
  portChanged s t p

/-- A port moves to TRAINING. -/
def trainPort (s : State) (p : Nat) : State := beginAttempt (movePort s p 1 (fun k => { k with l0 := false, l1 := false, valid := false, fails := 0, bad := [] })) p

/-- A port moves to DOWN. -/
def downPort (s : State) (p : Nat) : State := movePort s p 0 (fun k => { k with l0 := false, l1 := false, valid := false, drain := false })

/-- A port moves to DRAINING. -/
def drainPort (s : State) (p : Nat) (drain : Bool) : State :=
  (movePort s p 5 (fun k => { k with drain := drain, since := s.gts })).post (s.gts + 1) (portSrc p) .drainingEnd { x := p }

/-- Whether a port's state carries traffic (R312). -/
def Port.isUp (k : Port) : Bool := k.st == 2 || k.st == 3 || k.st == 4

/-- A port event on a port that the device has. -/
def onPort (s : State) (f : Nat → State) : Out :=
  if 64 ≤ s.arg.x then .fault (.noSuchObject "port" s.arg.x) else .next (f s.arg.x)

/-- PORT_ENABLE (R313). -/
def execPortEnable (s : State) : Out := onPort s (fun p =>
  let s := s.updPort p (fun k => { k with en := true })
  if (s.port p).st = 0 then trainPort s p else s)

/-- PORT_DISABLE (R313). -/
def execPortDisable (s : State) : Out := onPort s (fun p =>
  let s := s.updPort p (fun k => { k with en := false })
  if (s.port p).isUp then drainPort s p false
  else if (s.port p).st = 1 ∨ (s.port p).st = 6 then downPort s p
  else s)

/-- RETRAIN (R313). -/
def execRetrain (s : State) : Out := onPort s (fun p => if (s.port p).st = 4 ∨ (s.port p).st = 6 then trainPort s p else s)

/-- PORT_DRAIN (R313). -/
def execPortDrain (s : State) : Out := onPort s (fun p => if (s.port p).isUp then drainPort s p true else s)

/-- TRAINING_ATTEMPT_END (R313). -/
def execTrainingAttemptEnd (s : State) : Out := onPort s (fun p =>
  let a := s.arg
  let k := s.port p
  let up (k : Port) : Port :=
    { k with l0 := decide (a.y = 1), l1 := decide (a.z = 1), valid := true, sw := decide (a.l.headD 0 = 1), dev := a.u % 1024, fails := 0, bad := [] }
  if k.st ≠ 1 then s
  else if a.y = 1 ∧ a.z = 1 then movePort s p (if k.mode = 0 then 2 else 3) up
  else if a.y = 1 ∨ a.z = 1 then movePort s p 4 up
  else if 2 ≤ k.fails then movePort s p 6 (fun k => { k with fails := 3 })
  else beginAttempt (s.updPort p (fun k => { k with fails := k.fails + 1 })) p)

/-- The retry buffer is sent again on the lanes that remain (R313). -/
def replayBuffer (s : State) (p : Nat) : State := { s with peerOut := s.peerOut ++ (s.port p).buf.map (fun f => (2048 + p, [14, f.1], f.2)) }

/-- LANE_FAILURE (R313): a lane in use fails; the port degrades, or trains again when it was the last one. -/
def execLaneFailure (s : State) : Out := onPort s (fun p =>
  let k := s.port p
  let lane := s.arg.y
  let used := if lane = 0 then k.l0 else k.l1
  let drop (k : Port) : Port := { (if lane = 0 then { k with l0 := false } else { k with l1 := false }) with bad := k.bad.filter (fun b => b.1 ≠ lane) }
  if !used then s
  else if k.st = 2 ∨ k.st = 3 then replayBuffer (movePort s p 4 drop) p
  else if k.st = 4 then trainPort s p
  else s)

/-- Whether traffic is outstanding on a port: requests to peers that are not acknowledged, messages, fragments and images among them, and requests of its
send queues. -/
def portBusy (s : State) (p : Nat) : Bool :=
  s.peerReqs.any (fun r => r.port == p) ||
    s.cores.any (fun c => match tget [] c.2.engQ 5 with
      | o :: _ => o.away && decide (bits (s.nsq (lrNsq o.lrec)).cfg 5 0 = p)
      | [] => false)

/-- DRAINING_END (R313): the end of the traffic is looked for every microsecond. -/
def execDrainingEnd (s : State) : Out := onPort s (fun p =>
  let k := s.port p
  if k.st ≠ 5 then s
  else if !portBusy s p || decide (k.since + 1000000 ≤ s.gts) then (if k.en && k.drain then trainPort s p else downPort s p)
  else s.post (min (s.gts + 1000) (k.since + 1000000)) (portSrc p) .drainingEnd { x := p })

/-! ### Flits (R315) -/

/-- Adds to a saturating count. -/
def satAdd (n k w : Nat) : Nat := min (n + k) (2 ^ w - 1)

/-- An uncorrectable flit is counted, requested again, and 16 of a lane within 1 ms fail the lane (R313, R315). -/
def badFlit (s : State) (p lane : Nat) : State :=
  let s := s.updPort p (fun k => { k with fecu := satAdd k.fecu 1 16, bad := (k.bad.filter (fun b => decide (s.gts < b.2 + 1000000))) ++ [(lane, s.gts)] })
  let s := { s with peerOut := s.peerOut ++ [(2048 + p, [13, (s.port p).rx], [])] }
  if 16 ≤ ((s.port p).bad.filter (fun b => b.1 = lane)).length then s.postOnce s.gts (portSrc p) .laneFailure { x := p, y := lane } else s

/-- Whether 256 bytes are a flit whose CRC holds (R315). -/
def flitGood (bs : List Byte) : Bool := decide (bs.length = 256 ∧ leNat ((bs.drop 244).take 4) = crc32c (bs.take 244))

/-- FLIT_RECEIVED (R315): `data` is the flit as FEC leaves it, y the lane it came on and z the symbols corrected. Flits are delivered in sequence, exactly once;
one from further on asks for the missing one. -/
def execFlitReceived (s : State) : Out := onPort s (fun p =>
  let a := s.arg
  let k := s.port p
  if !(k.st == 2 || (k.st == 5 && k.mode == 0) || (k.st == 4 && k.mode == 0)) then s
  else
    let s := s.updPort p (fun k => { k with fecc := satAdd k.fecc a.z 32 })
    let seq := leNat (a.data.take 2) % 4096
    if !flitGood a.data then badFlit s p a.y
    else if seq = k.rx then s.updPort p (fun k => { k with rx := (k.rx + 1) % 4096, got := k.got ++ [(a.data.drop 4).take 240] })
    else if (seq + 4096 - k.rx) % 4096 < 2048 then { s with peerOut := s.peerOut ++ [(2048 + p, [13, k.rx], [])] }
    else s)

/-- LINK_RETRY_REQUEST (R315): the flit it names, and those after it, which the partner has discarded, are sent again while the buffer holds it. -/
def execLinkRetryRequest (s : State) : Out := onPort s (fun p =>
  let fs := (s.port p).buf.dropWhile (fun f => f.1 ≠ s.arg.y % 4096)
  ({ s with peerOut := s.peerOut ++ fs.map (fun (f : Nat × List Byte) => (2048 + p, [14, f.1], f.2)) }).updPort p (fun k => { k with rtry := satAdd k.rtry fs.length 16 }))

/-- A message, a fragment or a migration's word that a peer has acknowledged, or that finds its home unreachable (R322, R323, 18 R433). -/
def namedAnswer (s : State) (r : PeerReq) (lost : Bool) : State :=
  if r.kind = kMESSAGE then
    let s := s.leaveSends r.core r.blk r.j r.id
    if lost then answerHere s r.blk r.j r.id amUNREACH 0 else s
  else if r.kind = kFRAGMENT ∧ ((s.engQ r.core 6).head?.map EngOp.id) = some r.id then
    s.postOnce s.gts r.core .engineOperationComplete { x := r.core, y := 6 }
  else s

/-- A request is answered, or its home is unreachable. -/
def requestAnswer (s : State) (r : PeerReq) (refused : Bool) (data : List Byte) : State :=
  if r.kind < kMESSAGE then peerAnswer s r refused data else namedAnswer s r refused

/-- DEVICE_UNREACHABLE (R314, 04 R117): what waits for the device fails with REMOTE. -/
def execDeviceUnreachable (s : State) : Out :=
  let d := s.arg.x
  if 576 ≤ d then .fault (.noSuchObject "device" d)
  else if peerUp s d then .next s
  else
    let rs := s.peerReqs.filter (fun r => r.home == d)
    let s := { s with peerReqs := s.peerReqs.filter (fun r => r.home != d) }
    let s := s.foldl rs (fun t r => requestAnswer t r true [])
    let s := s.foldl (s.cores.filterMap (fun c => match tget [] c.2.engQ 6 with | o :: _ => if o.begun then some c.1 else none | [] => none))
      (fun t n => t.postOnce t.gts n .engineOperationComplete { x := n, y := 6 })
    .next (s.foldl ((tkeys s.ctxs).filter (fun c => decide ((s.ctx c).st = .migrating ∧ (s.ctx c).migDest = d)))
      (fun t c => t.postOnce t.gts 781 .migrationAborted { x := c }))

/-! ### Peer requests (R318 to R320) -/

/-- Whether the home refuses a request (R320): control space, a line lost to a soft error, a plane window, which is never the requester's. -/
def peerRefused (s : State) (pa size : Nat) : Bool :=
  pa.testBit 39 || s.badLines.contains (domAddr s.devNo pa / 128) || windowBars s 64 pa size true

/-- Performs one request at its home: the outcome and the state after it (R318). -/
def performPeer (s : State) (kind pa size : Nat) (data : List Byte) : Bool × List Byte × State :=
  if peerRefused s pa size then (true, [], s)
  else
  let s := touchHome s none pa size (decide (kind ≠ 0))
  if kind = 0 then (false, physRead s s.devNo pa size, s)
  else if kind = 1 then (false, [], physWrite s s.devNo pa (data.take size))
  else
    let old := physRead s s.devNo pa size
    (false, old, match atomNew (kind - 2) (leNat old) (leNat (data.take 8)) (leNat (data.drop 8)) with
      | some v => physWrite s s.devNo pa (natLe size v)
      | none => s)

/-- The core whose copy engine slice takes a fragment of a context's collective (R330): the one on which it runs, else the one on which it waits its turn, else
the first core of a cluster that the context holds. -/
def fragCore (s : State) (ctx cid : Nat) : Nat :=
  match collCore s ctx cid with
  | some n => n
  | none =>
    match (tkeys s.cores).find? (fun n => (s.engQ n 6).any (fun o => decide ((s.blk o.blk).ctx = ctx ∧ lrCid o.lrec = cid))) with
    | some n => n
    | none => (packetCore s ctx).getD 0

/-- A request that names no location reaches its home (R319, R323, R330, 06 R154): it has its event at once. An image and the answer to one stand in
`incoming` and on the agenda (log 16). -/
def performNamed (s : State) (dev core kind : Nat) (info : List Nat) (data : List Byte) : State :=
  let at_ (k : Nat) : Nat := info.getD k 0
  let src := 1024 + dev
  if kind = kMESSAGE then
    s.post s.gts src .messageArrival { x := dev, y := at_ 0, z := core, u := at_ 1, l := [at_ 2, at_ 3, at_ 4, at_ 5], v := BitVec.ofNat 64 (at_ 6), data := data }
  else if kind = kFRAGMENT then
    s.post s.gts src .collFragmentArrival
      { x := fragCore s (at_ 0) (at_ 1), y := at_ 1, z := at_ 2, u := at_ 3, v := BitVec.ofNat 64 (at_ 0), l := info.drop 4, data := data }
  else if kind = kSTATUS then
    s.post s.gts src .messageAnswerArrival { x := at_ 0, y := at_ 1, z := at_ 2, u := at_ 3, v := BitVec.ofNat 64 (leNat data) }
  else if kind = kABORT then s.post s.gts src .migrationAborted { x := at_ 0, y := 1, z := dev, u := at_ 1 }
  else s

def State.peerIn (s : State) (dev core : Nat) : PeerIn :=
  match s.peerIns.find? (fun p => p.dev == dev && p.core == core) with | some p => p | none => { dev := dev, core := core }

def State.putPeerIn (s : State) (p : PeerIn) : State :=
  { s with peerIns := s.peerIns.filter (fun q => !(q.dev == p.dev && q.core == p.core)) ++ [p] }

/-- Answers a request. -/
def answerPeer (s : State) (dev core seq : Nat) (refused : Bool) (data : List Byte) : State :=
  sendAnswerTo s dev core [15, core, seq, b2n refused] data

/-- What a request does at its home, and its answer: an access of a location, of at most 128 bytes, or one that names something else. -/
def performRequest (s : State) (dev core kind : Nat) (l : List Nat) (data : List Byte) : Bool × List Byte × State :=
  if kind < kMESSAGE then performPeer s kind (l.getD 0 0) (min (l.getD 1 0) 128) data else (false, [], performNamed s dev core kind (l.drop 2) data)

/-- Performs the requests of one source core that are next in its order (R319). -/
def servePeerN : Nat → State → Nat → Nat → State
  | 0, s, _, _ => s
  | fuel + 1, s, dev, core =>
    let p := s.peerIn dev core
    match p.early.find? (fun r => r.1 = p.next) with
    | none => s
    | some r =>
      let o := performRequest s dev core r.2.1 r.2.2.1 r.2.2.2
      let p' : PeerIn := { p with next := (p.next + 1) % 2 ^ 32, early := p.early.filter (fun x => x.1 ≠ r.1), outs := p.outs ++ [(r.1, o.1, o.2.1)] }
      servePeerN fuel (answerPeer (o.2.2.putPeerIn p') dev core r.1 o.1 o.2.1) dev core

/-- PEER_REQUEST_ARRIVAL (R318 to R320): a duplicate gets its first outcome, a request that overtook an earlier one waits for it. -/
def execPeerRequestArrival (s : State) : Out := .next <|
  let a := s.arg
  let p := s.peerIn a.x a.y
  match p.outs.find? (fun o => o.1 = a.z) with
  | some o => answerPeer s a.x a.y a.z o.2.1 o.2.2
  | none =>
    if p.early.any (fun r => r.1 = a.z) then s
    else servePeerN (p.early.length + 1) (s.putPeerIn { p with early := p.early ++ [(a.z, a.u, a.l, a.data)] }) a.x a.y

/-- PEER_RESPONSE_ARRIVAL (R318): the first answer of a request counts. -/
def execPeerResponseArrival (s : State) : Out := .next <|
  let a := s.arg
  match s.peerReqs.find? (fun r => r.home == a.x && r.core == a.y && r.seq == a.z) with
  | none => s
  | some r => requestAnswer { s with peerReqs := s.peerReqs.filter (· ≠ r) } r (decide (a.u = 1)) a.data

/-! ### Reads that clear (R311, R333, 21 R478) -/

/-- Privilege and VF of a function of the host link: virtual function n is guest kernel of VF n, function 64 the hypervisor's (01 R29). -/
def hostPriv (n : Nat) : Nat := if n = 64 then 2 else 1
def hostVf (n : Nat) : Option Nat := if n = 64 then none else some n

/-- A read of `n` bytes of control space by a function of the host link: the data goes back to the host, zero for one below the least privilege,
which clears nothing (00 R9). -/
def hostReads (s : State) (fn pa n : Nat) : State :=
  let r := ctrlRead s pa n (hostPriv fn) (hostVf fn)
  { r.2 with hostOut := r.2.hostOut ++ [(pa, r.1)] }

/-- A read of one of the registers that have a read event: by the physical function with y = 0, by virtual function y - 1 else (01 R29). -/
def hostRead (s : State) (pa : Nat) : State := hostReads s (if s.arg.y = 0 then 64 else s.arg.y - 1) pa 8

/-- Control space, with bit 39 set (01 R26). -/
def ctrlBase : Nat := 4 * 2 ^ 37

/-- PERR_READ (R311). -/
def execPerrRead (s : State) : Out := onPort s (fun p => hostRead s (ctrlBase + 0x8_0000 + 64 * p + 24))

/-- PDISC_READ (R311). -/
def execPdiscRead (s : State) : Out := onPort s (fun p => hostRead s (ctrlBase + 0x8_0000 + 64 * p + 32))

/-- NSQ_NDISC_READ (R333). -/
def execNsqNdiscRead (s : State) : Out :=
  if 64 ≤ s.arg.x then .fault (.noSuchObject "send queue" s.arg.x) else .next (hostRead s (ctrlBase + 0x8_3000 + 64 * s.arg.x + 56))

/-! ### The host link (01 R29, 08 R200) -/

/-- Lets the event posted last go ahead of those posted before it, so that host-link writes are performed in order (08 R200). -/
def hurryLast (n : Nat) (s : State) : State :=
  if s.agenda.length = n then s else { s with agenda := s.agenda.drop n ++ s.agenda.take n }

/-- HOST_LINK_WRITE (08 R200, 01 R29, 03 R86): function 64 is the physical function. A plane window and control space at another width or
alignment take nothing. With u = 1 it is a read of z bytes, behind the link's writes that have not been applied yet.
An address below 2^39 is a physical one, also for a virtual function (log 102). -/
def execHostLinkWrite (s : State) : Out :=
  let a := s.arg
  if 64 < a.x then .fault (.noSuchObject "function" a.x)
  else if s.power.tripped then .next s
  else if a.u = 1 then .next <|
    if !a.y.testBit 39 then
      let pa := a.y % 2 ^ 40
      let lost := s.badLines.any (fun l => decide (l * 128 < domAddr s.devNo pa + a.z ∧ domAddr s.devNo pa < l * 128 + 128))
      if windowBars s a.x pa a.z false || lost then s else { s with hostOut := s.hostOut ++ [(a.y, physRead s s.devNo pa a.z)] }
    else if (a.z ≠ 4 ∧ a.z ≠ 8) ∨ a.y % a.z ≠ 0 then s
    else if ctrlPending s hostSrc then s.post s.gts hostSrc .hostLinkWrite a
    else hostReads s a.x (a.y % 2 ^ 40) a.z
  else if a.y.testBit 39 then
    let ok := (a.data.length = 4 ∨ a.data.length = 8) ∧ a.y % a.data.length = 0
    .next (if ok then hurryLast s.agenda.length (ctrlWrite s (a.y % 2 ^ 40) a.data (hostPriv a.x) (hostVf a.x) hostSrc) else s)
  else .next (if windowBars s 64 (a.y % 2 ^ 40) a.data.length true then s
    else touchHome (dropPlanes (physWrite s s.devNo (a.y % 2 ^ 40) a.data) (a.y % 2 ^ 40) a.data.length) none (a.y % 2 ^ 40) a.data.length true)

/-- HOST_LINK_TRAINING (01 R29): the rates and widths that Gyold supports. -/
def execHostLinkTraining (s : State) : Out := .next <|
  let a := s.arg
  if [640, 320, 160, 80, 50, 25].contains a.x && [4, 2, 1].contains a.y then s.updPower (fun p => { p with hostRate := a.x, hostWidth := a.y }) else s

/-! ### Global time (01 R33) -/

/-- GTS_SYNCHRONISATION (01 R33): the first takes the master's time unless that would go backwards; a later one is slewed. The device with
the lowest number of the domain is the master. -/
def execGtsSynchronisation (s : State) : Out := .next <|
  let m := s.arg.x
  if s.devNo = 0 then s
  else if !s.synced then { s with synced := true, gts := max s.gts m, slew := if m < s.gts then (m : Int) - s.gts else 0 }
  else { s with slew := (m : Int) - s.gts }

end Sys2Proof.Machine
end

