-- ==== Sys2Proof/Machine/Observe.lean ====
section
/-!
DEFINITION. The debug window (20_observe.md R460 to R465), trace records and notices as events (R466 to R468, 06_context.md R158), sampling
(R469, 22 R495) and the counting of each fc (R470, R471).
-/

namespace Sys2Proof.Machine

/-! ### The debug window -/

/-- Whether a write of a debug window is discarded (R460). -/
def debugLocked (s : State) (c priv : Nat) : Bool := (s.ctx c).dbgctl.getLsbD 8 && decide (priv < 2)

/-- Releases every stop that a test names, as RUN does. -/
def releaseAll (s : State) (c : Nat) (p : Stop → Bool) : State := s.foldl ((s.ctx c).stops.filter p) (fun t q => releaseGroup t q false)

/-- DBGCTL_WRITE (R460): ARM written 0 releases every stop, HALT written 0 the halt stops. LOCK is written at hypervisor privilege alone, and keeps
its value otherwise (R9, R458). -/
def execDbgctlWrite (s : State) : Out := .next <|
  let c := s.arg.x
  if debugLocked s c s.arg.y then s
  else
    let v := if 2 ≤ s.arg.y then s.arg.v &&& 0x10F else (s.arg.v &&& 0xF) ||| ((s.ctx c).dbgctl &&& 0x100)
    let s := s.updCtx c (fun x => { x with dbgctl := v })
    if !v.getLsbD 0 then releaseAll s c (fun _ => true)
    else if !v.getLsbD 1 then releaseAll s c (fun p => p.kind == 4)
    else s

/-- DREL_RUN (R463). -/
def execDrelRun (s : State) : Out := .next <|
  match (s.ctx s.arg.x).stops with
  | p :: _ => releaseGroup s p false
  | [] => s

/-- DREL_STEP (R463). -/
def execDrelStep (s : State) : Out := .next <|
  match (s.ctx s.arg.x).stops with
  | p :: _ => releaseGroup s p true
  | [] => s

/-- The held group that DACC names: block and group (R465). -/
def daccGroup (s : State) (c : Nat) : Option (Nat × Nat) :=
  let v := (s.ctx c).dacc
  (residents s (fld v 47 40)).find? (fun p =>
    decide ((s.blk p.1).ctx = c) && (s.grp p.1 p.2).slot == fld v 39 34 && (s.grp p.1 p.2).dbgStop)

/-- BADREG, by kind, number and direction (R465). -/
def daccBad (g : Group) (kind num : Nat) (wr : Bool) (data : DWord) : Bool :=
  match kind with
  | 0 => decide (32 ≤ num) || (decide (16 ≤ num) && g.xgran.isNone)
  | 1 => decide (16 ≤ num)
  | 2 => decide (3 ≤ num)
  | 3 => wr && decide (data.toNat % 4 ≠ 0 ∨ data.toNat / 2 ^ 48 ≠ 0)
  | 4 => match sregInfo num with
    | some r => wr && r.write == 4
    | none => true
  | _ => true

/-- The end of a register access of the debugger. -/
def daccEnd (s : State) (c status : Nat) : State :=
  s.updCtx c (fun x => { x with dacc := (x.dacc &&& 0x4000_FFFF_FFFF_FFFF) ||| BitVec.ofNat 64 (status * 2 ^ 48) })

/-- The access that DACC asks for, once it is checked (R465): block, group, lane, kind and number. -/
def daccAccess (s : State) (c priv : Nat) (wr : Bool) (f : State → Nat → Nat → Nat → Nat → Nat → State) : State :=
  let v := (s.ctx c).dacc
  let kind := fld v 23 20
  let num := fld v 15 0
  match daccGroup s c with
  | none => daccEnd s c 1
  | some p =>
    if daccBad (s.grp p.1 p.2) kind num wr (s.ctx c).ddata then daccEnd s c 2
    else
      let need := match kind, sregInfo num with | 4, some r => if wr then r.write else r.read | _, _ => 0
      if priv < need then daccEnd s c 3 else daccEnd (f s p.1 p.2 (fld v 33 29) kind num) c 0

/-- The value of a register of a held group. -/
def daccValue (s : State) (b j l kind num priv : Nat) : Nat :=
  let g := s.grp b j
  match kind with
  | 0 => ((g.th l).rw num).toNat
  | 1 => (g.rg num).toNat
  | 2 => b2n ((g.th l).rp num)
  | 3 => (g.th l).pc.toNat
  -- 10 R249, R260: a debugger reads the state of the group, which a thread of it always reads as 1
  | _ => let v := sregRead s b j l num priv
    if num = 4 then groupState (s.blk b) g * 2 ^ 28 + v % 2 ^ 28 else v

/-- DACC_READ (R465). -/
def execDaccRead (s : State) : Out := .next <|
  let c := s.arg.x
  daccAccess s c s.arg.y false (fun s b j l kind num =>
    let v := BitVec.ofNat 64 (daccValue s b j l kind num s.arg.y)
    s.updCtx c (fun x => { x with ddata := v }))

/-- DACC_WRITE (R465): a system register is written as MTS writes it. -/
def execDaccWrite (s : State) : Out := .next <|
  let c := s.arg.x
  let data := (s.ctx c).ddata
  daccAccess s c s.arg.y true (fun s b j l kind num =>
    match kind with
    | 0 => s.updThr b j l (fun t => t.ww num (loWord data))
    | 1 => s.updGrp b j (fun g => { g with g := tset g.g num (loWord data) })
    | 2 => s.updThr b j l (fun t => t.wp num (data.getLsbD 0))
    | 3 => s.updThr b j l (fun t => { t with pc := data.setWidth 48 })
    | _ => sregWrite s b j l num (if sregWide num then data else data &&& 0xFFFF_FFFF) s.arg.y)

/-! ### Records (R466 to R468, 06 R158) -/

/-- TRACE_RECORD_WRITE (R466 to R468). -/
def execTraceRecordWrite (s : State) : Out := .next <|
  let a := s.arg
  traceWrite s a.x a.y a.z a.u (a.l.getD 0 0) (a.l.getD 1 0) (a.l.getD 2 0)

/-- NOTICE_APPEND (06 R157, R158): a notice, or, without a code, the records that waited for a page of their ring. -/
def execNoticeAppend (s : State) : Out := .next <|
  let a := s.arg
  if a.y = 0 then ringRetry s a.x else noticeAt s a.x a.y a.z a.u (a.l.headD s.gts)

/-! ### Stall reasons and samples (R469, R471) -/

/-- The reason a group that is not eligible is charged to: the first of R471 that applies. -/
def stallReason (s : State) (b j : Nat) : Nat :=
  let k := s.blk b
  let g := k.grp j
  let st := groupState k g
  if k.stopped then 12
  else if st = 7 ∨ g.trap.isSome then 11
  else if st = 3 then 3
  else if st = 4 then 4
  else match g.wait with
    | .feed _ _ _ => 13
    | .sleep _ | .promise _ _ _ _ => 5
    | .xacq | .sdecl _ _ _ _ => 6
    | .promiseWait _ => 14
    | _ =>
      if g.stall = 5 ∧ s.gts < g.notBefore then 5
      else if st = 2 then 1
      else if (s.core (k.core.getD 0)).entering.any (fun e => decide (e.2.blk = b ∧ e.2.j = j)) then 14
      else if issueWaits s b j then (if g.stall = 0 then 8 else g.stall)
      else if g.stall = 0 then 8 else g.stall

/-- The groups of a context resident on a core; exited ones do not count (22 R495). -/
def ownResidents (s : State) (c core : Nat) : List (Nat × Nat) :=
  (residents s core).filter (fun p => decide ((s.blk p.1).ctx = c ∧ groupState (s.blk p.1) (s.grp p.1 p.2) ≠ 9))

/-- The context that holds a core. -/
def coreHolder (s : State) (core : Nat) : Option Nat := (s.mkt.unit 0 (clusterOf core)).holder

/-- The group sampled next: the lowest slot from a bound on, wrapping to the lowest (22 R495). -/
def sampleGroup (s : State) (ps : List (Nat × Nat)) (bound : Nat) : Option (Nat × Nat) :=
  let slot (p : Nat × Nat) : Nat := (s.grp p.1 p.2).slot
  let low (l : List (Nat × Nat)) : Option (Nat × Nat) := l.foldl (fun r p => match r with
    | none => some p
    | some q => if slot p < slot q then some p else some q) none
  match low (ps.filter (fun p => decide (bound ≤ slot p))) with
  | some p => some p
  | none => low ps

/-- The eligible groups of a core in this fc. -/
def eligibleNow (s : State) (core : Nat) : List (Nat × Nat) := if (s.core core).elig.1 = s.gts then (s.core core).elig.2 else []

/-- CLASS and REASON of a sample (R469). -/
def sampleClass (s : State) (core b j : Nat) : Nat × Nat :=
  if (s.core core).chosen = some (s.gts, b, j) then (0, 0)
  else if (eligibleNow s core).contains (b, j) then (1, 15)
  else (2, stallReason s b j)

/-- A sample record (R469). -/
def sampleRec (s : State) (c core b j slot lane pc kid : Nat) : List Byte :=
  let r := sampleClass s core b j
  natLe 8 s.gts ++ natLe 8 (pc % 2 ^ 48 + lane % 32 * 2 ^ 48) ++
    natLe 8 ((eligibleNow s core).length % 128 * 2 ^ 5 + r.1 * 2 ^ 12 + r.2 * 2 ^ 14 + slot % 64 * 2 ^ 18 + core % 256 * 2 ^ 24 +
      (s.core core).smpDrop % 2 ^ 32 * 2 ^ 32) ++
    natLe 8 (kid % 2 ^ 32 + c % 4096 * 2 ^ 32)

/-- Writes a sample, or counts it as dropped. -/
def putSample (s : State) (c core : Nat) (bs : List Byte) : State :=
  let full := (ringPlace (s.ctx c) 3).isNone
  let s := ringWrite s c 3 core bs
  s.updCore core (fun k => { k with smpDrop := if full then satAdd k.smpDrop 1 32 else 0 })

/-- Takes the sample of a core's countdown: the group, its lane and its PC as they stand, and the record after the choice of the fc. -/
def beginSample (s : State) (c core : Nat) : State :=
  match sampleGroup s (ownResidents s c core) (s.core core).smpSlot with
  | none => s
  | some p =>
    let k := s.blk p.1
    let g := k.grp p.2
    let lane := haltLane g
    let kid := if k.launch.isNone then 0xFFFF_FFFF else k.kid
    (s.updCore core (fun x => { x with smpSlot := g.slot + 1 })).post s.gts core .sampleTake
      { x := core, y := 1, z := p.1, u := p.2, l := [g.slot, lane, (g.th lane).pc.toNat, kid] }

/-- SAMPLE_TAKE (R469, 22 R495): at the end of the countdown, which is loaded again. -/
def execSampleTake (s : State) : Out :=
  let a := s.arg
  if 256 ≤ a.x then .fault (.noSuchObject "core" a.x)
  else .next <|
    match coreHolder s a.x with
    | none => s
    | some c =>
      let x := s.ctx c
      if !x.smpctl.getLsbD 0 then s
      else if a.y = 1 then putSample s c a.x (sampleRec s c a.x a.z a.u (a.l.getD 0 0) (a.l.getD 1 0) (a.l.getD 2 0) (a.l.getD 3 0))
      else
        let s := s.post (s.gts + samplePeriod x.smpctl) a.x .sampleTake { x := a.x }
        if x.smpbase.getLsbD 4 then beginSample s c a.x else s

/-! ### The counting of an fc (R470, R471) -/

/-- The bucket event of an eligible count. -/
def bucketCode (n : Nat) : Nat := if n < 4 then 0x10 + n else if n < 8 then 0x14 else if n < 16 then 0x15 else 0x16

/-- Counts one fc of a held core for its context. -/
def countCore (s : State) (c core : Nat) : State :=
  let n := (eligibleNow s core).length
  let s := countEvent (countEvent s c 0x02 1) c (bucketCode n) 1
  match if n = 0 then oldest s (ownResidents s c core) else none with
  | some p => countEvent s c (0x20 + stallReason s p.1 p.2) 1
  | none => s

/-- The events of R470 that arise in parts of which the manual gives no state: their counts advance by free amounts (log 50). -/
def freeCodes : List Nat := [0x40, 0x70]

/-- Whether a session of a context counts. -/
def counting (x : Ctx) : Bool := x.st == .running && x.sessions.any (fun e => e.2.isOpen && e.2.run)

/-- Counts one fc for every context that has a session running. -/
def countTick (s : State) : State :=
  s.foldl ((s.ctxs.filter (fun e => counting e.2)).map Prod.fst) (fun t c =>
    let t := t.foldl ((heldUnits t c 0).flatMap clusterCores) (fun t n => countCore t c n)
    t.foldl freeCodes (fun t k => countEvent t c k (Config.choice 50 (256 * t.gts + k))))

end Sys2Proof.Machine
end

