-- ==== Sys2Proof/Machine/Power.lean ====
section
/-!
DEFINITION. Power, heat and trust (21_power.md R477 to R490): sensors, supply, throttling, excursions, telemetry, the thermal trip, power-up,
soft errors, boot and attestation.
-/

namespace Sys2Proof.Machine

/-- The source number of the thermal controller (01 R34). -/
def thermalSrc : Nat := 782

/-! ### Sensors and excursions (R477, R483, R488) -/

/-- A 16-bit two's-complement temperature. -/
def tempOf (t : Nat) : Int := sextNat t 16

/-- A cluster's readings: temperature, and power as its 1 ms average (log 14). -/
def sampleCluster (s : State) (n : Nat) : State :=
  s.updCl n (fun k => { k with temp := Config.sensor n s.gts % 65536, pwr := Config.sensor (64 + n) s.gts % 4096 })

/-- The hottest cluster's temperature. -/
def hottest (p : Power) : Nat := (upto 64).foldl (fun m n => if tempOf m < tempOf (p.cl n).temp then (p.cl n).temp else m) (p.cl 0).temp

/-- SENSOR_SAMPLE (R477, R483, R488): the readings, then what they bring about. -/
def execSensorSample (s : State) : Out := .next <|
  let s := s.foldl (upto 64) sampleCluster
  let fast := Config.sensor 129 s.gts
  let hot := (if s.gts % 100000000 = 0 then 0 else s.power.hot) + (if s.power.plim < fast then 1 else 0)
  let s := s.updPower (fun p => { p with tmax := hottest p, pwr := Config.sensor 128 s.gts % 65536, hot := hot })
  let s := if 2100 < fast ∨ 10000 ≤ hot then s.postOnce s.gts thermalSrc .powerExcursion else s
  let s := if 7680 ≤ tempOf s.power.tmax then s.postOnce s.gts thermalSrc .thermalTrip else s
  s.post (s.gts + 1000) thermalSrc .sensorSample

/-! ### Supply and throttling (R480 to R484) -/

/-- The leakage-aware point of a cluster in mV: a value fixed by its calibration word, temperature and ratio (R480, log 14). -/
def supplyPoint (k : Cluster) (n : Nat) : Nat :=
  let ratio := if k.level = 5 then 0 else 2
  max 600 (min 900 (Config.choice 80 (n + 64 * (k.temp + 65536 * ratio))))

/-- The supply slews by at most 5 mV per µs. -/
def slewTo (v p : Nat) : Nat := if v < p then min p (v + 50) else max p (v - 50)

/-- SUPPLY_UPDATE (R480). -/
def execSupplyUpdate (s : State) : Out := .next <|
  let s := s.foldl (upto 64) (fun t n => t.updCl n (fun k => if k.powered then { k with vmv := slewTo k.vmv (supplyPoint k n) } else k))
  s.post (s.gts + 10000) thermalSrc .supplyUpdate

/-- Whether a cluster is among the hottest quarter by power; of equal ones the lower number counts as hotter. -/
def hotQuarter (p : Power) (n : Nat) : Bool :=
  decide (((upto 64).filter (fun m => decide ((p.cl n).pwr < (p.cl m).pwr ∨ ((p.cl n).pwr = (p.cl m).pwr ∧ m < n)))).length < 16)

/-- Pass count and ratio of a level under a ceiling (R481, R482). -/
def applyLevel (k : Cluster) : Cluster :=
  let cap := min k.rcap 2
  let own := if k.level ≤ 2 then 2 else if k.level = 3 then 1 else 0
  { k with cap := cap, ratio := min own cap, pass := min k.level 2 }

/-- The new level of a cluster at an evaluation (R481). -/
def nextLevel (p : Power) (n : Nat) : Nat :=
  let k := p.cl n
  let lim : Int := 64 * p.tlim
  if lim < tempOf k.temp || (decide (p.plim < p.pwr) && hotQuarter p n) then min 5 (k.level + 1)
  else if tempOf k.temp < lim - 128 && decide (100 * p.pwr < 95 * p.plim) then k.level - 1
  else k.level

/-- THROTTLE_EVALUATION (R481, R482): levels stay as an excursion has set them until its hold ends. -/
def execThrottleEvaluation (s : State) : Out := .next <|
  let p := s.power
  let s := s.foldl (upto 64) (fun t n => t.updCl n (fun k => applyLevel (if p.hold = 0 then { k with level := nextLevel p n } else k)))
  s.post (s.gts + 10000) thermalSrc .throttleEvaluation

/-- POWER_EXCURSION (R483). -/
def execPowerExcursion (s : State) : Out := .next <|
  let s := s.foldl (upto 64) (fun t n => t.updCl n (fun k => applyLevel { k with level := max 2 k.level }))
  let s := (s.unpost .excursionHoldEnd).updPower (fun p => { p with hold := s.gts + 1000000 })
  s.post (s.gts + 1000000) thermalSrc .excursionHoldEnd

/-- EXCURSION_HOLD_END (R483). -/
def execExcursionHoldEnd (s : State) : Out := .next <| s.updPower (fun p => if p.hold ≤ s.gts then { p with hold := 0 } else p)

/-! ### Telemetry (R479) -/

/-- The period of TSNAP in ns. -/
def snapPeriod (v : DWord) : Nat := 1000000 * 2 ^ fld v 3 1

/-- Places the next snapshot, if snapshots are enabled. -/
def armSnapshot (s : State) : State :=
  let s := s.unpost .telemetrySnapshot
  let v := s.power.tsnap
  if v.getLsbD 0 then s.post ((s.gts / snapPeriod v + 1) * snapPeriod v) thermalSrc .telemetrySnapshot else s

/-- TELEMETRY_SNAPSHOT (R479): 520 bytes, read at one instant. -/
def execTelemetrySnapshot (s : State) : Out := .next <|
  if s.power.tsnap.getLsbD 0 then
    let bs := natLe 8 (ctrlValue s (.power 1)) ++ (upto 64).flatMap (fun n => natLe 8 (ctrlValue s (.clth n)))
    armSnapshot { s with hostOut := s.hostOut ++ [(fld s.power.tsnap 63 9 * 512, bs)] }
  else s

/-! ### The thermal trip and reset (R488) -/

/-- What outlasts a reset of the device: time, memory and what has left it. -/
def afterReset (s : State) : State :=
  { gts := s.gts, synced := s.synced, slew := s.slew, devNo := s.devNo, mem := s.mem, badLines := s.badLines, sram := s.sram
    msix := s.msix, hostOut := s.hostOut, peerOut := s.peerOut, freeCtr := s.freeCtr, nextId := s.nextId }

/-- THERMAL_TRIP (R488): every context is lost, and the device is held in reset. -/
def execThermalTrip (s : State) : Out := .next <|
  (({ afterReset s with msix := s.msix ++ [(64, 0)] }).updPower (fun p => { p with tripped := true, trip := true }))

/-- FUNCTION_LEVEL_RESET (R488): the device leaves the reset that a trip holds it in. -/
def execFunctionLevelReset (s : State) : Out := .next <|
  if s.power.tripped then
    let t := ((s.gts + 40000) / 1000000 + 1) * 1000000
    let r := { afterReset s with agenda := bootAgenda s.gts t }
    (r.updMkt (fun m => { m with t := t })).updPower (fun p => { p with trip := true })
  else s

/-! ### Power-up (R485) -/

/-- POWER_UP (R485): the next cluster follows 4 µs later. -/
def execPowerUp (s : State) : Out :=
  let n := s.arg.x
  if 64 ≤ n then .fault (.noSuchObject "cluster" n)
  else
    let s := s.updCl n (fun k => { k with powered := true, since := s.gts, vmv := supplyPoint k n })
    let s := s.foldl (clusterCores n) idleCore
    .next (if n < 63 then s.post (s.gts + 4000) thermalSrc .powerUp { x := n + 1 } else s)

/-! ### Soft errors (R486, R487) -/

/-- CORRECTED_SOFT_ERROR (R486). -/
def execCorrectedSoftError (s : State) : Out := .next <| s.updPower (fun p => { p with corr := satAdd p.corr 1 32 })

/-- An error of a unit: the second one within an interval fences it (R487). -/
def unitError (s : State) (key : Nat) : State :=
  let n := tget 0 s.power.errs key + 1
  let s := s.updPower (fun p => { p with errs := tset p.errs key n })
  if 2 ≤ n ∧ !s.power.fenced.contains key then
    withdrawUnit (s.updPower (fun p => { p with fenced := p.fenced ++ [key] })) (key / 4096) (key % 4096)
  else s

/-- UNCORRECTABLE_SOFT_ERROR (R487). -/
def execUncorrectableSoftError (s : State) : Out := .next <|
  let a := s.arg
  let s := s.updPower (fun p => { p with unc := satAdd p.unc 1 16 })
  let s := if a.u = 0 then s else unitError s (a.u - 1)
  match a.x with
  | 0 => if thas s.blks a.y && thas (s.blk a.y).groups a.z then
      s.updThr a.y a.z (a.l.getD 0 0) (fun t => { t with bad := insertNat (a.l.getD 1 0) t.bad }) else s
  | 1 => if thas s.blks a.y then s.updBlk a.y (fun k => { k with tiles := tset k.tiles a.z { k.tile a.z with st := 3 } }) else s
  | 2 => { s with badLines := insertNat (domAddr s.devNo (a.y % 2 ^ 40) / 128) s.badLines }
  | _ => partitionReset s a.y

/-- SERCNT_READ (R478). -/
def execSercntRead (s : State) : Out := .next <| hostRead s (ctrlBase + 0x6_0018)

/-! ### Boot and attestation (R489, R490) -/

/-- A measurement: 256 bits (log 15). -/
def measurement (k : Nat) : Nat := (upto 4).foldl (fun n i => n + (Config.attest (4 * k + i)).toNat * 2 ^ (64 * i)) 0

/-- BOOT (R489). -/
def execBoot (s : State) : Out := .next <|
  let cfg := Config.bootVerified 0
  let mods := Config.bootVerified 1
  s.updPower (fun p => { p with booted := true, bootst := b2n cfg + 2 * b2n mods, shut := !(cfg && mods)
                                meas := (upto 3).map (fun k => (k, measurement k)) })

/-- ATTESTATION_REQUEST (R490): the report follows within 20 ms, under the source number of log 101. -/
def execAttestationRequest (s : State) : Out := .next <|
  ((s.updPower (fun p => { p with attGo := true })).tick).post (s.gts + 1 + Config.extraLatency s.freeCtr % 20000000) thermalSrc .attestationReportWritten

/-- Free words as bytes: `n` words from an index on. -/
def attestBytes (n frm : Nat) : List Byte := (upto n).flatMap (fun i => natLe 8 (Config.attest (frm + i)).toNat)

/-- The signed part of the report (R490). -/
def reportBody (s : State) : List Byte :=
  natLe 8 (0x4759_0004 * 2 ^ 32 + (Config.maker 0).toNat % 65536) ++ (upto 4).flatMap (fun k => natLe 8 (tget 0 s.power.att k).toNat) ++
    (upto 3).flatMap (fun k => natLe 32 (tget 0 s.power.meas k)) ++ attestBytes 164 16

/-- ATTESTATION_REPORT_WRITTEN (R490): an address in HBM is written there, any other one at the host (log 48). -/
def execAttestationReportWritten (s : State) : Out := .next <|
  let addr := (tget 0 s.power.att 4).toNat / 4096 * 4096
  let bs := reportBody s ++ (attestBytes 303 (1024 * (s.freeCtr + 1))).take 2420
  let s := (s.updPower (fun p => { p with attGo := false })).tick
  if addr < 2 ^ 39 then physWrite s s.devNo addr bs else { s with hostOut := s.hostOut ++ [(addr, bs)] }

end Sys2Proof.Machine
end

