-- ==== Sys2Proof/Machine/Register.lean ====
section
/-!
DEFINITION. Writes of control-space registers that are no event of their own (00_scope.md R6): each register's writable fields, and what a
write starts. The rule of each register stands at its case.
-/

namespace Sys2Proof.Machine

/-- Sets the masked bits of a value. -/
def keepBits (old new mask : DWord) : DWord := (old &&& ~~~mask) ||| (new &&& mask)

/-- CCMD (06 R148): a write while GO reads 1 is discarded; GO starts the command that OP names. The order of the STATUS causes is the model's
(log 87). -/
def writeCcmd (s : State) (n priv : Nat) (v : DWord) : State :=
  if (s.vf n).go then s
  else
    let op := fld v 7 0
    let s := s.updVf n (fun k => { k with cctx := fld v 43 32, cop := op, go := v.getLsbD 63 })
    let run (i : Instr) : State := s.post s.gts hostSrc i { x := n }
    if !v.getLsbD 63 then s
    else if !(s.vf n).en then finishCommand s n 2
    else match op with
      | 1 => run .create
      | 2 => run .activate
      | 3 => run .suspend
      | 4 => run .resume
      | 5 => run .destroy
      | 6 => if priv < 2 then finishCommand s n 1 else run .migrate
      | _ => finishCommand s n 1

/-- WDOG (08 R226): the contexts of the VF are checked from now on. -/
def writeWdog (s : State) (n ms : Nat) : State :=
  let s := s.updVf n (fun k => { k with wdog := ms })
  s.foldl ((tkeys s.ctxs).filter (fun c => decide ((s.ctx c).vf = n) && outstanding (s.ctx c))) armWatchdog

/-- A word of a command window (06 R148, 08 R226, 12 R300). -/
def writeWindow (s : State) (n w priv : Nat) (v : DWord) : State :=
  match w with
  | 0 => writeCcmd s n priv v
  | 1 => s.updVf n (fun k => { k with carg := fld v 47 6 * 64 })
  | 3 => writeWdog s n (fld v 15 0)
  | 4 => s.updVf n (fun k => { k with prqBase := v &&& 0x0000_FFFF_FFFF_F0F1 })
  | 5 => s.updVf n (fun k => { k with prqTail := fld v 31 16 })
  | _ => s

/-- MKTCFG (07 R171): reserve prices two to a word from word 2 on. -/
def writeMktcfg (s : State) (w : Nat) (v : DWord) : State :=
  match w with
  | 0 => s.updMkt (fun m => { m with ilen := fld v 5 0, migen := v.getLsbD 9, migthr := fld v 63 32 })
  | 1 => s.updMkt (fun m => { m with mcost := fld v 31 0 })
  | w => s.updMkt (fun m =>
      let r := tset m.res (2 * (w - 2)) (fld v 31 0)
      { m with res := if w = 4 then r else tset r (2 * (w - 2) + 1) (fld v 63 32) })

/-- PURSE (07 R169). -/
def writePurse (s : State) (n w : Nat) (v : DWord) : State :=
  s.updVf n (fun k => match w with
    | 0 => { k with bal := v.toNat }
    | 1 => { k with rate := v.toNat }
    | 2 => { k with cap := v.toNat }
    | _ => { k with migok := v.getLsbD 1 })

/-- TLBIH (12 R310). -/
def writeTlbih (s : State) (w : Nat) (v : DWord) : State :=
  if s.page.tlbihGo then s
  else if w = 0 then s.updPage (fun p => { p with tlbihA := v })
  else
    let s := s.updPage (fun p => { p with tlbihC := v &&& 0x003F_FFFF, tlbihGo := v.getLsbD 63 })
    if v.getLsbD 63 then s.post s.gts hostSrc .tlbih else s

/-- PMOV (12 R306). -/
def writePmov (s : State) (w : Nat) (v : DWord) : State :=
  if s.page.pmovGo then s
  else if w < 3 then s.updPage (fun p => { p with pmov := tset p.pmov w (if w = 1 then v &&& 0x3F else v) })
  else if v.getLsbD 63 then (s.updPage (fun p => { p with pmovGo := true })).post s.gts hostSrc .pageMove
  else s

/-- GUTCFG (12 R301): BASE stays while EN = 1. -/
def writeGutcfg (s : State) (v : DWord) : State :=
  s.updPage (fun p => { p with gutEn := v.getLsbD 0, gutBase := if p.gutEn then p.gutBase else fld v 31 20 * 2 ^ 28 })

/-- A value within bounds. -/
def clampTo (lo hi v : Nat) : Nat := max lo (min hi v)

/-- The power block (21 R478, R479). -/
def writePower (s : State) (w : Nat) (v : DWord) : State :=
  match w with
  | 0 => s.updPower (fun p => { p with plim := clampTo 600 1800 (fld v 27 16), tlim := clampTo 85 105 (fld v 15 8) })
  | 2 => armSnapshot (s.updPower (fun p => { p with tsnap := v &&& 0xFFFF_FFFF_FFFF_FE0F }))
  | _ => s

/-- ATTREQ (21 R490). -/
def writeAttreq (s : State) (w : Nat) (v : DWord) : State :=
  if s.power.attGo then s
  else if w < 4 then s.updPower (fun p => { p with att := tset p.att w v })
  else
    let s := s.updPower (fun p => { p with att := tset p.att 4 (v &&& 0xFFFF_FFFF_FFFF_F000), attGo := v.getLsbD 0 })
    if v.getLsbD 0 then s.post s.gts hostSrc .attestationRequest else s

/-- PCTL and PMAC (13 R311): MODE is written in DOWN and FAILED alone; EN and CMD are events of the port. -/
def writePort (s : State) (p w : Nat) (v : DWord) : State :=
  match w with
  | 0 =>
    let go (s : State) (i : Instr) : State := s.post s.gts (portSrc p) i { x := p }
    let s := if (s.port p).st = 0 ∨ (s.port p).st = 6 then s.updPort p (fun k => { k with mode := fld v 1 1 }) else s
    let s := go s (if v.getLsbD 0 then .portEnable else .portDisable)
    if fld v 7 6 = 1 then go s .retrain else if fld v 7 6 = 2 then go s .portDrain else s
  | 2 => s.updPort p (fun k => { k with mac := fld v 47 0 })
  | _ => s

/-- A route mask (13 R314): devices may lose their last port, and requests may find one. -/
def writeRoute (s : State) (d : Nat) (v : DWord) : State :=
  sendHeld (resendRequests (noteLost s { s with routes := tset s.routes d v }) 64)

/-- The writable bits of a word of a send queue (13 R333). -/
def nsqMask (w : Nat) : Nat :=
  match w with
  | 0 => 0xFFFF_E03F
  | 2 | 3 => 0xFFFF_FFFF_FFFF_FFFF
  | 5 => 0xFFFF_FFFF_FFFF_0000
  | 6 => 0xFFFF_FF00_0000_0000
  | 7 => 0xFF
  | _ => 0

/-- A word of a send queue. -/
def writeNsq (s : State) (n w : Nat) (v : DWord) : State :=
  s.updNsq n (fun k =>
    let old := bits k.cfg (64 * w + 63) (64 * w)
    { k with cfg := k.cfg - old * 2 ^ (64 * w) + (v.toNat &&& nsqMask w) * 2 ^ (64 * w) })

/-- The staged words of a format range register (03 R84). -/
def writeFrr (s : State) (n w : Nat) (v : DWord) : State :=
  let f := s.frrAt n
  { s with frr := tset s.frr n (match w with | 1 => { f with s1 := v } | 2 => { f with s2 := v } | _ => { f with s3 := v }) }

/-- The debug window but for DBGCTL (20 R460, R463, R465). -/
def writeDebug (s : State) (c w priv : Nat) (v : DWord) : State :=
  if debugLocked s c priv then s
  else match w with
    | 8 =>
      if v.toNat % 4 = 1 then s.post s.gts hostSrc .drelRun { x := c }
      else if v.toNat % 4 = 2 then s.post s.gts hostSrc .drelStep { x := c } else s
    | 9 =>
      if (s.ctx c).dacc.getLsbD 63 then s
      else
        let s := s.updCtx c (fun x => { x with dacc := keepBits x.dacc v 0xC000_FFFF_E0F0_FFFF })
        if v.getLsbD 63 then s.post s.gts hostSrc (if v.getLsbD 62 then .daccWrite else .daccRead) { x := c, y := priv } else s
    | 10 => s.updCtx c (fun x => { x with ddata := v })
    | w => if 1 ≤ w ∧ w ≤ 4 then s.updCtx c (fun x => { x with dbp := tset x.dbp (w - 1) (v &&& 0xFFF8_FFFF_FFFF_FFFC) }) else s

/-- A write of a register, whose read-only and reserved fields ignore it (R6). -/
def writeRegister (s : State) (r : CReg) (priv : Nat) (v : DWord) : State :=
  match r with
  | .window n w => writeWindow s n w priv v
  | .mktcfg w => writeMktcfg s w v
  | .purse n w => writePurse s n w v
  | .devPrq 0 => s.updPage (fun p => { p with prqBase := v &&& 0x0000_FFFF_FFFF_F0F1 })
  | .devPrq 1 => s.updPage (fun p => { p with prqTail := fld v 31 16 })
  | .gutcfg => writeGutcfg s v
  | .tlbih w => writeTlbih s w v
  | .pmov w => writePmov s w v
  | .power w => writePower s w v
  | .clcap n => s.updCl n (fun k => { k with rcap := fld v 1 0 })
  | .attreq w => writeAttreq s w v
  | .port p w => writePort s p w v
  | .route d => writeRoute s d v
  | .nsq n w => writeNsq s n w v
  | .frr n w => writeFrr s n w v
  | .debug c w => writeDebug s c w priv v
  | _ => s

/-- A write of one half of a register, applied to what the register then holds; an event of its own goes first of what its source has to do. -/
def writeHalf (s : State) (pa priv z : Nat) (v : DWord) : State :=
  let r := cregOf (pa / 8 * 8)
  let w := ctrlMerge s r (decide (4 ≤ pa % 8)) v.toNat
  let e := ctrlEvent r (pa / 8 * 8) w priv (if z < 64 then some z else none)
  if e.1 = .registerWrite then writeRegister s r priv (BitVec.ofNat 64 w)
  else hurryLast s.agenda.length (s.post s.gts s.src e.1 e.2)

/-- REGISTER_WRITE (R6): at an address that is no multiple of 8, of one half. -/
def execRegisterWrite (s : State) : Out := .next <|
  if s.arg.x % 8 = 1 ∨ s.arg.x % 8 = 5 then writeHalf s s.arg.x s.arg.y s.arg.z s.arg.v
  else writeRegister s (cregOf s.arg.x) s.arg.y s.arg.v

end Sys2Proof.Machine
end

