-- ==== Sys2Proof/Machine/Dispatch.lean ====
section
/-!
DEFINITION. The dispatch: one arm per instruction, command and event, each one direct call of its meaning.
-/

namespace Sys2Proof.Machine

def exec (i : Instr) (s : State) : Host.Outcome State Fault Refusal :=
  match i with
  | .nop f => Sys2Proof.Machine.execNop f s
  | .bra f => Sys2Proof.Machine.execBra f s
  | .brx f => Sys2Proof.Machine.execBrx f s
  | .call f => Sys2Proof.Machine.execCall f s
  | .callx f => Sys2Proof.Machine.execCallx f s
  | .ret f => Sys2Proof.Machine.execRet f s
  | .exit f => Sys2Proof.Machine.execExit f s
  | .yield f => Sys2Proof.Machine.execYield f s
  | .sleep f => Sys2Proof.Machine.execSleep f s
  | .pand f => Sys2Proof.Machine.execPand f s
  | .por f => Sys2Proof.Machine.execPor f s
  | .pxor f => Sys2Proof.Machine.execPxor f s
  | .pnot f => Sys2Proof.Machine.execPnot f s
  | .voteAny f => Sys2Proof.Machine.execVoteAny f s
  | .voteAll f => Sys2Proof.Machine.execVoteAll f s
  | .voteBal f => Sys2Proof.Machine.execVoteBal f s
  | .pset cond f => Sys2Proof.Machine.execPset cond f s
  | .psetk cond f => Sys2Proof.Machine.execPsetk cond f s
  | .prd f => Sys2Proof.Machine.execPrd f s
  | .pwr f => Sys2Proof.Machine.execPwr f s
  | .rep f => Sys2Proof.Machine.execRep f s
  | .add f => Sys2Proof.Machine.execAdd f s
  | .sub f => Sys2Proof.Machine.execSub f s
  | .addk f => Sys2Proof.Machine.execAddk f s
  | .adds f => Sys2Proof.Machine.execAdds f s
  | .subs f => Sys2Proof.Machine.execSubs f s
  | .mul f => Sys2Proof.Machine.execMul f s
  | .mulh f => Sys2Proof.Machine.execMulh f s
  | .mulhu f => Sys2Proof.Machine.execMulhu f s
  | .mad f => Sys2Proof.Machine.execMad f s
  | .min f => Sys2Proof.Machine.execMin f s
  | .max f => Sys2Proof.Machine.execMax f s
  | .minu f => Sys2Proof.Machine.execMinu f s
  | .maxu f => Sys2Proof.Machine.execMaxu f s
  | .and f => Sys2Proof.Machine.execAnd f s
  | .or f => Sys2Proof.Machine.execOr f s
  | .xor f => Sys2Proof.Machine.execXor f s
  | .andn f => Sys2Proof.Machine.execAndn f s
  | .shl f => Sys2Proof.Machine.execShl f s
  | .shr f => Sys2Proof.Machine.execShr f s
  | .sar f => Sys2Proof.Machine.execSar f s
  | .shli f => Sys2Proof.Machine.execShli f s
  | .shri f => Sys2Proof.Machine.execShri f s
  | .sari f => Sys2Proof.Machine.execSari f s
  | .sel f => Sys2Proof.Machine.execSel f s
  | .popc f => Sys2Proof.Machine.execPopc f s
  | .clz f => Sys2Proof.Machine.execClz f s
  | .brev f => Sys2Proof.Machine.execBrev f s
  | .bfx f => Sys2Proof.Machine.execBfx f s
  | .bfxs f => Sys2Proof.Machine.execBfxs f s
  | .bfi f => Sys2Proof.Machine.execBfi f s
  | .mov f => Sys2Proof.Machine.execMov f s
  | .movk f => Sys2Proof.Machine.execMovk f s
  | .shlk f => Sys2Proof.Machine.execShlk f s
  | .movg f => Sys2Proof.Machine.execMovg f s
  | .movw f => Sys2Proof.Machine.execMovw f s
  | .add64 f => Sys2Proof.Machine.execAdd64 f s
  | .sub64 f => Sys2Proof.Machine.execSub64 f s
  | .addk64 f => Sys2Proof.Machine.execAddk64 f s
  | .shl64 f => Sys2Proof.Machine.execShl64 f s
  | .shr64 f => Sys2Proof.Machine.execShr64 f s
  | .sext64 f => Sys2Proof.Machine.execSext64 f s
  | .zext64 f => Sys2Proof.Machine.execZext64 f s
  | .lea sh f => Sys2Proof.Machine.execLea sh f s
  | .fadd rm f => Sys2Proof.Machine.execFadd rm f s
  | .fsub rm f => Sys2Proof.Machine.execFsub rm f s
  | .fmul rm f => Sys2Proof.Machine.execFmul rm f s
  | .ffma rm f => Sys2Proof.Machine.execFfma rm f s
  | .fmin f => Sys2Proof.Machine.execFmin f s
  | .fmax f => Sys2Proof.Machine.execFmax f s
  | .fabs f => Sys2Proof.Machine.execFabs f s
  | .fneg f => Sys2Proof.Machine.execFneg f s
  | .fsetEqToLe cond f => Sys2Proof.Machine.execFsetEqToLe cond f s
  | .fsetGtToOr cond f => Sys2Proof.Machine.execFsetGtToOr cond f s
  | .hadd2 rm f => Sys2Proof.Machine.execHadd2 rm f s
  | .hsub2 rm f => Sys2Proof.Machine.execHsub2 rm f s
  | .hmul2 rm f => Sys2Proof.Machine.execHmul2 rm f s
  | .hfma2 rm f => Sys2Proof.Machine.execHfma2 rm f s
  | .hmin2 f => Sys2Proof.Machine.execHmin2 f s
  | .hmax2 f => Sys2Proof.Machine.execHmax2 f s
  | .habs2 f => Sys2Proof.Machine.execHabs2 f s
  | .hneg2 f => Sys2Proof.Machine.execHneg2 f s
  | .hdot2 rm f => Sys2Proof.Machine.execHdot2 rm f s
  | .cvtBf16F32 rm f => Sys2Proof.Machine.execCvtBf16F32 rm f s
  | .cvtF32Bf16l f => Sys2Proof.Machine.execCvtF32Bf16l f s
  | .cvtF32Bf16h f => Sys2Proof.Machine.execCvtF32Bf16h f s
  | .cvtE4m3Bf16 rm f => Sys2Proof.Machine.execCvtE4m3Bf16 rm f s
  | .cvtE5m2Bf16 rm f => Sys2Proof.Machine.execCvtE5m2Bf16 rm f s
  | .cvtBf16E4m3l f => Sys2Proof.Machine.execCvtBf16E4m3l f s
  | .cvtBf16E4m3h f => Sys2Proof.Machine.execCvtBf16E4m3h f s
  | .cvtBf16E5m2l f => Sys2Proof.Machine.execCvtBf16E5m2l f s
  | .cvtBf16E5m2h f => Sys2Proof.Machine.execCvtBf16E5m2h f s
  | .cvtS32F32 rm f => Sys2Proof.Machine.execCvtS32F32 rm f s
  | .cvtU32F32 rm f => Sys2Proof.Machine.execCvtU32F32 rm f s
  | .cvtF32S32 rm f => Sys2Proof.Machine.execCvtF32S32 rm f s
  | .cvtF32U32 rm f => Sys2Proof.Machine.execCvtF32U32 rm f s
  | .cvtS4S8 f => Sys2Proof.Machine.execCvtS4S8 f s
  | .cvtS8S4l f => Sys2Proof.Machine.execCvtS8S4l f s
  | .cvtS8S4h f => Sys2Proof.Machine.execCvtS8S4h f s
  | .frred f => Sys2Proof.Machine.execFrred f s
  | .fsinr f => Sys2Proof.Machine.execFsinr f s
  | .fcosr f => Sys2Proof.Machine.execFcosr f s
  | .fexp2 f => Sys2Proof.Machine.execFexp2 f s
  | .flog2 f => Sys2Proof.Machine.execFlog2 f s
  | .frcp f => Sys2Proof.Machine.execFrcp f s
  | .frsq f => Sys2Proof.Machine.execFrsq f s
  | .fsqrt f => Sys2Proof.Machine.execFsqrt f s
  | .lswpP f => Sys2Proof.Machine.execLswpP f s
  | .lshf f => Sys2Proof.Machine.execLshf f s
  | .lbcast f => Sys2Proof.Machine.execLbcast f s
  | .lxor f => Sys2Proof.Machine.execLxor f s
  | .lidx f => Sys2Proof.Machine.execLidx f s
  | .lrot f => Sys2Proof.Machine.execLrot f s
  | .ldG sz f => Sys2Proof.Machine.execLdG sz f s
  | .ldS sz f => Sys2Proof.Machine.execLdS sz f s
  | .ldE sz f => Sys2Proof.Machine.execLdE sz f s
  | .stG sz f => Sys2Proof.Machine.execStG sz f s
  | .stS sz f => Sys2Proof.Machine.execStS sz f s
  | .stE sz f => Sys2Proof.Machine.execStE sz f s
  | .prefL1 f => Sys2Proof.Machine.execPrefL1 f s
  | .prefL2 f => Sys2Proof.Machine.execPrefL2 f s
  | .atomAdd ms f => Sys2Proof.Machine.execAtomAdd ms f s
  | .atomMin ms f => Sys2Proof.Machine.execAtomMin ms f s
  | .atomMax ms f => Sys2Proof.Machine.execAtomMax ms f s
  | .atomMinu ms f => Sys2Proof.Machine.execAtomMinu ms f s
  | .atomMaxu ms f => Sys2Proof.Machine.execAtomMaxu ms f s
  | .atomAnd ms f => Sys2Proof.Machine.execAtomAnd ms f s
  | .atomOr ms f => Sys2Proof.Machine.execAtomOr ms f s
  | .atomXor ms f => Sys2Proof.Machine.execAtomXor ms f s
  | .atomExch ms f => Sys2Proof.Machine.execAtomExch ms f s
  | .atomCas ms f => Sys2Proof.Machine.execAtomCas ms f s
  | .atomLd ms f => Sys2Proof.Machine.execAtomLd ms f s
  | .atomSt ms f => Sys2Proof.Machine.execAtomSt ms f s
  | .atomFadd ms f => Sys2Proof.Machine.execAtomFadd ms f s
  | .atomAdd64 ms f => Sys2Proof.Machine.execAtomAdd64 ms f s
  | .fenceE f => Sys2Proof.Machine.execFenceE f s
  | .dfence f => Sys2Proof.Machine.execDfence f s
  | .drainst f => Sys2Proof.Machine.execDrainst f s
  | .sfrd f => Sys2Proof.Machine.execSfrd f s
  | .sfpop f => Sys2Proof.Machine.execSfpop f s
  | .sfcnt f => Sys2Proof.Machine.execSfcnt f s
  | .smap f => Sys2Proof.Machine.execSmap f s
  | .sunmap f => Sys2Proof.Machine.execSunmap f s
  | .swb f => Sys2Proof.Machine.execSwb f s
  | .sinv f => Sys2Proof.Machine.execSinv f s
  | .xacq f => Sys2Proof.Machine.execXacq f s
  | .xrel f => Sys2Proof.Machine.execXrel f s
  | .xtry f => Sys2Proof.Machine.execXtry f s
  | .sdecl f => Sys2Proof.Machine.execSdecl f s
  | .sleave f => Sys2Proof.Machine.execSleave f s
  | .sinfo f => Sys2Proof.Machine.execSinfo f s
  | .binit f => Sys2Proof.Machine.execBinit f s
  | .barv f => Sys2Proof.Machine.execBarv f s
  | .bwait f => Sys2Proof.Machine.execBwait f s
  | .bsync f => Sys2Proof.Machine.execBsync f s
  | .bgen f => Sys2Proof.Machine.execBgen f s
  | .redb f => Sys2Proof.Machine.execRedb f s
  | .redw f => Sys2Proof.Machine.execRedw f s
  | .redq f => Sys2Proof.Machine.execRedq f s
  | .tmma f => Sys2Proof.Machine.execTmma f s
  | .tzero f => Sys2Proof.Machine.execTzero f s
  | .tres f => Sys2Proof.Machine.execTres f s
  | .tcmp f => Sys2Proof.Machine.execTcmp f s
  | .tdrain rm f => Sys2Proof.Machine.execTdrain rm f s
  | .tcmpX f => Sys2Proof.Machine.execTcmpX f s
  | .tsave f => Sys2Proof.Machine.execTsave f s
  | .tsaveC f => Sys2Proof.Machine.execTsaveC f s
  | .tload f => Sys2Proof.Machine.execTload f s
  | .tplane f => Sys2Proof.Machine.execTplane f s
  | .twait f => Sys2Proof.Machine.execTwait f s
  | .twaitAll f => Sys2Proof.Machine.execTwaitAll f s
  | .tstat f => Sys2Proof.Machine.execTstat f s
  | .tmov f => Sys2Proof.Machine.execTmov f s
  | .cpy q f => Sys2Proof.Machine.execCpy q f s
  | .cpyN f => Sys2Proof.Machine.execCpyN f s
  | .gath f => Sys2Proof.Machine.execGath f s
  | .cseal f => Sys2Proof.Machine.execCseal f s
  | .cwait f => Sys2Proof.Machine.execCwait f s
  | .sleepP f => Sys2Proof.Machine.execSleepP f s
  | .qfence f => Sys2Proof.Machine.execQfence f s
  | .coll f => Sys2Proof.Machine.execColl f s
  | .leader f => Sys2Proof.Machine.execLeader f s
  | .wpop f => Sys2Proof.Machine.execWpop f s
  | .wpopSleep f => Sys2Proof.Machine.execWpopSleep f s
  | .wpush f => Sys2Proof.Machine.execWpush f s
  | .wlen f => Sys2Proof.Machine.execWlen f s
  | .amsg f => Sys2Proof.Machine.execAmsg f s
  | .ampoll f => Sys2Proof.Machine.execAmpoll f s
  | .amend f => Sys2Proof.Machine.execAmend f s
  | .bidset f => Sys2Proof.Machine.execBidset f s
  | .price f => Sys2Proof.Machine.execPrice f s
  | .bidget f => Sys2Proof.Machine.execBidget f s
  | .mfs f => Sys2Proof.Machine.execMfs f s
  | .mts f => Sys2Proof.Machine.execMts f s
  | .trap f => Sys2Proof.Machine.execTrap f s
  | .rett f => Sys2Proof.Machine.execRett f s
  | .brk f => Sys2Proof.Machine.execBrk f s
  | .dtload f => Sys2Proof.Machine.execDtload f s
  | .dtsel f => Sys2Proof.Machine.execDtsel f s
  | .kchk f => Sys2Proof.Machine.execKchk f s
  | .kcanc hard lv f => Sys2Proof.Machine.execKcanc hard lv f s
  | .probe f => Sys2Proof.Machine.execProbe f s
  | .tlbi f => Sys2Proof.Machine.execTlbi f s
  | .icinv f => Sys2Proof.Machine.execIcinv f s
  | .mcfgr f => Sys2Proof.Machine.execMcfgr f s
  | .mcfgw f => Sys2Proof.Machine.execMcfgw f s
  | .create => Sys2Proof.Machine.execCreate s
  | .activate => Sys2Proof.Machine.execActivate s
  | .suspend => Sys2Proof.Machine.execSuspend s
  | .resume => Sys2Proof.Machine.execResume s
  | .destroy => Sys2Proof.Machine.execDestroy s
  | .migrate => Sys2Proof.Machine.execMigrate s
  | .contextCommandComplete => Sys2Proof.Machine.execContextCommandComplete s
  | .migrationComplete => Sys2Proof.Machine.execMigrationComplete s
  | .migrationAborted => Sys2Proof.Machine.execMigrationAborted s
  | .vfcfgWrite => Sys2Proof.Machine.execVfcfgWrite s
  | .watchdogExpiry => Sys2Proof.Machine.execWatchdogExpiry s
  | .resetComplete => Sys2Proof.Machine.execResetComplete s
  | .noticeAppend => Sys2Proof.Machine.execNoticeAppend s
  | .energyPeriodBoundary => Sys2Proof.Machine.execEnergyPeriodBoundary s
  | .sealing => Sys2Proof.Machine.execSealing s
  | .publication => Sys2Proof.Machine.execPublication s
  | .intervalBoundary => Sys2Proof.Machine.execIntervalBoundary s
  | .handoverEnd => Sys2Proof.Machine.execHandoverEnd s
  | .priceExchangeReceived => Sys2Proof.Machine.execPriceExchangeReceived s
  | .peerPriceEntryExpiry => Sys2Proof.Machine.execPeerPriceEntryExpiry s
  | .doorbell => Sys2Proof.Machine.execDoorbell s
  | .qcfgWrite => Sys2Proof.Machine.execQcfgWrite s
  | .retry => Sys2Proof.Machine.execRetry s
  | .skip => Sys2Proof.Machine.execSkip s
  | .rafterEventTake => Sys2Proof.Machine.execRafterEventTake s
  | .launchPacket => Sys2Proof.Machine.execLaunchPacket s
  | .feedPacket => Sys2Proof.Machine.execFeedPacket s
  | .fencePacket => Sys2Proof.Machine.execFencePacket s
  | .waitPacket => Sys2Proof.Machine.execWaitPacket s
  | .waitReevaluation => Sys2Proof.Machine.execWaitReevaluation s
  | .waitTimeout => Sys2Proof.Machine.execWaitTimeout s
  | .indirectPacket => Sys2Proof.Machine.execIndirectPacket s
  | .copyPacket => Sys2Proof.Machine.execCopyPacket s
  | .signalPacket => Sys2Proof.Machine.execSignalPacket s
  | .cancelPacket => Sys2Proof.Machine.execCancelPacket s
  | .markPacket => Sys2Proof.Machine.execMarkPacket s
  | .dtloadPacket => Sys2Proof.Machine.execDtloadPacket s
  | .dispatchDecision => Sys2Proof.Machine.execDispatchDecision s
  | .powerGatingBegin => Sys2Proof.Machine.execPowerGatingBegin s
  | .gatingCommit => Sys2Proof.Machine.execGatingCommit s
  | .coreWake => Sys2Proof.Machine.execCoreWake s
  | .blockExit => Sys2Proof.Machine.execBlockExit s
  | .blockResume => Sys2Proof.Machine.execBlockResume s
  | .trapEntry => Sys2Proof.Machine.execTrapEntry s
  | .switchMarkerComplete => Sys2Proof.Machine.execSwitchMarkerComplete s
  | .loadResultReturn => Sys2Proof.Machine.execLoadResultReturn s
  | .sleepWake => Sys2Proof.Machine.execSleepWake s
  | .yieldEnd => Sys2Proof.Machine.execYieldEnd s
  | .storeQueuePerform => Sys2Proof.Machine.execStoreQueuePerform s
  | .mapFillComplete => Sys2Proof.Machine.execMapFillComplete s
  | .engineOperationTurn => Sys2Proof.Machine.execEngineOperationTurn s
  | .engineOperationComplete => Sys2Proof.Machine.execEngineOperationComplete s
  | .promiseWake => Sys2Proof.Machine.execPromiseWake s
  | .tmmaTurn => Sys2Proof.Machine.execTmmaTurn s
  | .tzeroTurn => Sys2Proof.Machine.execTzeroTurn s
  | .tresTurn => Sys2Proof.Machine.execTresTurn s
  | .tcmpTurn => Sys2Proof.Machine.execTcmpTurn s
  | .tcmpXTurn => Sys2Proof.Machine.execTcmpXTurn s
  | .tdrainTurn => Sys2Proof.Machine.execTdrainTurn s
  | .tsaveTurn => Sys2Proof.Machine.execTsaveTurn s
  | .tsaveCTurn => Sys2Proof.Machine.execTsaveCTurn s
  | .tloadTurn => Sys2Proof.Machine.execTloadTurn s
  | .tplaneTurn => Sys2Proof.Machine.execTplaneTurn s
  | .tmovTurn => Sys2Proof.Machine.execTmovTurn s
  | .bridleGenerationComplete => Sys2Proof.Machine.execBridleGenerationComplete s
  | .pageReWalk => Sys2Proof.Machine.execPageReWalk s
  | .pageRequest => Sys2Proof.Machine.execPageRequest s
  | .prqdoneWrite => Sys2Proof.Machine.execPrqdoneWrite s
  | .gutterDrain => Sys2Proof.Machine.execGutterDrain s
  | .pageMove => Sys2Proof.Machine.execPageMove s
  | .pageMoveComplete => Sys2Proof.Machine.execPageMoveComplete s
  | .tlbih => Sys2Proof.Machine.execTlbih s
  | .tlbiCompletion => Sys2Proof.Machine.execTlbiCompletion s
  | .frrCommit => Sys2Proof.Machine.execFrrCommit s
  | .portEnable => Sys2Proof.Machine.execPortEnable s
  | .portDisable => Sys2Proof.Machine.execPortDisable s
  | .retrain => Sys2Proof.Machine.execRetrain s
  | .portDrain => Sys2Proof.Machine.execPortDrain s
  | .trainingAttemptEnd => Sys2Proof.Machine.execTrainingAttemptEnd s
  | .laneFailure => Sys2Proof.Machine.execLaneFailure s
  | .drainingEnd => Sys2Proof.Machine.execDrainingEnd s
  | .flitReceived => Sys2Proof.Machine.execFlitReceived s
  | .linkRetryRequest => Sys2Proof.Machine.execLinkRetryRequest s
  | .deviceUnreachable => Sys2Proof.Machine.execDeviceUnreachable s
  | .peerRequestArrival => Sys2Proof.Machine.execPeerRequestArrival s
  | .peerResponseArrival => Sys2Proof.Machine.execPeerResponseArrival s
  | .messageArrival => Sys2Proof.Machine.execMessageArrival s
  | .messageAnswerArrival => Sys2Proof.Machine.execMessageAnswerArrival s
  | .collFragmentArrival => Sys2Proof.Machine.execCollFragmentArrival s
  | .ethernetFrameReceived => Sys2Proof.Machine.execEthernetFrameReceived s
  | .perrRead => Sys2Proof.Machine.execPerrRead s
  | .pdiscRead => Sys2Proof.Machine.execPdiscRead s
  | .nsqNdiscRead => Sys2Proof.Machine.execNsqNdiscRead s
  | .hostLinkWrite => Sys2Proof.Machine.execHostLinkWrite s
  | .l2RequestAccept => Sys2Proof.Machine.execL2RequestAccept s
  | .l2LineReturn => Sys2Proof.Machine.execL2LineReturn s
  | .dbgctlWrite => Sys2Proof.Machine.execDbgctlWrite s
  | .drelRun => Sys2Proof.Machine.execDrelRun s
  | .drelStep => Sys2Proof.Machine.execDrelStep s
  | .daccRead => Sys2Proof.Machine.execDaccRead s
  | .daccWrite => Sys2Proof.Machine.execDaccWrite s
  | .traceRecordWrite => Sys2Proof.Machine.execTraceRecordWrite s
  | .sampleTake => Sys2Proof.Machine.execSampleTake s
  | .sensorSample => Sys2Proof.Machine.execSensorSample s
  | .supplyUpdate => Sys2Proof.Machine.execSupplyUpdate s
  | .throttleEvaluation => Sys2Proof.Machine.execThrottleEvaluation s
  | .powerExcursion => Sys2Proof.Machine.execPowerExcursion s
  | .excursionHoldEnd => Sys2Proof.Machine.execExcursionHoldEnd s
  | .telemetrySnapshot => Sys2Proof.Machine.execTelemetrySnapshot s
  | .thermalTrip => Sys2Proof.Machine.execThermalTrip s
  | .functionLevelReset => Sys2Proof.Machine.execFunctionLevelReset s
  | .powerUp => Sys2Proof.Machine.execPowerUp s
  | .boot => Sys2Proof.Machine.execBoot s
  | .attestationRequest => Sys2Proof.Machine.execAttestationRequest s
  | .correctedSoftError => Sys2Proof.Machine.execCorrectedSoftError s
  | .uncorrectableSoftError => Sys2Proof.Machine.execUncorrectableSoftError s
  | .sercntRead => Sys2Proof.Machine.execSercntRead s
  | .registerWrite => Sys2Proof.Machine.execRegisterWrite s
  | .engineOperationStop => Sys2Proof.Machine.execEngineOperationStop s
  | .icinvCompletion => Sys2Proof.Machine.execIcinvCompletion s
  | .attestationReportWritten => Sys2Proof.Machine.execAttestationReportWritten s
  | .hostLinkTraining => Sys2Proof.Machine.execHostLinkTraining s
  | .gtsSynchronisation => Sys2Proof.Machine.execGtsSynchronisation s
  | .packetRetransmission => Sys2Proof.Machine.execPacketRetransmission s

end Sys2Proof.Machine
end

