-- ==== Sys2Proof/Machine/Run.lean ====
section
/-!
DEFINITION. Running the device (00_scope.md R5, 01_device.md R34, 10_group.md R252 to R257, 05_encoding.md R120 to R132): one issue of a
group, and what happens next: the event of the agenda that is due, the issue of the next core, or the next nanosecond.
-/

namespace Sys2Proof.Machine

/-! ### The words of an issue -/

/-- A word of an issue: its PC, meaning, opcode as fetched and IOP. -/
structure RunWord where
  pc : Nat
  ins : Instr
  op : Nat
  iop : Nat

def RunWord.of (w : FWord) : RunWord := ⟨w.pc, match w.ins with | some i => i | none => .nop ⟨false, false, 3, 0, 0⟩, w.op, w.iop⟩

/-- Runs one word of the issue in progress. -/
def runWord (s : State) (w : RunWord) : Out :=
  exec w.ins { s with cur := { s.cur with pc := BitVec.ofNat 48 w.pc, op := w.op, iop := w.iop, verdict := 0 } }

/-- RETT, whose members are the handler threads (19 R450). -/
def isRett (i : Instr) : Bool := match i with | .rett _ => true | _ => false

/-- An MTS to FPC takes effect after the other words of its issue (15 R357). -/
def isMtsFpc (i : Instr) : Bool := match i with | .mts f => decide (f.sreg = 5) | _ => false

/-- What one word alone would do to the state before the issue: its verdict (R122). -/
def verdictOf (s : State) (w : RunWord) : Nat := match runWord s w with | .next t => t.cur.verdict | _ => 0

/-- The word of an issue that decides it, if one traps or is held: the first in the order of R122. -/
def decider (s : State) (ws : List RunWord) : Option RunWord :=
  ws.foldl (fun r w =>
    let v := verdictOf s w
    if v = 0 then r
    else match r with
      | none => some w
      | some q => if verdictOf s q > v then some w else r) none

/-- Runs words one after the other. -/
def runSeq (s : State) (ws : List RunWord) : Out :=
  match ws with
  | [] => .next s
  | w :: ws => match runWord s w with
    | .next t => runSeq t ws
    | r => r

/-- Runs the words of an issue that is not a REP: no word has an effect when one traps, and every source is read before any word writes
(R120, R122). -/
def runWords (s : State) (ws : List RunWord) : Out :=
  match ws with
  | [w] => runWord s w
  | _ =>
    match decider s ws with
    | some w => runWord s w
    | none =>
      let late := ws.filter (fun w => isMtsFpc w.ins)
      let early := ws.filter (fun w => !isMtsFpc w.ins)
      runSeq { s with cur := { s.cur with src := some (s.blk s.cur.blk), go := true } } (early ++ late)

/-! ### After an issue -/

/-- What follows an executed issue in each member group: its flags, which a converged issue clears, its marker and its next fc (R121, R252, R259,
20 R464). -/
def afterGroup (s : State) (j : Nat) (marker hm step : Bool) : State :=
  let cur := s.cur
  let b := cur.blk
  let ls := (cur.members.filter (fun m => m.1 = j)).map Prod.snd
  if (s.grp b j).done then s
  else
    let s := s.updGrp b j (fun g =>
      { g with gflag := if convergedSet g ls then [] else g.gflag
               notBefore := max g.notBefore (s.gts + 1)
               waitc := 0
               stepDue := if step && !hm then some (cur.head.toNat, ls) else g.stepDue })
    -- an EXIT of the issue may wait at a marker of its own, which completes no earlier
    if marker && (s.grp b j).marker.isNone then setMarker s b j { kind := .switch, pc := cur.head, sc := cur.sc, lanes := ls } else s

/-- What follows an issue, whatever became of it. -/
def afterIssue (s : State) (b j : Nat) (marker : Bool) (hm : Bool) : State :=
  let cur := s.cur
  let c := (s.blk b).ctx
  let js := (cur.members.map Prod.fst).eraseDups
  let step := !(s.ctx c).dbgctl.getLsbD 0 && (s.ctx c).dbgctl.getLsbD 2
  let s :=
    if cur.verdict = 0 then s.foldl js (fun t j => afterGroup t j marker hm step)
    else if cur.verdict = 7 then s
    else s.updGrp b j (fun g => { g with notBefore := max g.notBefore (s.gts + 1), waitc := 0 })
  if cur.verdict = 7 then s
  else
    let s := s.updCtx c (fun x => { x with progress := s.gts })
    let s := countEvent s c 0x01 1
    let s := s.updGrp b j (fun g => { g with dbgPass := false })
    let s := if (s.grp b j).dbgStep && !(s.grp b j).done then
        stopGroup s b j 3 (stepLane (s.grp b j)) 0 ((s.grp b j).th (stepLane (s.grp b j))).pc.toNat 0
      else s
    let s := exitCheck s b
    -- 10 R251: in a block marked for termination, a group that is now in WAIT-SCOPE takes CANCEL
    if (s.blk b).marked then s.foldl js (fun t j => cancelAtOnce t b j) else s

/-! ### A REP issue: one repetition at a time (R20, R131, R132) -/

/-- Moves the members of the issue in progress past it, ACTIVE. -/
def stepPast (s : State) : State :=
  s.foldl s.cur.members (fun t m => t.updThr t.cur.blk m.1 m.2 (fun th => { th with pc := t.cur.next, mode := .active }))

/-- The members of a REP issue that still stand at its head. -/
def repMembers (s : State) (b : Nat) (r : RepRun) : List (Nat × Nat) :=
  r.members.filter (fun m =>
    let t := s.thr b m.1 m.2
    decide (t.pc.toNat = r.head ∧ t.mode = if r.sc = 0 then .active else .parked))

/-- The members go back to the head, where they wait for the next repetition; the rendezvous stands (10 R254). -/
def repStay (s : State) (b j : Nat) (r : RepRun) : State :=
  let s := s.foldl r.members (fun t m => t.updThr b m.1 m.2 (fun th =>
    { th with pc := BitVec.ofNat 48 r.head, mode := if r.sc = 0 then .active else .parked, psc := r.sc }))
  let s := s.foldl ((r.members.map Prod.fst).eraseDups) (fun t i => t.updGrp b i (fun g => { g with inRep := some j, repi := r.i }))
  s.updGrp b j (fun g => { g with rep := some r })

/-- The REP issue is over, or was stopped by a trap. -/
def repEnd (s : State) (b j : Nat) : State :=
  s.updBlk b (fun k => { k with groups := tmap (fun i g =>
    if g.inRep = some j ∨ i = j then { g with rep := none, inRep := none } else g) k.groups })

/-- Ends a REP issue whose last repetition has executed: GROUP.REPI becomes 0 in every member group. -/
def repDone (s : State) (b j : Nat) (marker : Bool) : State :=
  let js := (s.cur.members.map Prod.fst).eraseDups
  let s := s.foldl js (fun t i => t.updGrp b i (fun g => { g with repi := 0 }))
  afterIssue (repEnd s b j) b j marker (s.grp b j).hm

/-- Executes one repetition. A trap or a hold stops the REP there; the next repetition follows one lc later (R20). -/
def repStep (s : State) (b j : Nat) (r : RepRun) : Out :=
  match r.words with
  | [] => .next (repDone s b j r.marker)
  | k :: ks =>
    let s := s.foldl ((s.cur.members.map Prod.fst).eraseDups) (fun t i => t.updGrp b i (fun g => { g with repi := r.i }))
    match runWord { (stepPast s) with cur := { s.cur with repi := r.i } } ⟨r.pc, k, r.op, r.iop⟩ with
    | .next t =>
      if t.cur.verdict = 7 then .next (repStay t b j { r with members := t.cur.members })
      else if t.cur.verdict ≠ 0 then .next (afterIssue (repEnd t b j) b j false false)
      else if ks.isEmpty then .next (repDone t b j r.marker)
      else
        let t := repStay t b j { r with members := t.cur.members, i := r.i + 1, words := ks }
        .next (t.updGrp b j (fun g => { g with notBefore := max g.notBefore (t.gts + max 1 (lcTime t (t.blkCore b) 1)) }))
    | o => o

/-- The next repetition of the REP issue of a group. -/
def repNext (s : State) (b j : Nat) : Out :=
  match (s.grp b j).rep with
  | none => .next s
  | some r =>
    let ms := repMembers s b r
    if ms.isEmpty then .next (repEnd s b j)
    else repStep { s with cur := { blk := b, j := j, head := BitVec.ofNat 48 r.head, pc := BitVec.ofNat 48 r.pc, next := BitVec.ofNat 48 r.next
                                   sc := r.sc, members := ms, groups := r.groups, rep := some r.rep, repi := r.i } } b j r

/-! ### One issue -/

/-- The blocks of global memory that a word reads at its issue (17 R401, 18 R421, 05 R137): address, size and access kind. -/
def issueReads (s : State) (i : Instr) : List (Nat × Nat × Nat) :=
  let at_ (f : WA) (ms : List (Nat × Nat)) : List (Nat × Nat × Nat) := ms.map (fun m => (vaOf (rdX s m f.a.toNat).toNat, 64, aEREAD))
  match i with
  | .tmma f | .tdrain _ f => at_ f (lowest s f.pr.toNat).toList
  | .cpy _ f | .cpyN f | .gath f | .coll f => at_ f (guarded s f.pr.toNat)
  | .dtload f => (lowest s f.pr.toNat).toList.map (fun m => (vaOf (rdX s m f.a.toNat).toNat, 2048, aLOAD))
  | _ => []

/-- What the reads of the words of an issue do to the caches, where the issue has executed (07 R189). -/
def touchIssue (s t : State) (ws : List FWord) : State :=
  if t.cur.verdict ≠ 0 then t
  else
    let k := s.blk s.cur.blk
    t.foldl ((ws.filterMap FWord.ins).flatMap (issueReads s)) (fun t r => touchRead t k.ctx r.1 r.2.1 r.2.2 k.priv)

/-- The issue in progress with one of its words, as the checks of R122 see it. -/
def withWord (s : State) (w : FWord) : State := { s with cur := { s.cur with pc := BitVec.ofNat 48 w.pc, op := w.op, iop := w.iop } }

/-- The first trap of R122 items 1 and 3 to 5 that the words of an issue meet. -/
def staticIssueTrap (s : State) (ws : List FWord) : Option TrapInfo :=
  ws.foldl (fun r w =>
    match w.ins with
    | none => r
    | some i =>
      match r, (staticTrap (withWord s w) i).filter (fun t => decide (t.cls < 6)) with
      | none, t => t
      | some x, some y => if y.cls < x.cls then some y else some x
      | r, none => r) none

/-- The first trap of R122 items 1 to 5 of a whole issue, whose members are known; every repetition of a REP is checked for XREG before any executes
(R131, 10 R263). -/
def issueTrap (s : State) (c : Ctx) (sel : Nat) (ws : List FWord) (reps : List Instr) : Option TrapInfo :=
  if issueIll c sel ws then some { cause := cILL, cls := 1 }
  else if issueChain ws then some { cause := cCHAIN, cls := 2 }
  else
    let form := issueForm ws
    let t := staticIssueTrap s (if form.rep.isSome then form.words.take 1 else ws)
    if reps.any (fun i => !xregOk s i) && (match t with | some x => decide (4 < x.cls) | none => true) then some { cause := cXREG, cls := 4 } else t

/-- Executes an issue whose members are known, or takes its trap in every one of them (R122, 10 R257, log 5); the next PC is
modulo 2^48 (log 104). -/
def performIssue (s : State) (b j head next sc : Nat) (members : List (Nat × Nat)) (groups : List Nat) (ws : List FWord) : Out :=
  let g := s.grp b j
  let c := s.ctx (s.blk b).ctx
  let form := issueForm ws
  let marker := form.words.any FWord.s
  let reps := match form.rep, form.words with
    | some f, w :: _ => (repWords c g.sel w (repOf f)).getD []
    | _, _ => []
  let s := s.updGrp b j (fun g => { g with joined := false })
  let s := stepPast { s with cur := { blk := b, j := j, head := BitVec.ofNat 48 head, pc := BitVec.ofNat 48 head, next := BitVec.ofNat 48 next
                                      sc := sc, members := members, groups := groups, joined := g.joined } }
  match issueTrap s c g.sel ws reps with
  | some t => .next (afterIssue (raise s t) b j false false)
  | none =>
  match form.rep, form.words with
  | some f, w :: _ =>
    (match exec (.rep f) s with
    | .next t => repStep t b j ⟨head, w.pc, next, sc, members, groups, marker, w.op, w.iop, repOf f, g.repi, reps.drop g.repi⟩
    | o => o)
  | _, ws =>
    match runWords s (ws.map RunWord.of) with
    | .next t => .next (afterIssue (touchIssue s t ws) b j marker g.hm)
    | o => o

/-- The issue in progress at its issue set, before any rendezvous. -/
def withSet (s : State) (b j head next sc : Nat) (ls : List Nat) (w : FWord) : State :=
  { s with cur := { blk := b, j := j, head := BitVec.ofNat 48 head, pc := BitVec.ofNat 48 w.pc, next := BitVec.ofNat 48 next, sc := sc,
                    members := ls.map (fun l => (j, l)), groups := [j], op := w.op, iop := w.iop } }

/-- Parks an issue set at its scope; executes the issue when the rendezvous is complete (R254). `psc` is the scope that names the members:
that of the issue, or 4 for a RETT. -/
def arriveIssue (s : State) (b j head next sc psc : Nat) (ls : List Nat) (ws : List FWord) : Out :=
  let s := s.foldl ls (fun t l => t.updThr b j l (fun th => { th with mode := .parked, psc := psc }))
  let k := s.blk b
  let js := scopeGroups k j psc
  if canRendezvous k js psc then performIssue s b j head next sc (scopeMembers k js psc) js ws
  else
    let s := withSet s b j head next sc ls ⟨head, 0, none, 0, 0⟩
    .next (afterIssue { s with cur := { s.cur with verdict := 8 } } b j false false)

/-- The next issue of a group. -/
def issueGroup (s : State) (b j : Nat) : Out :=
  let k := s.blk b
  let g := k.grp j
  let c := s.ctx k.ctx
  let arm := c.dbgctl.getLsbD 0
  let ls := issueSet g
  let head := match ls with | l :: _ => (g.th l).pc.toNat | [] => 0
  match g.stepDue with
  | some (pc, ms) =>
    let s := s.updGrp b j (fun g => { g with stepDue := none })
    .next (raiseGroup s b j { cause := cSTEP, prec := true, sc := 0, det := 0, arg := 0, repi := 0
                              lanes := (ms.filter (fun l => decide ((g.th l).mode ≠ .exited))).map (fun l => (l, pc, (g.th l).pc.toNat, 0, 0)) })
  | none =>
  if arm && c.dbgctl.getLsbD 1 && !g.dbgStep then
    .next (stopGroup s b j 4 (haltLane g) 0 (g.th (haltLane g)).pc.toNat 0)
  else match fetchIssue { s with cur := { blk := b, j := j } } k.ctx g.priv g.sel head with
  | .wait pc stage need =>
    let s := waitIssue s k.ctx (vaOf pc) aFETCH stage need (s.blkCore b) b j
    -- an issue that cannot be fetched is not chosen (10 R252, log 53)
    let s := s.updGrp b j (fun g => { g with notBefore := s.gts + 1, stall := 7 })
    .next { s with cur := { s.cur with verdict := 7 } }
  | .fault pc syn det =>
    let s := withSet s b j pc pc 0 ls ⟨pc, 0, none, 0, 0⟩
    let why : TrapInfo := if det = 0x0C then { cause := cFMTPROT } else { cause := cLFAULT, det := det }
    .next (afterIssue (raise s { why with addr := ls.map (fun l => ((j, l), pc, syn)) }) b j false false)
  | .ok ws =>
    let s := tlbKeep s (translate s k.ctx (vaOf head) aFETCH g.priv)
    let form := issueForm ws
    let next := (ws.getLast?.map FWord.pc).getD head + 4
    let is := form.words.filterMap FWord.ins
    let sc := issueScope is
    match if arm && !g.dbgPass then breakpointAt c j (ws.map FWord.pc) ls else none with
    | some (n, l) => .next (stopGroup s b j 1 l n head 0)
    | none =>
    match if arm then ws.find? (fun w => match w.ins with | some (.brk f) => f.pr == 3 || ls.any (fun l => (g.th l).rp f.pr.toNat) | _ => false) else none with
    | some w => .next (stopGroup s b j 2 (ls.headD 0) (match w.ins with | some (.brk f) => f.k.toNat | _ => 0) head (w.pc + 4))
    | none =>
      if sc = 0 then performIssue s b j head next 0 (ls.map (fun l => (j, l))) [j] ws
      else arriveIssue s b j head next sc (if g.hm && is.any isRett then 4 else sc) ls ws

/-! ### The device -/

/-- The unit of a core that produces an event (R34): 0 scheduler, 1 tile sequencer, 2 copy engine slice, 3 map unit. -/
def eventUnit (i : Instr) : Nat :=
  match i with
  | .tmmaTurn | .tzeroTurn | .tresTurn | .tcmpTurn | .tcmpXTurn | .tdrainTurn | .tsaveTurn | .tsaveCTurn | .tloadTurn | .tplaneTurn | .tmovTurn => 1
  | .engineOperationTurn | .engineOperationComplete | .engineOperationStop | .collFragmentArrival | .packetRetransmission => 2
  | .mapFillComplete => 3
  | _ => 0

/-- The place of an event among those of one GTS (R5, R34). -/
def Event.key (e : Event) : Nat :=
  -- a sample is written once the core's choice of the sampled fc is known (20 R469)
  if e.ev = .sampleTake ∧ e.arg.y = 1 then 4 * e.src + 1 else 4 * e.src + eventUnit e.ev

/-- The first event of the agenda in the order of R5. -/
def firstEvent (l : List Event) : Option Event :=
  l.foldl (fun r e => match r with
    | none => some e
    | some q => if e.due < q.due ∨ (e.due = q.due ∧ e.key < q.key) then some e else some q) none

/-- Removes the first copy of an event. -/
def dropEvent (e : Event) (l : List Event) : List Event := l.erase e

/-- The groups of a core that may issue now. -/
def eligible (s : State) (core : Nat) : List (Nat × Nat) := (residents s core).filter (fun p => canIssue s p.1 p.2)

/-- The cores on which blocks are resident, ascending. -/
def busyCores (s : State) : List Nat := sortNat (s.blks.filterMap (fun e => e.2.core))

/-- The group of a core whose REP issue executes its next repetition now; it takes no fc of the front end. -/
def repReady (s : State) (core : Nat) : Option (Nat × Nat) := (residents s core).find? (fun p => repDue s p.1 p.2)

/-- Whether the next issue of a group cannot start: it waits for its packet, its queue or log has no room, or another wait holds it (R252). -/
def wouldHold (s : State) (p : Nat × Nat) : Bool := match issueGroup s p.1 p.2 with | .next t => decide (t.cur.verdict = 7) | _ => false

/-- A repetition that is due on a core, or the issue of its chosen group (R252); a held issue leaves the choice of this fc open. -/
def coreIssue (s : State) (core : Nat) : Out :=
  match repReady s core with
  | some p => (match repNext s p.1 p.2 with
    | .next t => .next { t with turn := core }
    | o => o)
  | none =>
  let es := eligible s core
  match chooseGroup s es with
  | none => .next { s with turn := core + 1 }
  | some p =>
    match issueGroup s p.1 p.2 with
    | .next t =>
      let t := dropGot t none (some p)
      if t.cur.verdict = 7 then .next { t with turn := core }
      else
        -- R252: a group whose next issue could not start was not eligible
        let es := es.filter (fun q => decide (q = p) || !wouldHold s q)
        let t := (es.filter (· ≠ p)).foldl (fun t q => t.updGrp q.1 q.2 (fun g => { g with waitc := g.waitc + 1 })) t
        .next { (t.updCore core (fun k => { k with chosen := some (s.gts, p.1, p.2), elig := (s.gts, es) })) with turn := core + 1 }
    | r => r

/-- The end of a nanosecond: the counters of R470 and R471, and the next one. -/
def nextTick (s : State) : State :=
  let s := countTick s
  -- 01 R33: GTS is slewed by at most one tick in a thousand
  if s.slew < 0 ∧ s.gts % 1000 = 0 ∧ !s.slewHeld then { s with turn := 0, slew := s.slew + 1, slewHeld := true }
  else if 0 < s.slew ∧ s.gts % 1000 = 0 then { s with gts := s.gts + 2, turn := 0, slew := s.slew - 1, slewHeld := false }
  else { s with gts := s.gts + 1, turn := 0, slewHeld := false }

/-- The core whose issue or repetition comes next in this nanosecond. -/
def nextCore (s : State) : Option Nat := (busyCores s).find? (fun n => decide (s.turn ≤ n) && (!(eligible s n).isEmpty || (repReady s n).isSome))

/-- The issue of the next core that has an eligible group, or the next nanosecond. -/
def coreOrTick (s : State) : Out :=
  match nextCore s with
  | some n => coreIssue { s with cur := {}, src := n, doing := none } n
  | none => .next (nextTick s)

/-- Whether an event precedes the next issue in the order of R5: the issue of core n is an event of its scheduler. -/
def eventFirst (s : State) (e : Event) : Bool :=
  decide (e.due < s.gts) || (match nextCore s with | some n => decide (e.key ≤ 4 * n) | none => true)

/-- One step of the device: the first due event of the agenda or the issue of the next core, in the order of R5, or the next nanosecond. -/
def runStep (s : State) : Out :=
  match firstEvent s.agenda with
  | some e =>
    if e.due ≤ s.gts ∧ eventFirst s e then
      match exec e.ev { s with agenda := dropEvent e s.agenda, arg := e.arg, src := e.src, doing := some e.ev } with
      | .next t => .next (dropGot t (some (e.ev, e.arg)) none)
      | o => o
    else coreOrTick s
  | none => coreOrTick s

end Sys2Proof.Machine
end

