-- ==== Sys2Proof/Machine/Step.lean ====
section
/-!
DEFINITION. The step of the machine, and the state in which a given instruction is the next to run.
-/

namespace Sys2Proof.Machine

/-- One step of the device. -/
def step (s : State) : Host.Outcome State Fault Refusal := runStep s

/-- Places the tables that map the lowest 16 GiB onto themselves in both stages (12 R292, R293), and a word at address 0. -/
def fetchImage (m : List Host.Cell) (dev : Nat) (w : Nat) : List Host.Cell :=
  let put (m : List Host.Cell) (a n v : Nat) : List Host.Cell := memWrite m (domAddr dev a) (natLe n v)
  put (put (put (put (put m 0 12 (w % 2 ^ 32)) 0x40000 8 0x50001) 0x50000 8 0xF) 0x60000 8 0x70001) 0x70000 8 0x1F

/-- The group that runs the word: 32 ACTIVE threads at PC 0 (10 R248). -/
def fetchGroup (gts : Nat) : Group := freshGroup 0 0 0 0 gts [] []

/-- `s` with an instruction where the next step fetches: context 0 of virtual function 0 is RUNNING on cluster 0, a block of one group on
core 0 stands at address 0, and what was due before core 0's issue has gone by (log 6). -/
def State.withFetchWord (s : State) (_nbits w : Nat) : State :=
  let x : Ctx := { st := .running, vf := 0, groot := 0x60000, maxclu := 1 }
  let b : Block := { ctx := 0, grps := 1, core := some 0, groups := [(0, fetchGroup s.gts)], age := s.gts }
  { s with
      mem := fetchImage s.mem s.devNo w
      vfs := tset s.vfs 0 { s.vf 0 with en := true, idcnt := 1, hroot := 0x40000 }
      ctxs := tset s.ctxs 0 x
      blks := (s.nextId, b) :: s.blks.filter (fun e => decide (e.2.core ≠ some 0 ∧ e.2.ctx ≠ 0 ∧ e.1 ≠ s.nextId))
      mkt := { s.mkt with units := tset s.mkt.units 0 { holder := some 0 } }
      page := { s.page with tlb := tmap (fun _ ts => ts.filter (fun t => t.ctx ≠ 0)) s.page.tlb, ptrs := [], waiters := s.page.waiters.filter (fun q => q.ctx ≠ 0)
                            slots := s.page.slots.filter (fun g => g.ctx ≠ 0) }
      frr := []
      peerGot := []
      cores := tdel s.cores 0
      agenda := s.agenda.filter (fun e => decide (s.gts < e.due ∨ (e.due = s.gts ∧ 0 < e.key)))
      nextId := s.nextId + 1
      turn := 0 }

end Sys2Proof.Machine
end

