-- ==== Sys2Proof/Safety.lean ====
section
/-!
DEFINITION. The terms in which claims are stated: the invariant of the stored bytes, when a word issues without a trap, and what an
instruction leaves alone.
-/

namespace Sys2Proof.Machine

/-! ### The stored bytes -/

/-- Both byte stores are in canonical form: HBM with the peer bytes seen, and the scratchpad and eaves units. -/
def State.memWf (s : State) : Bool := Memory.wf s.mem && Memory.wf s.sram

/-- One byte of a domain address, as the memory holds it. -/
def State.byte (s : State) (a : Nat) : Byte := memGet s.mem a

/-- One byte of the scratchpad and eaves units. -/
def State.unitByte (s : State) (a : Nat) : Byte := memGet s.sram a

/-- A step answers a next state. -/
def State.goesOn (s : State) : Prop := ∃ t, step s = .next t

/-! ### When a word acts -/

/-- The word passes the checks of R122 and of 21 R487: no ILL, PRIV, XREG or SCOPE trap, and no source with an uncorrectable error. -/
def Passes (i : Instr) (s : State) : Prop := staticTrap s i = none ∧ badSource s i = false

/-- The word passes those checks and is still to pass its own: the words of a multi-word issue are all checked before any takes effect (R120), and
no check is made a second time when they do. -/
def Checked (i : Instr) (s : State) : Prop := Passes i s ∧ s.cur.go = false

/-! ### What stays -/

/-- The stored bytes stay. -/
def SameBytes (s t : State) : Prop := (∀ a, t.byte a = s.byte a) ∧ ∀ a, t.unitByte a = s.unitByte a

/-- A thread without its w registers and predicates. -/
def Thread.sansRegs (t : Thread) : Thread := { t with w := [], bad := [], p := [] }

/-- A group without its threads, without the cancelled writes of its pending loads (10 R265), and without the time of its next issue. -/
def Group.sansThreads (g : Group) : Group :=
  { g with thr := [], pend := g.pend.map (fun p => { p with cancel := [] }), notBefore := 0, stall := 0 }

/-- A group without its threads as above, and without its FPC, which holds the sticky flags (02 R40). -/
def Group.sansFlags (g : Group) : Group := { g.sansThreads with fpc := 0 }

/-- A group without its threads as above, and without group register `d` and its divergent-write records (10 R258, R259). -/
def Group.sansReg (d : Nat) (g : Group) : Group := { g.sansThreads with g := tdel g.g d, gflag := tdel g.gflag d, udiv := false }

/-- A group without its threads and its pending results. -/
def Group.sansPend (g : Group) : Group := { g.sansThreads with pend := [], nextSeq := 0 }

/-- A group without its threads, its pending results and its store queue. -/
def Group.sansQueue (g : Group) : Group := { g.sansPend with sq := [] }

/-- A group without its threads and its wait. -/
def Group.sansWait (g : Group) : Group := { g.sansThreads with wait := .none, waitPc := 0, waitc := 0 }

/-- The pending results, without the registers that younger writes have taken from them (10 R265). -/
def Group.results (g : Group) : List Pend := g.pend.map (fun p => { p with cancel := [] })

/-- A block without its groups. -/
def Block.sansGroups (k : Block) : Block := { k with groups := [] }

/-- Everything outside the blocks stays: memory, the scratchpad and eaves units, contexts, queues, cores, the market, links and registers
of the device, and the agenda; of the issue in progress only the record of flags raised may change. -/
def SameDevice (s t : State) : Prop :=
  { t with blks := [], cur := { t.cur with raised := [] } } = { s with blks := [], cur := { s.cur with raised := [] } } ∧ SameBytes s t

/-- Everything outside the blocks stays, but events may be placed on the agenda and the model's own counters move. -/
def QuietDevice (s t : State) : Prop :=
  { t with blks := [], agenda := [], freeCtr := 0, nextId := 0 } = { s with blks := [], agenda := [], freeCtr := 0, nextId := 0 } ∧
  SameBytes s t ∧ ∀ e ∈ s.agenda, e ∈ t.agenda

/-- Every block stays apart from its groups, and every group as `keep` shows it. -/
def SameGroups (keep : Group → Group) (s t : State) : Prop :=
  (∀ b, (t.blk b).sansGroups = (s.blk b).sansGroups) ∧ ∀ b j, keep (t.grp b j) = keep (s.grp b j)

/-- Every thread stays apart from registers: PC, mode, trap registers and batches. -/
def SameThreads (s t : State) : Prop := ∀ b j l, (t.thr b j l).sansRegs = (s.thr b j l).sansRegs

/-- Of the registers of every thread, at most the w registers `ws` and the predicates `ps` of the members `who` of the issue change. -/
def SameRegs (who : List (Nat × Nat)) (ws ps : List Nat) (s t : State) : Prop :=
  (∀ b j l r, (b = s.cur.blk → (j, l) ∈ who → r ∉ ws) → (t.thr b j l).rw r = (s.thr b j l).rw r) ∧
  ∀ b j l r, (b = s.cur.blk → (j, l) ∈ who → r ∉ ps) → (t.thr b j l).rp r = (s.thr b j l).rp r

/-- Every thread stays, registers and all. -/
def NoRegs (s t : State) : Prop := SameThreads s t ∧ SameRegs [] [] [] s t

/-- The frame of a word that writes registers alone. -/
def RegsOnly (who : List (Nat × Nat)) (ws ps : List Nat) (s t : State) : Prop :=
  SameDevice s t ∧ SameGroups Group.sansThreads s t ∧ SameThreads s t ∧ SameRegs who ws ps s t

/-- The frame of a word that writes registers and raises floating-point flags. -/
def RegsAndFlags (who : List (Nat × Nat)) (ws ps : List Nat) (s t : State) : Prop :=
  SameDevice s t ∧ SameGroups Group.sansFlags s t ∧ SameThreads s t ∧ SameRegs who ws ps s t

end Sys2Proof.Machine
end

