-- ==== Sys2Proof/WellFormed.lean ====
section
/-!
DEFINITION. When an instruction is well formed: its opcode subfield names an opcode of the map (05_encoding.md R133), a
field B that selects one of several forms selects this one (R387, R398), its scope is one the
word admits (R123), each register field lies in its class (R128), and no field holds a value that the word's own description answers with
ILL (R122 items 1 and 6). An event or command is always well formed: it has no encoding.
-/

namespace Sys2Proof

/-- The opcode subfield of a word lies in the range of opcodes the map gives it (R133), and a field B that selects the form does so (R387, R398). -/
def subfieldOk : Instr → Bool
  | .pset cond _ => decide (cond.toNat < 10)
  | .psetk cond _ => decide (cond.toNat < 10)
  | .ldG sz _ | .ldS sz _ | .ldE sz _ => decide (sz.toNat < 7)
  | .stG sz _ | .stS sz _ | .stE sz _ => decide (sz.toNat < 5)
  | .drainst f | .twait f => decide (f.b = 0)
  | .sfrd f | .twaitAll f => decide (f.b = 1)
  | .sfpop f => decide (f.b = 2)
  | .sfcnt f => decide (f.b = 3)
  | _ => true

/-- The word's scope is one it admits (R123). -/
def scopeOk (i : Instr) : Bool := (Machine.wordInfo i).scopes.testBit (Machine.wordInfo i).sc

/-- Every register field lies in its class (R128). -/
def classesOk (i : Instr) : Bool := (Machine.wordInfo i).uses.all Machine.clsOk

/-- No field holds a value that raises ILL by the encoding or the word's own description (R122 items 1 and 6). -/
def valuesOk (i : Instr) : Bool := !((Machine.wordInfo i).bad || (Machine.wordInfo i).late)

/-- A well-formed instruction. -/
def WellFormed (i : Instr) : Bool := subfieldOk i && scopeOk i && classesOk i && valuesOk i

end Sys2Proof
end

