-- ==== Sys2Proof/Certificates/Slice0/Obligations.lean ====
section
/-!
DEFINITION. The statements about Gyold for the provers, each with the tables its values come from.
-/

namespace Sys2Proof.Claims

open Sys2Proof.Machine

/-! ### Registers that a word writes, as the rules compute them -/

/-- A 32-bit result from an exact integer, modulo 2^32 (R336). -/
def w32 (n : Int) : Word := BitVec.ofInt 32 n

/-- s() and u() of R336. -/
def sv (a : Word) : Int := a.toInt
def uv (a : Word) : Int := a.toNat

/-- The field of R338: position and width. -/
def bfPos (b : Word) : Nat := (b &&& 31).toNat
def bfLen (b : Word) : Nat := min (min (b.extractLsb' 8 6).toNat 32) (32 - bfPos b)

/-- The value of a shift by n (R337), n being the whole low byte of B or the 6-bit constant. -/
def shlTo (a : Word) (n : Nat) : Word := if n < 32 then w32 (uv a * 2 ^ n) else 0
def shrTo (a : Word) (n : Nat) : Word := if n < 32 then w32 (uv a / 2 ^ n) else 0
def sarTo (a : Word) (n : Nat) : Word := if n < 32 then w32 (sv a / 2 ^ n) else if a.msb then 0xFFFF_FFFF else 0

/-- Register written and value, from the w registers of the lane, of every word that writes one w register from w registers alone
(R336 to R340). -/
def wordResult : Instr → Option (Nat × ((Nat → Word) → Word))
  | .add f => some (f.d.toNat, fun w => w32 (uv (w f.a.toNat) + uv (w f.b.toNat)))
  | .sub f => some (f.d.toNat, fun w => w32 (uv (w f.a.toNat) - uv (w f.b.toNat)))
  | .adds f => some (f.d.toNat, fun w => w32 (max (-2147483648) (min 2147483647 (sv (w f.a.toNat) + sv (w f.b.toNat)))))
  | .subs f => some (f.d.toNat, fun w => w32 (max (-2147483648) (min 2147483647 (sv (w f.a.toNat) - sv (w f.b.toNat)))))
  | .mul f => some (f.d.toNat, fun w => w32 (uv (w f.a.toNat) * uv (w f.b.toNat)))
  | .mulh f => some (f.d.toNat, fun w => w32 (sv (w f.a.toNat) * sv (w f.b.toNat) / 2 ^ 32))
  | .mulhu f => some (f.d.toNat, fun w => w32 (uv (w f.a.toNat) * uv (w f.b.toNat) / 2 ^ 32))
  | .mad f => some (f.d.toNat, fun w => w32 (uv (w f.a.toNat) * uv (w f.b.toNat) + uv (w f.d.toNat)))
  | .min f => some (f.d.toNat, fun w => w32 (min (sv (w f.a.toNat)) (sv (w f.b.toNat))))
  | .max f => some (f.d.toNat, fun w => w32 (max (sv (w f.a.toNat)) (sv (w f.b.toNat))))
  | .minu f => some (f.d.toNat, fun w => w32 (min (uv (w f.a.toNat)) (uv (w f.b.toNat))))
  | .maxu f => some (f.d.toNat, fun w => w32 (max (uv (w f.a.toNat)) (uv (w f.b.toNat))))
  | .and f => some (f.d.toNat, fun w => w f.a.toNat &&& w f.b.toNat)
  | .or f => some (f.d.toNat, fun w => w f.a.toNat ||| w f.b.toNat)
  | .xor f => some (f.d.toNat, fun w => w f.a.toNat ^^^ w f.b.toNat)
  | .andn f => some (f.d.toNat, fun w => w f.a.toNat &&& ~~~w f.b.toNat)
  | .sel f => some (f.d.toNat, fun w => (w f.a.toNat &&& w f.d.toNat) ||| (w f.b.toNat &&& ~~~w f.d.toNat))
  | .popc f => some (f.d.toNat, fun w => w32 ((List.range 32).countP (fun i => (w f.a.toNat).getLsbD i)))
  | .clz f => some (f.d.toNat, fun w => w32 (if w f.a.toNat = 0 then 32 else 31 - (Nat.log2 (w f.a.toNat).toNat : Int)))
  | .brev f => some (f.d.toNat, fun w => (w f.a.toNat).reverse)
  | .mov f => some (f.d.toNat, fun w => w f.a.toNat)
  | .shl f => some (f.d.toNat, fun w => shlTo (w f.a.toNat) ((w f.b.toNat).extractLsb' 0 8).toNat)
  | .shr f => some (f.d.toNat, fun w => shrTo (w f.a.toNat) ((w f.b.toNat).extractLsb' 0 8).toNat)
  | .sar f => some (f.d.toNat, fun w => sarTo (w f.a.toNat) ((w f.b.toNat).extractLsb' 0 8).toNat)
  | .shli f => some (f.d.toNat, fun w => shlTo (w f.a.toNat) f.k.toNat)
  | .shri f => some (f.d.toNat, fun w => shrTo (w f.a.toNat) f.k.toNat)
  | .sari f => some (f.d.toNat, fun w => sarTo (w f.a.toNat) f.k.toNat)
  | .bfx f => some (f.d.toNat, fun w => w32 (uv (w f.a.toNat) / 2 ^ bfPos (w f.b.toNat) % 2 ^ bfLen (w f.b.toNat)))
  | .bfxs f => some (f.d.toNat, fun w =>
      let n := uv (w f.a.toNat) / 2 ^ bfPos (w f.b.toNat) % 2 ^ bfLen (w f.b.toNat)
      w32 (if 2 ^ bfLen (w f.b.toNat) ≤ 2 * n then n - 2 ^ bfLen (w f.b.toNat) else n))
  | .bfi f => some (f.d.toNat, fun w =>
      let p := bfPos (w f.b.toNat)
      let n := bfLen (w f.b.toNat)
      w32 (uv (w f.d.toNat) - uv (w f.d.toNat) / 2 ^ p % 2 ^ n * 2 ^ p + uv (w f.a.toNat) % 2 ^ n * 2 ^ p))
  | .movk f => some (f.d.toNat, fun _ => w32 f.k.toInt)
  | .shlk f => some (f.d.toNat, fun w => w32 (uv (w f.d.toNat) * 2 ^ 13 + f.k.toNat))
  | .addk f => some (f.d.toNat, fun w => w32 (uv (w f.a.toNat) + f.k.toInt))
  | _ => none

/-- The 64-bit value of an x register from its two halves, unsigned (R46), and a 64-bit result (R340). -/
def xv (lo hi : Word) : Int := hi.toNat * 2 ^ 32 + lo.toNat
def w64 (n : Int) : DWord := BitVec.ofInt 64 n

/-- Register written and value of every word that writes an x register from w registers (R340): x k is w k and w (k + 1). -/
def pairResult : Instr → Option (Nat × ((Nat → Word) → DWord))
  | .add64 f => some (f.d.toNat, fun w => w64 (xv (w f.a.toNat) (w (f.a.toNat + 1)) + xv (w f.b.toNat) (w (f.b.toNat + 1))))
  | .sub64 f => some (f.d.toNat, fun w => w64 (xv (w f.a.toNat) (w (f.a.toNat + 1)) - xv (w f.b.toNat) (w (f.b.toNat + 1))))
  | .addk64 f => some (f.d.toNat, fun w => w64 (xv (w f.a.toNat) (w (f.a.toNat + 1)) + f.k.toInt))
  | .shl64 f => some (f.d.toNat, fun w =>
      let n := ((w f.b.toNat).extractLsb' 0 8).toNat
      if n < 64 then w64 (xv (w f.a.toNat) (w (f.a.toNat + 1)) * 2 ^ n) else 0)
  | .shr64 f => some (f.d.toNat, fun w =>
      let n := ((w f.b.toNat).extractLsb' 0 8).toNat
      if n < 64 then w64 (xv (w f.a.toNat) (w (f.a.toNat + 1)) / 2 ^ n) else 0)
  | .sext64 f => some (f.d.toNat, fun w => w64 (sv (w f.a.toNat)))
  | .zext64 f => some (f.d.toNat, fun w => w64 (uv (w f.a.toNat)))
  | .lea sh f => some (f.d.toNat, fun w => w64 (xv (w f.a.toNat) (w (f.a.toNat + 1)) + sv (w f.b.toNat) * 2 ^ sh.toNat))
  | _ => none

/-- The comparisons of R341: EQ, NE, LT, LE, GT, GE on the signed values, LTU, LEU, GTU, GEU on the unsigned ones. -/
def condHolds (cond : Nat) (sa sb ua ub : Int) : Bool :=
  match cond with
  | 0 => decide (sa = sb)
  | 1 => decide (sa ≠ sb)
  | 2 => decide (sa < sb)
  | 3 => decide (sa ≤ sb)
  | 4 => decide (sa > sb)
  | 5 => decide (sa ≥ sb)
  | 6 => decide (ua < ub)
  | 7 => decide (ua ≤ ub)
  | 8 => decide (ua > ub)
  | _ => decide (ua ≥ ub)

/-- Predicate written and value, from the w registers and the predicates of the lane (R341 to R343). -/
def predResult : Instr → Option (Nat × ((Nat → Word) → (Nat → Bool) → Bool))
  | .pset c f => some (f.d.toNat, fun w _ =>
      condHolds c.toNat (sv (w f.a.toNat)) (sv (w f.b.toNat)) (uv (w f.a.toNat)) (uv (w f.b.toNat)))
  | .psetk c f => some (f.d.toNat, fun w _ => condHolds c.toNat (sv (w f.a.toNat)) f.k.toInt (uv (w f.a.toNat)) f.k.toNat)
  | .pand f => some (f.d.toNat, fun _ p => p f.a.toNat && p f.b.toNat)
  | .por f => some (f.d.toNat, fun _ p => p f.a.toNat || p f.b.toNat)
  | .pxor f => some (f.d.toNat, fun _ p => xor (p f.a.toNat) (p f.b.toNat))
  | .pnot f => some (f.d.toNat, fun _ p => !p f.a.toNat)
  | .pwr f => some (f.d.toNat, fun w _ => decide (uv (w f.a.toNat) ≠ 0))
  | _ => none

end Sys2Proof.Claims

open Sys2Proof Sys2Proof.Machine Sys2Proof.Claims

/-! ### Encoding -/

/-- Decoding the encoding of a word gives the word back, every operand at every value its field holds (05 R125, R133). -/
def Obligations.EncodingDecodesToItself : Prop :=
  ∀ (i : Instr) (w : BitVec 32), subfieldOk i = true → encode i = some w → decode w = .ok i

/-- A word has one meaning: what it decodes to encodes to it again, so that no bit of it is dropped (05 R125, R133).
A word decodes exactly when its opcode is allocated in the map of R133 and a field B that selects a form names one (R387, R398). -/
def Obligations.DecodingLosesNoBitAndRefusesReservedOpcodes : Prop :=
  (∀ (w : BitVec 32) (i : Instr), decode w = .ok i → encode i = some w ∧ subfieldOk i = true) ∧
  ∀ w : BitVec 32, (∃ i, decode w = .ok i) ↔
    opAllocated (opField w) = true ∧ (opField w = 0x23A → w.toNat % 32 < 4) ∧ (opField w = 0x2CD → w.toNat % 32 < 2)

/-! ### Integer, address and predicate words (14) -/

/-- Every word of R336 to R339, and ADDK of R340, writes its value to w D of each guarded lane, and changes nothing else.
Every 64-bit word of R340 writes its value to x D, that is w D and w D + 1, of each guarded lane, and changes nothing else. -/
def Obligations.IntegerAndAddressWordsWriteTheirResult : Prop :=
  (∀ (i : Instr) (d : Nat) (v : (Nat → Word) → Word) (s : State), wordResult i = some (d, v) → Passes i s →
    ∃ t, exec i s = .next t ∧ RegsOnly (guarded s (wordInfo i).pr) [d] [] s t ∧
      ∀ m ∈ guarded s (wordInfo i).pr, (t.thr s.cur.blk m.1 m.2).rw d = v (rdW s m)) ∧
  ∀ (i : Instr) (d : Nat) (v : (Nat → Word) → DWord) (s : State), pairResult i = some (d, v) → Passes i s →
    ∃ t, exec i s = .next t ∧ RegsOnly (guarded s (wordInfo i).pr) [d, d + 1] [] s t ∧
      ∀ m ∈ guarded s (wordInfo i).pr, (t.thr s.cur.blk m.1 m.2).rx d = v (rdW s m)

namespace Sys2Proof.Claims

open Sys2Proof.Machine

/-- w register written and value, from what a member reads of predicates, group registers and the guarded members (R343, R344, R346). -/
def crossResult (s : State) : Instr → Option (Nat × (Nat × Nat → Word))
  | .prd f => some (f.d.toNat, fun m => if rdP s m f.a.toNat then 0xFFFF_FFFF else 0)
  | .movw f => some (f.d.toNat, fun m => (s.srcGrp m.1).rg f.a.toNat)
  | .voteBal f => some (f.d.toNat, fun _ =>
      w32 (((guarded s f.pr.toNat).filter (fun m => xor (rdP s m f.a.toNat) (f.b.getLsbD 0))).map (fun m => 2 ^ m.2)).sum)
  | _ => none

/-- The outcome of a vote over the guarded members (R344); field B bit 0 votes on the negated predicate. -/
def voteResult (s : State) : Instr → Option (Nat × Bool)
  | .voteAny f => some (f.d.toNat, decide (∃ m ∈ guarded s f.pr.toNat, xor (rdP s m f.a.toNat) (f.b.getLsbD 0) = true))
  | .voteAll f => some (f.d.toNat, decide (∀ m ∈ guarded s f.pr.toNat, xor (rdP s m f.a.toNat) (f.b.getLsbD 0) = true))
  | _ => none

/-- w register written, value and flags of the floating-point and conversion words, from the FTZ and F8NS bits of the lane's group and
its w registers as numbers (15 R359 to R372). The arithmetic is the model's own, exact and rounded once. -/
def floatResult : Instr → Option (Nat × (Bool → Bool → (Nat → Nat) → FRes))
  | .fadd rm f => some (f.d.toNat, fun z _ w => fpAddBits fp32 rm.toNat z (w f.a.toNat) (w f.b.toNat))
  | .fsub rm f => some (f.d.toNat, fun z _ w => fpSubBits fp32 rm.toNat z (w f.a.toNat) (w f.b.toNat))
  | .fmul rm f => some (f.d.toNat, fun z _ w => fpMulBits fp32 rm.toNat z (w f.a.toNat) (w f.b.toNat))
  | .ffma rm f => some (f.d.toNat, fun z _ w => fpFmaBits fp32 rm.toNat z (w f.a.toNat) (w f.b.toNat) (w f.d.toNat))
  | .fmin f => some (f.d.toNat, fun z _ w => fpMinMaxBits fp32 z false (w f.a.toNat) (w f.b.toNat))
  | .fmax f => some (f.d.toNat, fun z _ w => fpMinMaxBits fp32 z true (w f.a.toNat) (w f.b.toNat))
  | .fabs f => some (f.d.toNat, fun z _ w => ⟨fpAbsBits fp32 z (w f.a.toNat), 0⟩)
  | .fneg f => some (f.d.toNat, fun z _ w => ⟨fpNegBits fp32 z (w f.a.toNat), 0⟩)
  | .hadd2 rm f => some (f.d.toNat, fun z _ w => packed2 (fpAddBits bf16 rm.toNat z) (w f.a.toNat) (w f.b.toNat))
  | .hsub2 rm f => some (f.d.toNat, fun z _ w => packed2 (fpSubBits bf16 rm.toNat z) (w f.a.toNat) (w f.b.toNat))
  | .hmul2 rm f => some (f.d.toNat, fun z _ w => packed2 (fpMulBits bf16 rm.toNat z) (w f.a.toNat) (w f.b.toNat))
  | .hfma2 rm f => some (f.d.toNat, fun z _ w => packed3 (fpFmaBits bf16 rm.toNat z) (w f.a.toNat) (w f.b.toNat) (w f.d.toNat))
  | .hmin2 f => some (f.d.toNat, fun z _ w => packed2 (fpMinMaxBits bf16 z false) (w f.a.toNat) (w f.b.toNat))
  | .hmax2 f => some (f.d.toNat, fun z _ w => packed2 (fpMinMaxBits bf16 z true) (w f.a.toNat) (w f.b.toNat))
  | .habs2 f => some (f.d.toNat, fun z _ w => packed2 (fun x _ => ⟨fpAbsBits bf16 z x, 0⟩) (w f.a.toNat) 0)
  | .hneg2 f => some (f.d.toNat, fun z _ w => packed2 (fun x _ => ⟨fpNegBits bf16 z x, 0⟩) (w f.a.toNat) 0)
  | .hdot2 rm f => some (f.d.toNat, fun z _ w => hdot rm.toNat z (w f.a.toNat) (w f.b.toNat) (w f.d.toNat))
  | .cvtBf16F32 rm f => some (f.d.toNat, fun z _ w =>
      packed (fpDeliver bf16 rm.toNat z (fpSource fp32 z (w f.a.toNat))) (fpDeliver bf16 rm.toNat z (fpSource fp32 z (w f.b.toNat))))
  | .cvtF32Bf16l f => some (f.d.toNat, fun z _ w => ⟨fpWiden fp32 (fpSource bf16 z (w f.a.toNat % 2 ^ 16)), 0⟩)
  | .cvtF32Bf16h f => some (f.d.toNat, fun z _ w => ⟨fpWiden fp32 (fpSource bf16 z (w f.a.toNat / 2 ^ 16 % 2 ^ 16)), 0⟩)
  | .cvtE4m3Bf16 rm f => some (f.d.toNat, fun _ n w => toEight e4m3 rm.toNat n (w f.a.toNat) (w f.b.toNat))
  | .cvtE5m2Bf16 rm f => some (f.d.toNat, fun _ n w => toEight e5m2 rm.toNat n (w f.a.toNat) (w f.b.toNat))
  | .cvtBf16E4m3l f => some (f.d.toNat, fun _ _ w => fromEight e4m3 0 (w f.a.toNat))
  | .cvtBf16E4m3h f => some (f.d.toNat, fun _ _ w => fromEight e4m3 2 (w f.a.toNat))
  | .cvtBf16E5m2l f => some (f.d.toNat, fun _ _ w => fromEight e5m2 0 (w f.a.toNat))
  | .cvtBf16E5m2h f => some (f.d.toNat, fun _ _ w => fromEight e5m2 2 (w f.a.toNat))
  | .cvtS32F32 rm f => some (f.d.toNat, fun _ _ w => toInteger rm.toNat (-(2 ^ 31)) (2 ^ 31 - 1) (w f.a.toNat))
  | .cvtU32F32 rm f => some (f.d.toNat, fun _ _ w => toInteger rm.toNat 0 (2 ^ 32 - 1) (w f.a.toNat))
  | .cvtF32S32 rm f => some (f.d.toNat, fun _ _ w => fpDeliver fp32 rm.toNat false (fpOfInt (BitVec.ofNat 32 (w f.a.toNat)).toInt 0))
  | .cvtF32U32 rm f => some (f.d.toNat, fun _ _ w => fpDeliver fp32 rm.toNat false (fpOfInt (w f.a.toNat) 0))
  | .cvtS4S8 f => some (f.d.toNat, fun _ _ w => ⟨packNibbles (w f.a.toNat) (w f.b.toNat), 0⟩)
  | .cvtS8S4l f => some (f.d.toNat, fun _ _ w => ⟨spreadNibbles 0 (w f.a.toNat), 0⟩)
  | .cvtS8S4h f => some (f.d.toNat, fun _ _ w => ⟨spreadNibbles 4 (w f.a.toNat), 0⟩)
  | .fsinr f => some (f.d.toNat, fun z _ w => fsincos false z (w f.a.toNat) (w f.b.toNat))
  | .fcosr f => some (f.d.toNat, fun z _ w => fsincos true z (w f.a.toNat) (w f.b.toNat))
  | .fexp2 f => some (f.d.toNat, fun z _ w => Machine.fexp2 z (w f.a.toNat))
  | .flog2 f => some (f.d.toNat, fun z _ w => Machine.flog2 z (w f.a.toNat))
  | .frcp f => some (f.d.toNat, fun z _ w => Machine.frcp z (w f.a.toNat))
  | .frsq f => some (f.d.toNat, fun z _ w => Machine.frsq z (w f.a.toNat))
  | .fsqrt f => some (f.d.toNat, fun z _ w => Machine.fsqrt z (w f.a.toNat))
  | _ => none

/-- The comparison of an FSET word: EQ, NE, LT, LE, GT, GE, UN, OR in the order of their opcodes (R361). -/
def fsetForm : Instr → Option (Nat × WA)
  | .fsetEqToLe c f => some (c.toNat, f)
  | .fsetGtToOr c f => some (4 + c.toNat, f)
  | _ => none

/-- The flags of several members of a group, together (R42). -/
def flagsOf (who : List (Nat × Nat)) (j : Nat) (fl : Nat × Nat → Nat) : Word :=
  BitVec.ofNat 32 ((who.filter (fun m => m.1 = j)).foldl (fun n m => n ||| fl m) 0)

/-- The source lane of a lane exchange among N lanes, for lane l and the value i of w B; none gives 0 (R374). -/
def laneSource : Instr → Option (Nat × Nat × (Nat → Nat → Nat → Option Nat))
  | .lswpP f => some (f.d.toNat, f.a.toNat, fun _ l _ => some (if l % 2 = 0 then l + 1 else l - 1))
  | .lshf f => some (f.d.toNat, f.a.toNat, fun n l _ =>
      some (if 0 ≤ (l : Int) - f.k.toInt ∧ (l : Int) - f.k.toInt < n then ((l : Int) - f.k.toInt).toNat else l))
  | .lbcast f => some (f.d.toNat, f.a.toNat, fun _ _ _ => some f.k.toNat)
  | .lxor f => some (f.d.toNat, f.a.toNat, fun n l _ => some (if l ^^^ f.k.toNat < n then l ^^^ f.k.toNat else l))
  | .lidx f => some (f.d.toNat, f.a.toNat, fun n _ i => if i < n then some i else none)
  | .lrot f => some (f.d.toNat, f.a.toNat, fun n l _ => some (((l : Int) - f.k.toNat) % n).toNat)
  | _ => none

/-- The groups whose lanes a lane exchange numbers for a member, as the issue finds them: those of its set at set scope, else its own (R373, R120). -/
def laneGroups (s : State) (sc : Nat) (m : Nat × Nat) : List Nat :=
  if sc = 2 then scopeGroups s.srcBlk m.1 2 else [m.1]

/-- What N and l of R373 name for a member: the source lane's place among the lanes, and its group and lane. -/
def laneFrom (s : State) (i : Instr) (src : Nat → Nat → Nat → Option Nat) (m : Nat × Nat) : Option (Nat × Nat) :=
  let gs := laneGroups s (wordInfo i).sc m
  let index := match i with | .lidx f => (rdW s m f.b.toNat).toNat | _ => 0
  (src (32 * gs.length) (32 * gs.idxOf m.1 + m.2) index).map (fun l => (gs.getD (l / 32) m.1, l % 32))

/-- The constant of LBCAST and LXOR must name a lane at every scope (R374). -/
def laneConstant : Instr → Nat
  | .lbcast f => f.k.toNat
  | .lxor f => f.k.toNat
  | _ => 0

/-- The sum of the PC of BRA or CALL and its offset, before it is taken as an address (R118, R347). -/
def branchSum (s : State) (f : WJ) : Int := s.cur.pc.toNat + 4 * f.off.toInt

/-- Where a transfer word takes a member thread (R347, R348, R350). -/
def transferTarget (s : State) (m : Nat × Nat) : Instr → Option CodeAddr
  | .bra f => some (BitVec.ofInt 48 (branchSum s f))
  | .call f => some (BitVec.ofInt 48 (branchSum s f))
  | .brx f => some (BitVec.ofNat 48 (rdX s m f.a.toNat).toNat)
  | .callx f => some (BitVec.ofNat 48 (rdX s m f.a.toNat).toNat)
  | .ret _ => some (BitVec.ofNat 48 (s.cur.pc.toNat / 2 ^ 32 * 2 ^ 32 + (rdW s m 14).toNat))
  | _ => none

/-- A transfer's target passes R118, R348 and R350: an address of 48 bits, and bits [1:0] zero. -/
def targetLegal (s : State) (m : Nat × Nat) : Instr → Bool
  | .bra f => decide (0 ≤ branchSum s f ∧ branchSum s f < 2 ^ 48)
  | .call f => decide (0 ≤ branchSum s f ∧ branchSum s f < 2 ^ 48)
  | .brx f => decide ((rdX s m f.a.toNat).toNat < 2 ^ 48 ∧ (rdX s m f.a.toNat).toNat % 4 = 0)
  | .callx f => decide ((rdX s m f.a.toNat).toNat < 2 ^ 48 ∧ (rdX s m f.a.toNat).toNat % 4 = 0)
  | .ret _ => decide ((rdW s m 14).toNat % 4 = 0)
  | _ => true

/-- CALL and CALLX write w14 (R349). -/
def writesLink : Instr → Bool
  | .call _ | .callx _ => true
  | _ => false

/-- A thread without its registers and its PC. -/
def sansPc (t : Thread) : Thread := { t.sansRegs with pc := 0 }

end Sys2Proof.Claims

/-- PSET, PSETK, PAND, POR, PXOR, PNOT and PWR write their truth value to predicate D of each guarded lane, and change nothing else
(R341 to R343).
VOTE.ANY and VOTE.ALL write the outcome over the guarded members to predicate D of each of them, and change nothing else (R344). -/
def Obligations.PredicateWordsAndVotesWriteTheirResult : Prop :=
  (∀ (i : Instr) (d : Nat) (v : (Nat → Word) → (Nat → Bool) → Bool) (s : State), predResult i = some (d, v) → Passes i s →
    ∃ t, exec i s = .next t ∧ RegsOnly (guarded s (wordInfo i).pr) [] [d] s t ∧
      ∀ m ∈ guarded s (wordInfo i).pr, (t.thr s.cur.blk m.1 m.2).rp d = v (rdW s m) (rdP s m)) ∧
  ∀ (i : Instr) (d : Nat) (r : Bool) (s : State), voteResult s i = some (d, r) → Passes i s →
    ∃ t, exec i s = .next t ∧ RegsOnly (guarded s (wordInfo i).pr) [] [d] s t ∧
      ∀ m ∈ guarded s (wordInfo i).pr, (t.thr s.cur.blk m.1 m.2).rp d = r

/-- PRD, MOVW and VOTE.BAL write their value to w D of each guarded lane, and change nothing else (R343, R344, R346).
MOVG writes w A of the lowest guarded member to g D of every group of the scope. A converged issue clears the register's
divergent-write record; a divergent one sets it, and sets UDIV when it was set before (R258, R259, R345). -/
def Obligations.CrossClassWordsWriteRegisterOrGroupRegister : Prop :=
  (∀ (i : Instr) (d : Nat) (v : Nat × Nat → Word) (s : State), crossResult s i = some (d, v) → Passes i s →
    ∃ t, exec i s = .next t ∧ RegsOnly (guarded s (wordInfo i).pr) [d] [] s t ∧
      ∀ m ∈ guarded s (wordInfo i).pr, (t.thr s.cur.blk m.1 m.2).rw d = v m) ∧
  ∀ (f : WA) (s : State) (m : Nat × Nat), Passes (.movg f) s → lowest s f.pr.toNat = some m → s.cur.groups.Nodup →
    (converged s = true ∨ tget false (s.grp s.cur.blk s.cur.j).gflag f.d.toNat = false ∨ (s.grp s.cur.blk s.cur.j).udt = false) →
    ∃ t, exec (.movg f) s = .next t ∧ SameDevice s t ∧ NoRegs s t ∧ SameGroups (Group.sansReg f.d.toNat) s t ∧
      (∀ j ∈ s.cur.groups, (t.grp s.cur.blk j).rg f.d.toNat = rdW s m f.a.toNat ∧
        tget false (t.grp s.cur.blk j).gflag f.d.toNat = !converged s ∧
        (t.grp s.cur.blk j).udiv = ((s.grp s.cur.blk j).udiv || (!converged s && tget false (s.grp s.cur.blk j).gflag f.d.toNat))) ∧
      ∀ b j, (b = s.cur.blk → j ∉ s.cur.groups) → Group.sansThreads (t.grp b j) = Group.sansThreads (s.grp b j)

/-! ### Floating point and lane exchange (15) -/

/-- Every floating-point and conversion word writes its value to w D of each guarded lane and ORs the lanes' flags into the FPC of their
groups, and changes nothing else (R357 to R372).
FRRED writes the reduced angle to w D and the quadrant to w D + 1 of each guarded lane, and raises the flags (R370).
FSET writes the truth of its comparison to predicate D of each guarded lane, and raises NV where a source is NaN (R361). -/
def Obligations.FloatingPointWordsWriteResultAndFlags : Prop :=
  (∀ (i : Instr) (d : Nat) (v : Bool → Bool → (Nat → Nat) → FRes) (s : State), floatResult i = some (d, v) → Passes i s →
    ∃ t, exec i s = .next t ∧ RegsAndFlags (guarded s (wordInfo i).pr) [d] [] s t ∧
      (∀ m ∈ guarded s (wordInfo i).pr,
        (t.thr s.cur.blk m.1 m.2).rw d = BitVec.ofNat 32 (v (ftzOf s m) (f8nsOf s m) (fun r => (rdW s m r).toNat)).bits) ∧
      ∀ b j, (t.grp b j).fpc = (s.grp b j).fpc ||| if b = s.cur.blk then
        flagsOf (guarded s (wordInfo i).pr) j (fun m => (v (ftzOf s m) (f8nsOf s m) (fun r => (rdW s m r).toNat)).flags) else 0) ∧
  (∀ (f : WA) (s : State), Passes (.frred f) s →
    ∃ t, exec (.frred f) s = .next t ∧ RegsAndFlags (guarded s f.pr.toNat) [f.d.toNat, f.d.toNat + 1] [] s t ∧
      (∀ m ∈ guarded s f.pr.toNat,
        (t.thr s.cur.blk m.1 m.2).rw f.d.toNat = BitVec.ofNat 32 (frred (ftzOf s m) (rdW s m f.a.toNat).toNat).1.bits ∧
        (t.thr s.cur.blk m.1 m.2).rw (f.d.toNat + 1) = BitVec.ofNat 32 (frred (ftzOf s m) (rdW s m f.a.toNat).toNat).2) ∧
      ∀ b j, (t.grp b j).fpc = (s.grp b j).fpc ||| if b = s.cur.blk then
        flagsOf (guarded s f.pr.toNat) j (fun m => (frred (ftzOf s m) (rdW s m f.a.toNat).toNat).1.flags) else 0) ∧
  ∀ (i : Instr) (c : Nat) (f : WA) (s : State), fsetForm i = some (c, f) → Passes i s →
    ∃ t, exec i s = .next t ∧ RegsAndFlags (guarded s f.pr.toNat) [] [f.d.toNat] s t ∧
      (∀ m ∈ guarded s f.pr.toNat, (t.thr s.cur.blk m.1 m.2).rp f.d.toNat =
        fpCompare c (fpSource fp32 (ftzOf s m) (rdW s m f.a.toNat).toNat) (fpSource fp32 (ftzOf s m) (rdW s m f.b.toNat).toNat)) ∧
      ∀ b j, (t.grp b j).fpc = (s.grp b j).fpc ||| if b = s.cur.blk then
        flagsOf (guarded s f.pr.toNat) j (fun m => if fpSource fp32 (ftzOf s m) (rdW s m f.a.toNat).toNat = .nan ∨
          fpSource fp32 (ftzOf s m) (rdW s m f.b.toNat).toNat = .nan then 16 else 0) else 0

/-- Every lane-exchange word writes to w D of each guarded lane w A of the lane that R374 names among the lanes of its group, or of its
set at set scope, whether or not that lane is guarded, and changes nothing else (R373, R374); where one of those lanes holds an uncorrectable
error in w A, it raises SOFTERR (R375). LBCAST and LXOR with a constant of N or more, which their
field reaches where N is 32, raise ILL, in a group that holds the registers they name (R374, R122). -/
def Obligations.LaneExchangeReadsTheNamedLane : Prop :=
  (∀ (i : Instr) (d a : Nat) (src : Nat → Nat → Nat → Option Nat) (s : State), laneSource i = some (d, a, src) → Passes i s →
    (∀ m ∈ s.cur.members, laneConstant i < 32 * (laneGroups s (wordInfo i).sc m).length ∧ m.1 ∈ laneGroups s (wordInfo i).sc m) →
    ((∀ m ∈ guarded s (wordInfo i).pr, ∀ n, laneFrom s i src m = some n → a ∉ (s.srcThr n).bad) →
      ∃ t, exec i s = .next t ∧ RegsOnly (guarded s (wordInfo i).pr) [d] [] s t ∧
        ∀ m ∈ guarded s (wordInfo i).pr,
          (t.thr s.cur.blk m.1 m.2).rw d = match laneFrom s i src m with | some n => rdW s n a | none => 0) ∧
    ((∃ m ∈ guarded s (wordInfo i).pr, ∃ n, laneFrom s i src m = some n ∧ a ∈ (s.srcThr n).bad) → s.cur.go = false →
      exec i s = .next (raise s { cause := 0x1F, det := 1 }))) ∧
  ∀ (f : WI) (i : Instr) (s : State), i = .lbcast f ∨ i = .lxor f → f.sc.toNat < 2 → 32 ≤ f.k.toNat →
    xregOk s i = true → s.cur.go = false → ∃ x, exec i s = .next (raise s x) ∧ x.cause = 0x01 ∧ x.prec = true ∧ x.only = none

/-! ### Transfers of control, EXIT, NOP, YIELD, SLEEP, REP (14) -/

/-- BRA, CALL, BRX, CALLX and RET move each guarded thread to its own target; CALL and CALLX also write the address of the word after
them to w14. Other threads keep their PC, and nothing else changes (R347 to R350).
BRA and CALL to a target outside the code addresses 0 to 2^48 - 1 raise PROT where a thread is guarded (R118).
BRX and CALLX check every guarded lane's target before any thread moves: a target with a bit of [63:48] set in any lane raises PROT,
whatever the alignment of the others, and else a misaligned one ALIGN (R348). RET raises ALIGN for a misaligned w14 (R350). -/
def Obligations.TransfersMoveGuardedThreadsOrTrap : Prop :=
  (∀ (i : Instr) (s : State), (∀ m, (transferTarget s m i).isSome = true) → Passes i s →
    (∀ m ∈ guarded s (wordInfo i).pr, targetLegal s m i = true) →
    ∃ t, exec i s = .next t ∧ SameDevice s t ∧ SameGroups Group.sansThreads s t ∧
      SameRegs (guarded s (wordInfo i).pr) (if writesLink i then [14] else []) [] s t ∧
      (∀ b j l, sansPc (t.thr b j l) = sansPc (s.thr b j l)) ∧
      (∀ b j l, (b = s.cur.blk → (j, l) ∉ guarded s (wordInfo i).pr) → (t.thr b j l).pc = (s.thr b j l).pc) ∧
      ∀ m ∈ guarded s (wordInfo i).pr, some (t.thr s.cur.blk m.1 m.2).pc = transferTarget s m i ∧
        (writesLink i = true → (t.thr s.cur.blk m.1 m.2).rw 14 = (s.cur.pc + 4).setWidth 32)) ∧
  (∀ (f : WJ) (i : Instr) (s : State), i = .bra f ∨ i = .call f → Checked i s → guarded s f.pr.toNat ≠ [] →
    (branchSum s f < 0 ∨ 2 ^ 48 ≤ branchSum s f) →
    ∃ x, exec i s = .next (raise s x) ∧ x.cause = 0x0B ∧ x.prec = true ∧ x.only = none) ∧
  (∀ (f : WA) (s : State), Checked (.brx f) s → Checked (.callx f) s →
    let ms := guarded s f.pr.toNat
    let at_ : List ((Nat × Nat) × Nat × Nat) := ms.map (fun m => (m, (rdX s m f.a.toNat).toNat, 0))
    ((∃ m ∈ ms, 2 ^ 48 ≤ (rdX s m f.a.toNat).toNat) →
      exec (.brx f) s = .next (raise s { cause := cPROT, addr := at_ }) ∧ exec (.callx f) s = .next (raise s { cause := cPROT, addr := at_ })) ∧
    ((∀ m ∈ ms, (rdX s m f.a.toNat).toNat < 2 ^ 48) → (∃ m ∈ ms, (rdX s m f.a.toNat).toNat % 4 ≠ 0) →
      exec (.brx f) s = .next (raise s { cause := cALIGN, addr := at_ }) ∧ exec (.callx f) s = .next (raise s { cause := cALIGN, addr := at_ }))) ∧
  ∀ (f : WA) (s : State), Checked (.ret f) s → (∃ m ∈ guarded s f.pr.toNat, (rdW s m 14).toNat % 4 ≠ 0) →
    exec (.ret f) s = .next (raise s { cause := cALIGN, addr := (guarded s f.pr.toNat).map (fun m => (m, (retTarget s m).toNat, 0)) })

/-- EXIT, with nothing left to wait for, to store or to report in its groups, now and before its issue, ends every guarded thread and stores nothing. The others keep their mode
and PC, unless a group of a wider scope runs a handler (R353, R451). -/
def Obligations.ExitEndsGuardedThreads : Prop :=
  ∀ (f : WA) (s : State), Passes (.exit f) s → unsettled s true = [] →
    (∀ m ∈ s.cur.members, settledGroup (s.blk s.cur.blk) (s.grp s.cur.blk m.1) (s.lanesOfGroup m.1) true = true) →
    (∀ m ∈ guarded s f.pr.toNat, (s.grp s.cur.blk m.1).done = false) →
    ∃ t, exec (.exit f) s = .next t ∧ SameBytes s t ∧
      (∀ m ∈ guarded s f.pr.toNat, (t.thr s.cur.blk m.1 m.2).mode = .exited) ∧
      ((f.sc = 0 ∨ ∀ m ∈ guarded s f.pr.toNat, (s.grp s.cur.blk m.1).hm = false) →
        ∀ b j l, (b = s.cur.blk → (j, l) ∉ guarded s f.pr.toNat) →
          (t.thr b j l).mode = (s.thr b j l).mode ∧ (t.thr b j l).pc = (s.thr b j l).pc)

/-- NOP has no effect, whatever its guard, D and K13. The word 0x0000_0000 is NOP. A NOP chained with another word of pipe CT raises CHAIN
(R354). -/
def Obligations.NopHasNoEffect : Prop :=
  (∀ (f : WK) (s : State), Passes (.nop f) s → ∃ t, exec (.nop f) s = .next t ∧ RegsOnly [] [] [] s t) ∧
  decode 0 = .ok (.nop ⟨false, false, 0, 0, 0⟩) ∧
  ∀ (f : WK) (u v : FWord) (i : Instr), u.ins = some (.nop f) → v.ins = some i → (wordInfo i).pipe = .ct →
    issueChain [u, v] = true ∧ issueChain [v, u] = true

/-- REP sets up the repetitions of the next word, CNT + 1 of them with its three steps, and changes nothing else (05 R131).
YIELD k, and SLEEP 0 as YIELD 0, keep each group with a guarded thread from issuing for max(k, 1) fc and clear WAITC. SLEEP k with k
of 1 or more puts the group to sleep until g + 16 k, in a block that is not marked for termination (R355). -/
def Obligations.RepYieldAndSleepSetTheGroupAside : Prop :=
  (∀ (f : WP) (s : State), Passes (.rep f) s →
    ∃ t, exec (.rep f) s = .next t ∧ t.cur.rep = some (f.cnt.toNat + 1, f.sd.toNat, f.sa.toNat, f.sb.toNat) ∧
      { t with cur := { t.cur with rep := none } } = { s with cur := { s.cur with rep := none } }) ∧
  (∀ (i : Instr) (k pr : Nat) (s : State), ((∃ f : WK, i = .yield f ∧ k = f.k.toNat ∧ pr = f.pr.toNat) ∨
      ∃ f : WK, i = .sleep f ∧ f.k = 0 ∧ k = 0 ∧ pr = f.pr.toNat) → Passes i s →
    ∃ t, exec i s = .next t ∧ QuietDevice s t ∧ NoRegs s t ∧ SameGroups (fun g => { g.sansThreads with waitc := 0 }) s t ∧
      ∀ j ∈ guardedGroups s pr, (t.grp s.cur.blk j).waitc = 0 ∧ (t.grp s.cur.blk j).notBefore = s.gts + max k 1 + 1 ∧
        (t.grp s.cur.blk j).wait = (s.grp s.cur.blk j).wait) ∧
  ∀ (f : WK) (s : State), Passes (.sleep f) s → f.k ≠ 0 → (s.blk s.cur.blk).marked = false →
    ∃ t, exec (.sleep f) s = .next t ∧ QuietDevice s t ∧ NoRegs s t ∧ SameGroups Group.sansWait s t ∧
      ∀ j ∈ guardedGroups s f.pr.toNat, (t.grp s.cur.blk j).wait = .sleep (s.gts + 16 * f.k.toNat) ∧
        ∃ e ∈ t.agenda, e.due = s.gts + 16 * f.k.toNat ∧ e.ev = .sleepWake ∧ e.arg.x = s.cur.blk ∧ e.arg.y = j

namespace Sys2Proof.Claims

open Sys2Proof.Machine

/-- Everything outside the blocks and the cores stays, but events may be placed on the agenda. -/
def SameOutside (s t : State) : Prop :=
  { t with blks := [], cores := [], agenda := [], freeCtr := 0, nextId := 0 } =
    { s with blks := [], cores := [], agenda := [], freeCtr := 0, nextId := 0 } ∧ SameBytes s t ∧ ∀ e ∈ s.agenda, e ∈ t.agenda

/-- Space and form of a load word: 0 global, 1 scratchpad, 2 eaves (R379). -/
def loadForm : Instr → Option (Nat × BitVec 3 × WM)
  | .ldG sz f => some (0, sz, f)
  | .ldS sz f => some (1, sz, f)
  | .ldE sz f => some (2, sz, f)
  | _ => none

/-- Space and form of a store word. -/
def storeForm : Instr → Option (Nat × BitVec 3 × WM)
  | .stG sz f => some (0, sz, f)
  | .stS sz f => some (1, sz, f)
  | .stE sz f => some (2, sz, f)
  | _ => none

/-- Operation, memory scope and form of an atomic word, the operations numbered as in its opcode (R133, R384). -/
def atomForm : Instr → Option (Nat × BitVec 2 × WMA)
  | .atomAdd ms f => some (0, ms, f)
  | .atomMin ms f => some (1, ms, f)
  | .atomMax ms f => some (2, ms, f)
  | .atomMinu ms f => some (3, ms, f)
  | .atomMaxu ms f => some (4, ms, f)
  | .atomAnd ms f => some (5, ms, f)
  | .atomOr ms f => some (6, ms, f)
  | .atomXor ms f => some (7, ms, f)
  | .atomExch ms f => some (8, ms, f)
  | .atomCas ms f => some (9, ms, f)
  | .atomLd ms f => some (10, ms, f)
  | .atomSt ms f => some (11, ms, f)
  | .atomFadd ms f => some (12, ms, f)
  | .atomAdd64 ms f => some (13, ms, f)
  | _ => none

/-- Bytes of a load of size code sz, and of a store (R379). -/
def loadBytes (sz : BitVec 3) : Nat := [1, 1, 2, 2, 4, 8, 16, 16].getD sz.toNat 0
def storeBytes (sz : BitVec 3) : Nat := [1, 2, 4, 8, 16, 16, 16, 16].getD sz.toNat 0

/-- The effective address of a lane: base and offset, the offset counted in accesses, modulo 2^64 in global space and modulo 2^32 in the
others (R376). -/
def laneAddress (s : State) (m : Nat × Nat) (sp a n : Nat) (off : BitVec 6) : Nat :=
  if sp = 0 then (BitVec.ofInt 64 ((rdX s m a).toNat + n * off.toInt)).toNat else (BitVec.ofInt 32 ((rdW s m a).toNat + n * off.toInt)).toNat

/-- The lanes of one group among the guarded members, in lane order as the issue lists them. -/
def lanesIn (s : State) (pr j : Nat) : List Nat := ((guarded s pr).filter (fun m => m.1 = j)).map Prod.snd

/-- The prefetch words. -/
def prefetchForm : Instr → Option WM
  | .prefL1 f => some f
  | .prefL2 f => some f
  | _ => none

/-- The three fences of the memory pipe that wait for the store queue or hold later commands. -/
def waitingFence : Instr → Option WA
  | .drainst f => some f
  | .dfence f => some f
  | _ => none

end Sys2Proof.Claims

/-! ### Loads, stores, atomics and prefetches (16) -/

/-- A load whose checks pass enters one pending result in each group with a guarded lane: its destination, size and sign, and each guarded
lane's space and effective address, at the next place of the group's order; the return of each lane's result is posted. No register
and no byte of memory changes at issue (R376, R377, R379, R381). A global load asks the slice of each lane's line for it, where the line's
home is this device's memory and the core's L1 does not hold it (22 R493). -/
def Obligations.LoadsEnterTheirResult : Prop :=
  ∀ (i : Instr) (sp : Nat) (sz : BitVec 3) (f : WM) (s : State), loadForm i = some (sp, sz, f) → Passes i s →
    loadCheck s sp (loadSize sz) f = .pass →
    ∃ t, exec i s = .next t ∧ SameOutside s t ∧ NoRegs s t ∧ SameGroups Group.sansPend s t ∧
      (∀ n, { t.core n with l2Next := 0 } = { s.core n with l2Next := 0 }) ∧ (sp ≠ 0 → QuietDevice s t) ∧
      (sp = 0 → ∀ m ∈ guarded s f.pr.toNat, ∀ pa e,
        translate s (s.blk s.cur.blk).ctx (vaOf (laneAddress s m 0 f.a.toNat (loadBytes sz) f.off)) aLOAD (s.blk s.cur.blk).priv =
          .ok s.devNo pa e →
        pa.testBit 39 = false →
        inL1 s (s.blkCore s.cur.blk) (vaOf (laneAddress s m 0 f.a.toNat (loadBytes sz) f.off)) pa = false →
        ∃ v ∈ t.agenda, v.ev = .l2RequestAccept ∧ s.gts ≤ v.due ∧ v.arg.x = sliceOf pa ∧ v.arg.y = pa / 128 ∧
          v.arg.z = s.blkCore s.cur.blk) ∧
      (∀ j ∈ guardedGroups s f.pr.toNat, ∃ old p, (t.grp s.cur.blk j).pend = old ++ [p] ∧
        old.map (fun q => { q with cancel := [] }) = (s.grp s.cur.blk j).results ∧
        p.kind = .load ∧ p.size = loadBytes sz ∧ p.signed = decide (sz = 1 ∨ sz = 3) ∧ p.d = f.d.toNat ∧ p.cancel = [] ∧
        p.seq = (s.grp s.cur.blk j).nextSeq ∧ (t.grp s.cur.blk j).nextSeq = (s.grp s.cur.blk j).nextSeq + 1 ∧
        p.accs.map (fun a => (a.lane, a.sp, a.addr)) =
          (lanesIn s f.pr.toNat j).map (fun l => (l, sp, laneAddress s (j, l) sp f.a.toNat (loadBytes sz) f.off)) ∧
        (∀ a ∈ p.accs, a.st = 0 ∧ a.cap = false ∧ ∃ e ∈ t.agenda, e.ev = .loadResultReturn ∧ s.gts ≤ e.due ∧
          e.arg = { x := s.cur.blk, y := j, z := p.id, u := a.lane })) ∧
      ∀ b j, (b = s.cur.blk → j ∉ guardedGroups s f.pr.toNat) → (t.grp b j).results = (s.grp b j).results

/-- A store whose checks pass takes one entry at the tail of the store queue of each group with a guarded lane, with each guarded lane's
space, effective address and data as the registers hold it at issue; the queue is asked to perform. No byte of memory changes at issue:
the entry is performed from the queue (R377, R379, R382). -/
def Obligations.StoresEnterTheQueue : Prop :=
  ∀ (i : Instr) (sp : Nat) (sz : BitVec 3) (f : WM) (s : State), storeForm i = some (sp, sz, f) → Passes i s →
    storeCheck s sp (storeSize sz) f = .pass →
    ∃ t, exec i s = .next t ∧ QuietDevice s t ∧ NoRegs s t ∧
      (∀ b, { (t.blk b).sansGroups with shadow := [] } = { (s.blk b).sansGroups with shadow := [] }) ∧
      (∀ b j, (t.grp b j).sansQueue = (s.grp b j).sansQueue ∧ (t.grp b j).results = (s.grp b j).results) ∧
      (∀ j ∈ guardedGroups s f.pr.toNat, ∃ e, (t.grp s.cur.blk j).sq = (s.grp s.cur.blk j).sq ++ [e] ∧
        e.kind = .store ∧ e.size = storeBytes sz ∧ e.fault = none ∧ e.sent = false ∧ e.seq = (s.grp s.cur.blk j).nextSeq ∧
        e.accs.map (fun a => (a.lane, a.sp, a.addr)) =
          (lanesIn s f.pr.toNat j).map (fun l => (l, sp, laneAddress s (j, l) sp f.a.toNat (storeBytes sz) f.off)) ∧
        (∀ a ∈ e.accs, a.st = 0 ∧ natLe e.size (a.lo.toNat + a.hi.toNat * 2 ^ 64) =
          (List.range (storeBytes sz)).map (fun k => (rdW s (j, a.lane) (f.d.toNat + k / 4)).extractLsb' (8 * (k % 4)) 8)) ∧
        t.posted .storeQueuePerform { x := s.cur.blk, y := j } = true) ∧
      ∀ b j, (b = s.cur.blk → j ∉ guardedGroups s f.pr.toNat) → (t.grp b j).sq = (s.grp b j).sq

/-- An atomic whose checks pass takes an entry of the store queue and an entry of the operand log in each group with a guarded lane, under
one identity, with each lane's space and address by its tag; an atomic without a result, ATOM.ST, writes no register. Nothing is performed
at issue (R384, R385). -/
def Obligations.AtomicsEnterQueueAndLog : Prop :=
  ∀ (i : Instr) (op : Nat) (ms : BitVec 2) (f : WMA) (s : State), atomForm i = some (op, ms, f) → Passes i s →
    atomCheck s op f = .pass →
    ∃ t, exec i s = .next t ∧ QuietDevice s t ∧ SameRegs [] [] [] s t ∧
      (∀ b j l, { (t.thr b j l).sansRegs with fenceAt := 0 } = { (s.thr b j l).sansRegs with fenceAt := 0 }) ∧
      (∀ b j, (t.grp b j).sansQueue = (s.grp b j).sansQueue) ∧
      ∀ j ∈ guardedGroups s f.pr.toNat, ∃ e old p, (t.grp s.cur.blk j).sq = (s.grp s.cur.blk j).sq ++ [e] ∧
        (t.grp s.cur.blk j).pend = old ++ [p] ∧ old.map (fun q => { q with cancel := [] }) = (s.grp s.cur.blk j).results ∧
        e.kind = .atom op ms.toNat ∧ p.kind = .atom ∧ e.id = p.id ∧ e.size = (if op = 13 then 8 else 4) ∧ p.logged = true ∧
        p.d = f.d.toNat ∧ (p.cancel = if op = 11 then [f.d.toNat] else []) ∧ e.mo = f.mo.toNat ∧
        e.accs.map (fun a => (a.lane, some (a.sp, a.addr))) = (lanesIn s f.pr.toNat j).map (fun l => (l, tagOf (rdX s (j, l) f.a.toNat).toNat)) ∧
        t.posted .storeQueuePerform { x := s.cur.blk, y := j } = true

/-- A prefetch whose addresses are canonical completes at issue with no result, no queue or log entry and no byte of memory changed. It
asks the slice of each guarded lane's line for it, for the L2 alone or for the L1 as well, where the line's home is this device's memory and
the slice has room (R383). -/
def Obligations.PrefetchesAskForTheLine : Prop :=
  ∀ (i : Instr) (f : WM) (s : State), prefetchForm i = some f → Passes i s →
    (∀ m ∈ guarded s f.pr.toNat, canonicalAddr (laneAddress s m 0 f.a.toNat 128 f.off) = true) →
    ∃ t, exec i s = .next t ∧ QuietDevice s t ∧ NoRegs s t ∧ SameGroups Group.sansThreads s t ∧
      ∀ m ∈ guarded s f.pr.toNat, ∀ pa e,
        translate s (s.blk s.cur.blk).ctx (vaOf (laneAddress s m 0 f.a.toNat 128 f.off)) aLOAD (s.blk s.cur.blk).priv = .ok s.devNo pa e →
        pa.testBit 39 = false → frrWindow s pa = none → s.badLines.contains (domAddr s.devNo pa / 128) = false →
        (s.core (sliceOf pa)).l2Q.length < 16 →
        ∃ v ∈ t.agenda, v.ev = .l2RequestAccept ∧ v.due = s.gts ∧ v.arg.x = sliceOf pa ∧ v.arg.y = pa / 128 ∧
          v.arg.z = s.blkCore s.cur.blk ∧ v.arg.u = (if i = .prefL1 f then 2 else 1)

/-- Global loads, stores and atomics check alignment before anything else: a misaligned effective address in any guarded lane raises ALIGN
for the whole issue, and no lane has an effect (R377). -/
def Obligations.MisalignedAccessTraps : Prop :=
  (∀ (sz : BitVec 3) (f : WM) (s : State), Checked (.ldG sz f) s →
    (∃ m ∈ guarded s f.pr.toNat, laneAddress s m 0 f.a.toNat (loadBytes sz) f.off % loadBytes sz ≠ 0) →
    ∃ x, exec (.ldG sz f) s = .next (raise s x) ∧ x.cause = 0x08 ∧ x.prec = true ∧ x.only = none) ∧
  (∀ (sz : BitVec 3) (f : WM) (s : State), Checked (.stG sz f) s →
    (∃ m ∈ guarded s f.pr.toNat, laneAddress s m 0 f.a.toNat (storeBytes sz) f.off % storeBytes sz ≠ 0) →
    ∃ x, exec (.stG sz f) s = .next (raise s x) ∧ x.cause = 0x08 ∧ x.prec = true ∧ x.only = none) ∧
  ∀ (ms : BitVec 2) (f : WMA) (s : State), Checked (.atomAdd ms f) s → (∃ m ∈ guarded s f.pr.toNat, (rdX s m f.a.toNat).toNat % 4 ≠ 0) →
    ∃ x, exec (.atomAdd ms f) s = .next (raise s x) ∧ x.cause = 0x08 ∧ x.prec = true ∧ x.only = none

/-! ### Fences, store-fault records and maps (04 R105, R111; 16 R387 to R394) -/

/-- FENCE.E makes the next engine commands of each guarded thread wait for what its group has issued so far, and changes nothing else
(R111, R387).
DRAINST and DFENCE complete with no effect when no thread is guarded, or when no trap is due there and, for DRAINST, no member group has an
older store or atomic ahead of a faulted one, for DFENCE, no guarded thread has one to a peer home without acknowledgement. Else, while there
is one, the issue is held: its threads stand at its head again, and no register and no byte changes (R105, R111, R387). -/
def Obligations.FencesHoldWhatFollows : Prop :=
  (∀ (f : WA) (s : State), Passes (.fenceE f) s →
    ∃ t, exec (.fenceE f) s = .next t ∧ SameDevice s t ∧ SameGroups Group.sansThreads s t ∧ SameRegs [] [] [] s t ∧
      (∀ b j l, { (t.thr b j l).sansRegs with fenceAt := 0 } = { (s.thr b j l).sansRegs with fenceAt := 0 }) ∧
      (∀ m ∈ guarded s f.pr.toNat, (t.thr s.cur.blk m.1 m.2).fenceAt = (s.grp s.cur.blk m.1).nextSeq) ∧
      ∀ b j l, (b = s.cur.blk → (j, l) ∉ guarded s f.pr.toNat) → (t.thr b j l).fenceAt = (s.thr b j l).fenceAt) ∧
  ∀ (i : Instr) (f : WA) (p : Point) (s : State),
    ((i = .drainst f ∧ p = Point.drainst) ∨ (i = .dfence f ∧ p = Point.dfence)) → Passes i s →
    let waits : Prop := guarded s f.pr.toNat ≠ [] ∧
      ((i = .drainst f ∧ ∃ m ∈ s.cur.members, draining (s.srcGrp m.1) = true) ∨ (i = .dfence f ∧ unacknowledged s f.pr.toNat = true))
    (((guarded s f.pr.toNat = [] ∨ (¬waits ∧
        (∀ m ∈ s.cur.members, dueAt s.srcBlk (s.srcGrp m.1) p = none) ∧ (i = .drainst f → maskDueList s = []))) →
      ∃ t, exec i s = .next t ∧ RegsOnly [] [] [] s t) ∧
    (waits → s.cur.go = false →
      ∃ t, exec i s = .next t ∧ t.cur.verdict = 7 ∧ SameBytes s t ∧ SameRegs [] [] [] s t ∧
        ∀ m ∈ s.cur.members, (t.thr s.cur.blk m.1 m.2).pc = s.cur.head))

/-- In a handler that store-fault records caused, SFRD returns word A of the oldest record to x D of each guarded lane, SFPOP removes that
record and its entry, and SFCNT writes the number of records to w D; none touches memory (R392, R393). Elsewhere each raises ILL. -/
def Obligations.StoreFaultRecordsAreReadAndRemoved : Prop :=
  (∀ (f : WA) (s : State), Passes (.sfrd f) s → (∀ m ∈ s.cur.members, (s.srcGrp m.1).hm = true ∧ (s.srcGrp m.1).sfh = true) →
    ∃ t, exec (.sfrd f) s = .next t ∧ QuietDevice s t ∧ NoRegs s t ∧ SameGroups Group.sansPend s t ∧
      ∀ j ∈ guardedGroups s f.pr.toNat, ∃ old p, (t.grp s.cur.blk j).pend = old ++ [p] ∧ p.kind = .value ∧ p.d = f.d.toNat ∧ p.size = 8 ∧
        p.accs.map Acc.lane = lanesIn s f.pr.toNat j ∧
        ∀ a ∈ p.accs, a.val = natLe 8 (recordWord (s.grp s.cur.blk j) f.a.toNat a.lane)) ∧
  (∀ (f : WA) (s : State), Passes (.sfpop f) s → (∀ m ∈ s.cur.members, (s.srcGrp m.1).hm = true ∧ (s.srcGrp m.1).sfh = true) →
    ∃ t, exec (.sfpop f) s = .next t ∧ SameDevice s t ∧ NoRegs s t ∧
      ∀ j ∈ guardedGroups s f.pr.toNat, ∀ e, headRecord (s.grp s.cur.blk j) = some e →
        (t.grp s.cur.blk j).sq = (s.grp s.cur.blk j).sq.filter (fun x => x.id ≠ e.id) ∧
        (t.grp s.cur.blk j).aside = (s.grp s.cur.blk j).aside.filter (fun x => x.id ≠ e.id)) ∧
  (∀ (f : WA) (s : State), Passes (.sfcnt f) s → (∀ m ∈ s.cur.members, (s.srcGrp m.1).hm = true ∧ (s.srcGrp m.1).sfh = true) →
    ∃ t, exec (.sfcnt f) s = .next t ∧ RegsOnly (guarded s f.pr.toNat) [f.d.toNat] [] s t ∧
      ∀ m ∈ guarded s f.pr.toNat, (t.thr s.cur.blk m.1 m.2).rw f.d.toNat = BitVec.ofNat 32 (records (s.grp s.cur.blk m.1))) ∧
  ∀ (i : Instr) (f : WA) (s : State), (i = .sfrd f ∨ i = .sfpop f ∨ i = .sfcnt f) → Checked i s →
    (∃ m ∈ s.cur.members, (s.srcGrp m.1).hm = false ∨ (s.srcGrp m.1).sfh = false) →
    exec i s = .next (raise s { cause := cILL })

/-- SMAP fills a free entry with the lowest guarded lane's descriptor, address and offset; SINV makes the lines of a valid entry's range
INVALID and clean; SUNMAP and SWB of a valid entry take a place in the queue of that lane's group, and of an entry that is not valid have
no effect. None changes a byte at issue (R388 to R390). -/
def Obligations.MapWordsActOnTheEntry : Prop :=
  (∀ (f : WA) (s : State) (m : Nat × Nat), Passes (.smap f) s → lowest s f.pr.toNat = some m → smapCheck s f = .pass →
    ∃ t, exec (.smap f) s = .next t ∧ SameDevice s t ∧ NoRegs s t ∧
      let e := (rdW s m f.d.toNat).toNat / 2 ^ 16 % 16
      (t.blk s.cur.blk).map e = { v := true, ro := (rdW s m f.d.toNat).getLsbD 20, sline := (rdW s m f.b.toNat).toNat / 128,
                                  nlm1 := (rdW s m f.d.toNat).toNat % 2 ^ 16, vline := (rdX s m f.a.toNat).toNat / 128 } ∧
      ∀ n, n ≠ e → (t.blk s.cur.blk).map n = (s.blk s.cur.blk).map n) ∧
  (∀ (f : WA) (s : State) (m : Nat × Nat), Passes (.sinv f) s → lowest s f.pr.toNat = some m →
    let e := (rdW s m f.a.toNat).toNat / 2 ^ 16 % 16
    let first := (rdW s m f.b.toNat).toNat % 2 ^ 16
    let last := first + (rdW s m f.b.toNat).toNat / 2 ^ 16
    ((s.blk s.cur.blk).map e).v = true → last ≤ ((s.blk s.cur.blk).map e).nlm1 →
    ∃ t, exec (.sinv f) s = .next t ∧ SameDevice s t ∧ NoRegs s t ∧
      (∀ i, first ≤ i → i ≤ last → ((t.blk s.cur.blk).map e).valid.contains i = false ∧ tget 0 ((t.blk s.cur.blk).map e).dirty i = 0) ∧
      ∀ i, (i < first ∨ last < i) →
        ((t.blk s.cur.blk).map e).valid.contains i = ((s.blk s.cur.blk).map e).valid.contains i ∧
        tget 0 ((t.blk s.cur.blk).map e).dirty i = tget 0 ((s.blk s.cur.blk).map e).dirty i) ∧
  ∀ (i : Instr) (f : WA) (s : State) (m : Nat × Nat), (i = .sunmap f ∨ i = .swb f) → Passes i s → lowest s f.pr.toNat = some m →
    let e := (rdW s m f.a.toNat).toNat / 2 ^ 16 % 16
    let first := (rdW s m f.b.toNat).toNat % 2 ^ 16
    let nm1 := (rdW s m f.b.toNat).toNat / 2 ^ 16
    (s.grp s.cur.blk m.1).sq.length < 16 → (i = .swb f → first + nm1 ≤ ((s.blk s.cur.blk).map e).nlm1) →
    (((s.blk s.cur.blk).map e).v = true →
      ∃ t q, exec i s = .next t ∧ QuietDevice s t ∧ NoRegs s t ∧ (t.grp s.cur.blk m.1).sq = (s.grp s.cur.blk m.1).sq ++ [q] ∧
        q.kind = (if i = .sunmap f then .sunmap e else .swb e first nm1)) ∧
    (((s.blk s.cur.blk).map e).v = false → ∃ t, exec i s = .next t ∧ RegsOnly [] [] [] s t)

/-! ### Register blocks and sets (10) -/

/-- XACQ completes: in a kernel with XREG = 1, a group with a guarded lane that holds its extended granule is left as it is; alone in its
issue, a group without one takes the lowest free granule when one is free and no group waits, with w16 to w31 zero in every lane, and else
joins the tail of the core's queue and waits, unless its block is marked for termination. Of several groups each then holds a granule or
waits in the queue. XTRY completes: it never waits, takes the granule in the same case, and writes to w D of each guarded lane whether the
group holds it. XREL completes, with nothing left to wait for now and before its issue: no group with a guarded lane holds an extended granule after it (R261). -/
def Obligations.RegisterBlocksAreGivenAndReturned : Prop :=
  (∀ (f : WA) (s : State), Passes (.xacq f) s → (s.blk s.cur.blk).xreg = true → (s.blk s.cur.blk).marked = false →
    ∃ t, exec (.xacq f) s = .next t ∧ SameBytes s t ∧
      ∀ j ∈ guardedGroups s f.pr.toNat, (t.grp s.cur.blk j).xgran.isSome = true ∨
        ((t.grp s.cur.blk j).wait = .xacq ∧ (s.cur.blk, j) ∈ (t.core (s.blkCore s.cur.blk)).xacqQ)) ∧
  (∀ (f : WA) (s : State) (j : Nat), Passes (.xacq f) s → (s.blk s.cur.blk).xreg = true → guardedGroups s f.pr.toNat = [j] →
    let q := (s.core (s.blkCore s.cur.blk)).xacqQ
    let free := granulesFree s (s.blkCore s.cur.blk)
    ((s.grp s.cur.blk j).xgran.isSome = true → ∃ t, exec (.xacq f) s = .next t ∧ RegsOnly [] [] [] s t) ∧
    (∀ n, (s.grp s.cur.blk j).xgran = none → q = [] → free.head? = some n →
      ∃ t, exec (.xacq f) s = .next t ∧ SameDevice s t ∧ SameThreads s t ∧ (t.grp s.cur.blk j).xgran = some n ∧
        (∀ l r, 16 ≤ r → (t.thr s.cur.blk j l).rw r = 0) ∧
        ∀ b k l r, (b = s.cur.blk → k = j → r < 16) → (t.thr b k l).rw r = (s.thr b k l).rw r) ∧
    ((s.grp s.cur.blk j).xgran = none → q ≠ [] ∨ free = [] → (s.blk s.cur.blk).marked = false →
      ∃ t, exec (.xacq f) s = .next t ∧ SameOutside s t ∧ NoRegs s t ∧ (t.grp s.cur.blk j).xgran = none ∧
        (t.grp s.cur.blk j).wait = .xacq ∧ (t.core (s.blkCore s.cur.blk)).xacqQ = q ++ [(s.cur.blk, j)])) ∧
  (∀ (f : WA) (s : State), Passes (.xtry f) s → (s.blk s.cur.blk).xreg = true →
    ∃ t, exec (.xtry f) s = .next t ∧ SameDevice s t ∧ SameThreads s t ∧
      (∀ m ∈ guarded s f.pr.toNat, (t.thr s.cur.blk m.1 m.2).rw f.d.toNat = if (t.grp s.cur.blk m.1).xgran.isSome then 1 else 0) ∧
      ∀ j, guardedGroups s f.pr.toNat = [j] → (t.grp s.cur.blk j).xgran = (match (s.grp s.cur.blk j).xgran with
        | some n => some n
        | none => if (s.core (s.blkCore s.cur.blk)).xacqQ = [] then (granulesFree s (s.blkCore s.cur.blk)).head? else none)) ∧
  ∀ (f : WA) (s : State), Passes (.xrel f) s → (s.blk s.cur.blk).xreg = true → unsettled s false = [] →
    (∀ j ∈ guardedGroups s f.pr.toNat, settledGroup (s.blk s.cur.blk) (s.grp s.cur.blk j) (s.lanesOfGroup j) false = true) →
    (∀ j ∈ guardedGroups s f.pr.toNat, (s.cur.blk, j) ∉ (s.core (s.blkCore s.cur.blk)).xacqQ) →
    ∃ t, exec (.xrel f) s = .next t ∧ SameBytes s t ∧ SameThreads s t ∧ ∀ j ∈ guardedGroups s f.pr.toNat, (t.grp s.cur.blk j).xgran = none

/-- SDECL completes: it enters its group among the declarers of the tag, where it waits while they are fewer than the count; as the last of
them it completes the set: the declarers are its members, every declarer goes on with its position, in ascending group number, in w D of
its guarded lanes. The block is not marked for termination. SLEAVE completes: each group with a guarded lane is in no set; alone in its
issue a group leaves its set to the others, and a set left with one member dissolves, its tag free. SINFO completes: x D of each guarded
lane is zero for a group in no set, and else IN, TAG, COUNT, POS and the members' bits (R262). -/
def Obligations.SetsFormAndDissolve : Prop :=
  (∀ (f : WA) (s : State) (tag k : Nat), Passes (.sdecl f) s → declArgs s f = some (tag, k) → declCheckWord s f = .pass →
    (s.blk s.cur.blk).marked = false →
    (let ds := (tget {} (s.blk s.cur.blk).sets tag).declarers
     let all := sortNat (ds ++ [s.cur.j])
     (ds.length + 1 ≠ k →
       ∃ t, exec (.sdecl f) s = .next t ∧ QuietDevice s t ∧ NoRegs s t ∧
         (tget {} (t.blk s.cur.blk).sets tag).declarers = ds ++ [s.cur.j] ∧ (tget {} (t.blk s.cur.blk).sets tag).k = k ∧
         (t.grp s.cur.blk s.cur.j).wait = .sdecl tag k f.d.toNat (guardedIn s f.pr.toNat s.cur.j)) ∧
     (ds.length + 1 = k →
       ∃ t, exec (.sdecl f) s = .next t ∧ QuietDevice s t ∧
         (tget {} (t.blk s.cur.blk).sets tag).members = all ∧ (tget {} (t.blk s.cur.blk).sets tag).declarers = [] ∧
         (∀ j ∈ ds ++ [s.cur.j], (t.grp s.cur.blk j).inSet = some tag ∧ (t.grp s.cur.blk j).wait = .none) ∧
         (∀ l ∈ guardedIn s f.pr.toNat s.cur.j, (t.thr s.cur.blk s.cur.j l).rw f.d.toNat = BitVec.ofNat 32 (all.idxOf s.cur.j)) ∧
         ∀ j ∈ ds, j ≠ s.cur.j → ∀ tag' k' d ls, (s.grp s.cur.blk j).wait = .sdecl tag' k' d ls →
           ∀ l ∈ ls, (t.thr s.cur.blk j l).rw d = BitVec.ofNat 32 (all.idxOf j)))) ∧
  (∀ (f : WA) (s : State), Passes (.sleave f) s →
    ∃ t, exec (.sleave f) s = .next t ∧ SameDevice s t ∧ NoRegs s t ∧ (∀ j ∈ guardedGroups s f.pr.toNat, (t.grp s.cur.blk j).inSet = none) ∧
      ∀ j tag, guardedGroups s f.pr.toNat = [j] → (s.grp s.cur.blk j).inSet = some tag →
        let rest := (tget {} (s.blk s.cur.blk).sets tag).members.filter (· ≠ j)
        (2 ≤ rest.length → (tget {} (t.blk s.cur.blk).sets tag).members = rest ∧
          ∀ k, k ≠ j → (t.grp s.cur.blk k).inSet = (s.grp s.cur.blk k).inSet) ∧
        (rest.length ≤ 1 → (tget {} (t.blk s.cur.blk).sets tag).members = [] ∧ ∀ k ∈ rest, (t.grp s.cur.blk k).inSet = none)) ∧
  ∀ (f : WA) (s : State), Passes (.sinfo f) s →
    ∃ t, exec (.sinfo f) s = .next t ∧ RegsOnly (guarded s f.pr.toNat) [f.d.toNat, f.d.toNat + 1] [] s t ∧
      ∀ m ∈ guarded s f.pr.toNat,
        let v := ((t.thr s.cur.blk m.1 m.2).rx f.d.toNat).toNat
        match (s.grp s.cur.blk m.1).inSet with
        | none => v = 0
        | some tag =>
          let ms := (tget {} (s.blk s.cur.blk).sets tag).members
          (ms.map (fun j => 2 ^ j)).sum < 2 ^ 32 →
            v = 2 ^ 63 + tag % 16 * 2 ^ 48 + ms.length % 16 * 2 ^ 44 + ms.idxOf m.1 % 8 * 2 ^ 40 + (ms.map (fun j => 2 ^ j)).sum

namespace Sys2Proof.Claims

open Sys2Proof.Machine

/-- No group of the block in progress waits at a barrier. -/
def NoWaiters (s : State) : Prop := ∀ j, waitersOf (s.grp s.cur.blk j) = []

/-- Word k of a 32-byte record (R438). -/
def recordWordAt (r : List Byte) (k : Nat) : Word := BitVec.ofNat 32 (leNat r / 2 ^ (32 * k))

/-- Word k of a record reaches g8 + k, and its divergent-write record is cleared (R438). -/
def HoldsRecord (g : Group) (r : List Byte) : Prop := ∀ k, k < 8 → g.rg (8 + k) = recordWordAt r k ∧ tget false g.gflag (8 + k) = false

end Sys2Proof.Claims

/-! ### Barriers and the bridle (11) -/

/-- A FILLING generation whose members have all arrived or exited, or are out of the barriers by a CANCEL they took in a wait at one, with its engine arrivals complete, completes in one step: GEN rises by
one modulo 2^16, ARR is 0, the barrier is IDLE, min(ECARRY, ENG) arrivals move from ECARRY to ENGA, BGC rises by one, every waiter for that generation has its condition met, and a group whose waiters all have goes on. Otherwise nothing happens (R270, R271, R282). -/
def Obligations.BarrierGenerationCompletes : Prop :=
  ∀ (b : Block) (n : Nat),
    let r := b.bar n
    ((r.st = 1 ∧ r.enga = r.eng ∧ ∀ j ∈ b.groupIds, ∀ l, l < 32 → r.member.getLsbD (32 + j) = true → r.member.getLsbD l = true →
        (b.grp j).outBar = true ∨ (j, l) ∈ r.who ∨ ((b.grp j).th l).mode = .exited) →
      ((barComplete b n).bar n).gen = (r.gen + 1) % 65536 ∧ ((barComplete b n).bar n).arr = 0 ∧ ((barComplete b n).bar n).st = 0 ∧
      ((barComplete b n).bar n).enga = min r.ecarry r.eng ∧ ((barComplete b n).bar n).ecarry = r.ecarry - min r.ecarry r.eng ∧
      (barComplete b n).bgc = (b.bgc + 1) % 65536 ∧ (∀ k, k ≠ n → (barComplete b n).bar k = b.bar k) ∧
      ∀ j ∈ b.groupIds, ∀ who, (b.grp j).wait = .barrier who →
        let now := who.map (fun w => (w.1, w.2.1, w.2.2.1, w.2.2.2 || decide (w.2.1 = n ∧ w.2.2.1 = r.gen)))
        ((barComplete b n).grp j).wait = if ∀ w ∈ now, w.2.2.2 = true then .none else .barrier now) ∧
    ((r.st ≠ 1 ∨ r.enga ≠ r.eng ∨ ∃ j ∈ b.groupIds, ∃ l, l < 32 ∧ r.member.getLsbD (32 + j) = true ∧ r.member.getLsbD l = true ∧
        (b.grp j).outBar = false ∧ (j, l) ∉ r.who ∧ ((b.grp j).th l).mode ≠ .exited) → barComplete b n = b)

/-- BARV and BSYNC, their checks passed, complete: every guarded lane arrives, in member order, and receives in w D the generation it arrives
in (R272, R275). Where no group waits at a barrier, BARV leaves every barrier and the count of completed generations as those arrivals leave
them, and changes nothing else. After BSYNC each group with a guarded lane waits for those generations, unless they have all completed; its
block is not marked for termination (R277). -/
def Obligations.ArrivalsReturnTheirGeneration : Prop :=
  (∀ (f : WA) (s : State), Passes (.barv f) s → arrivalCheck s f = .pass → s.cur.members.Nodup →
    let w := walkArrivals (s.blk s.cur.blk) (arrivals s f)
    ∃ t, exec (.barv f) s = .next t ∧ w.2.map (fun e => e.1) = guarded s f.pr.toNat ∧
      (∀ e ∈ w.2, (t.thr s.cur.blk e.1.1 e.1.2).rw f.d.toNat = BitVec.ofNat 32 e.2.2) ∧
      (NoWaiters s → QuietDevice s t ∧ SameThreads s t ∧ SameRegs (guarded s f.pr.toNat) [f.d.toNat] [] s t ∧
        (∀ b j, (t.grp b j).sansThreads = (s.grp b j).sansThreads) ∧
        (∀ n, (t.blk s.cur.blk).bar n = w.1.bar n) ∧ (t.blk s.cur.blk).bgc = w.1.bgc ∧
        ∀ b, { (t.blk b).sansGroups with bars := [], bgc := 0 } = { (s.blk b).sansGroups with bars := [], bgc := 0 })) ∧
  ∀ (f : WA) (s : State), Passes (.bsync f) s → arrivalCheck s f = .pass → syncScope s f = .pass → s.cur.members.Nodup →
    (s.blk s.cur.blk).marked = false →
    let w := walkArrivals (s.blk s.cur.blk) (arrivals s f)
    ∃ t, exec (.bsync f) s = .next t ∧ w.2.map (fun e => e.1) = guarded s f.pr.toNat ∧
      (∀ e ∈ w.2, (t.thr s.cur.blk e.1.1 e.1.2).rw f.d.toNat = BitVec.ofNat 32 e.2.2) ∧
      (NoWaiters s → QuietDevice s t ∧ SameThreads s t ∧ SameRegs (guarded s f.pr.toNat) [f.d.toNat] [] s t ∧
        ∀ n, (t.blk s.cur.blk).bar n = w.1.bar n) ∧
      ∀ j ∈ guardedGroups s f.pr.toNat,
        (∃ who, (t.grp s.cur.blk j).wait = .barrier who ∧ who.map (fun x => x.1) = lanesIn s f.pr.toNat j) ∨
        ∀ e ∈ w.2, e.1.1 = j → genPassed ((t.blk s.cur.blk).bar e.2.1).gen e.2.2 = true

/-- BINIT of the lowest guarded lane's barrier and count: a FILLING barrier is left as it is and every guarded lane receives 1; otherwise
ENG takes the count, the barrier is IDLE, one in FAULT begins its next generation with no arrivals, and every guarded lane receives 0
(R274).
BWAIT, its checks passed, makes each group with an unmet guarded lane wait for the barriers and generations of its guarded lanes, and
leaves a group whose conditions are met as it was (R276); the block is not marked for termination. BGEN writes the state of the lowest
guarded lane's barrier to x D of every guarded lane (R278). -/
def Obligations.BarriersAreSetUpWaitedForAndRead : Prop :=
  (∀ (f : WA) (s : State) (m : Nat × Nat), Passes (.binit f) s → lowest s f.pr.toNat = some m →
    (∀ k ∈ guarded s f.pr.toNat, (rdW s k f.a.toNat).toNat ≤ 15) → (rdW s m f.b.toNat).toNat ≤ 255 →
    ∃ t, exec (.binit f) s = .next t ∧ SameDevice s t ∧ SameThreads s t ∧ SameRegs (guarded s f.pr.toNat) [f.d.toNat] [] s t ∧
      let n := (rdW s m f.a.toNat).toNat
      let r := (s.blk s.cur.blk).bar n
      let q := (t.blk s.cur.blk).bar n
      (∀ k, k ≠ n → (t.blk s.cur.blk).bar k = (s.blk s.cur.blk).bar k) ∧
      (∀ k ∈ guarded s f.pr.toNat, (t.thr s.cur.blk k.1 k.2).rw f.d.toNat = if r.st = 1 then 1 else 0) ∧
      (r.st = 1 → q = r) ∧
      (r.st = 2 → q.st = 0 ∧ q.gen = (r.gen + 1) % 65536 ∧ q.arr = 0 ∧ q.enga = 0 ∧ q.ecarry = 0 ∧ q.eng = (rdW s m f.b.toNat).toNat) ∧
      (r.st = 0 → q = { r with eng := (rdW s m f.b.toNat).toNat })) ∧
  (∀ (f : WA) (s : State), Passes (.bwait f) s → (∀ k ∈ guarded s f.pr.toNat, (rdW s k f.b.toNat).toNat ≤ 15) → waitCheck s f = .pass →
    (s.blk s.cur.blk).marked = false →
    ∃ t, exec (.bwait f) s = .next t ∧ SameDevice s t ∧ NoRegs s t ∧ SameGroups Group.sansWait s t ∧
      ∀ j ∈ guardedGroups s f.pr.toNat,
        let ws := (guarded s f.pr.toNat).filter (fun m => m.1 = j)
        let met (m : Nat × Nat) : Bool := genPassed ((s.blk s.cur.blk).bar (rdW s m f.b.toNat).toNat).gen ((rdW s m f.a.toNat).toNat % 65536)
        ((∀ m ∈ ws, met m = true) → (t.grp s.cur.blk j).wait = (s.grp s.cur.blk j).wait) ∧
        ((∃ m ∈ ws, met m = false) → (t.grp s.cur.blk j).wait =
          .barrier (ws.map (fun m => (m.2, (rdW s m f.b.toNat).toNat, (rdW s m f.a.toNat).toNat % 65536, met m))))) ∧
  ∀ (f : WA) (s : State) (m : Nat × Nat), Passes (.bgen f) s → lowest s f.pr.toNat = some m →
    (∀ k ∈ guarded s f.pr.toNat, (rdW s k f.b.toNat).toNat ≤ 15) →
    ∃ t, exec (.bgen f) s = .next t ∧ RegsOnly (guarded s f.pr.toNat) [f.d.toNat, f.d.toNat + 1] [] s t ∧
      ∀ k ∈ guarded s f.pr.toNat,
        let v := (t.thr s.cur.blk k.1 k.2).rx f.d.toNat
        let r := (s.blk s.cur.blk).bar (rdW s m f.b.toNat).toNat
        v.toNat % 2 ^ 16 = r.gen % 2 ^ 16 ∧ v.toNat / 2 ^ 16 % 2 ^ 11 = r.arr % 2 ^ 11 ∧ v.toNat / 2 ^ 30 % 4 = r.st % 4 ∧
        v.toNat / 2 ^ 40 % 2 ^ 8 = r.ecarry % 2 ^ 8 ∧ v.toNat / 2 ^ 48 % 2 ^ 8 = r.eng % 2 ^ 8 ∧ v.toNat / 2 ^ 56 = r.enga % 2 ^ 8

/-- In a launch that holds a channel, REDB and REDW complete where their group has nothing to wait for or report before: the block's arrival is
recorded, REDW's with the words at its offset, and its groups wait. REDQ completes: it writes the channel state, valid bit, number, arrivals
and generation, to x D of each guarded lane. At REDB and REDW the block is not marked for termination (R283 to R285, R287). In a launch
without a channel each raises SCOPE. -/
def Obligations.BridleWordsArriveAndRead : Prop :=
  (∀ (f : WA) (s : State), Passes (.redb f) s → (channelOf s s.cur.blk).isSome = true → contributionCheck s = .pass →
    (s.blk s.cur.blk).marked = false →
    ∃ t, exec (.redb f) s = .next t ∧ QuietDevice s t ∧ NoRegs s t ∧
      (t.blk s.cur.blk).bridle = some (0, 0, f.d.toNat, guarded s f.pr.toNat) ∧ (t.blk s.cur.blk).bridleData = [] ∧
      ∀ j ∈ s.cur.groups, (t.grp s.cur.blk j).wait = .bridle) ∧
  (∀ (f : WA) (s : State) (m : Nat × Nat), Passes (.redw f) s → (channelOf s s.cur.blk).isSome = true → lowest s f.pr.toNat = some m →
    redwCheck s f = .pass → contributionCheck s = .pass → (s.blk s.cur.blk).marked = false → s.cur.verdict = 0 →
    ∃ t, exec (.redw f) s = .next t ∧ QuietDevice s t ∧ NoRegs s t ∧
      let ctl := (rdW s m f.b.toNat).toNat
      let off := (rdW s m f.a.toNat).toNat
      (t.blk s.cur.blk).bridle = some (2 + ctl, off, f.d.toNat, guarded s f.pr.toNat) ∧
      (t.blk s.cur.blk).bridleData =
        (List.range (ctl % 16 + 1)).map (fun i => BitVec.ofNat 64 (leNat (padRead s s.cur.blk (off + 8 * i) 8))) ∧
      ∀ j ∈ s.cur.groups, (t.grp s.cur.blk j).wait = .bridle) ∧
  (∀ (f : WA) (s : State) (n : Nat), Passes (.redq f) s → channelOf s s.cur.blk = some n →
    ∃ t, exec (.redq f) s = .next t ∧ RegsOnly (guarded s f.pr.toNat) [f.d.toNat, f.d.toNat + 1] [] s t ∧
      ∀ k ∈ guarded s f.pr.toNat,
        ((t.thr s.cur.blk k.1 k.2).rx f.d.toNat).toNat = 2 ^ 63 + n % 16 * 2 ^ 48 +
          (((channelBlocks s n).filter (fun b => (s.blk b).bridle.isSome)).length + (s.chan n).past.length) % 2 ^ 16 * 2 ^ 32 +
          (s.chan n).gen % 2 ^ 16) ∧
  ∀ (i : Instr) (f : WA) (s : State), (i = .redb f ∨ i = .redw f ∨ i = .redq f) → Checked i s → s.cur.verdict = 0 →
    channelOf s s.cur.blk = none → exec i s = .next (raise s { cause := 0x05 })

/-! ### Market words (07) and feeds (18) -/

/-- BIDSET of the lowest guarded lane's bid and class completes: it returns 3 for a class above 4, 2 for a bid that R174 refuses, and else
writes the bid and returns 0 before the sealing of the interval to come and 1 after it; WGTS becomes the GTS when PRICE changes. Every
guarded lane receives the status in w D; nothing else changes (R174 to R176).
PRICE and BIDGET complete: they write the price and the market state that the lowest guarded lane selects to x D of every guarded lane, and change
nothing else (R175, R177, R178). -/
def Obligations.MarketWordsBidAndRead : Prop :=
  (∀ (f : WA) (s : State) (m : Nat × Nat), Passes (.bidset f) s → lowest s f.pr.toNat = some m →
    let cls := (rdW s m f.b.toNat).toNat
    let v := rdX s m f.a.toNat
    let refused := 2 ^ 58 ≤ v.toNat ∨ v.toNat / 2 ^ 32 % 2 ^ 12 < v.toNat / 2 ^ 44 % 2 ^ 12 ∨ classUnits cls < v.toNat / 2 ^ 32 % 2 ^ 12 ∨
      2 ≤ v.toNat / 2 ^ 56 % 4 ∨ (v.toNat / 2 ^ 56 % 4 ≠ 0 ∧ cls ≠ 1)
    ∃ t, exec (.bidset f) s = .next t ∧ SameBytes s t ∧ SameThreads s t ∧ SameRegs (guarded s f.pr.toNat) [f.d.toNat] [] s t ∧
      { t with blks := [], ctxs := [] } = { s with blks := [], ctxs := [] } ∧ SameGroups Group.sansThreads s t ∧
      (∀ c, { t.ctx c with bids := [] } = { s.ctx c with bids := [] }) ∧
      (∀ c n, (c = s.curCtx → n = cls → 4 < cls ∨ refused) → (t.ctx c).bid n = (s.ctx c).bid n) ∧
      (4 < cls → ∀ k ∈ guarded s f.pr.toNat, (t.thr s.cur.blk k.1 k.2).rw f.d.toNat = 3) ∧
      (cls ≤ 4 → refused → ∀ k ∈ guarded s f.pr.toNat, (t.thr s.cur.blk k.1 k.2).rw f.d.toNat = 2) ∧
      (cls ≤ 4 → ¬refused → ((t.ctx s.curCtx).bid cls).lo = v ∧
        ((t.ctx s.curCtx).bid cls).wgts =
          (if v.toNat % 2 ^ 32 = ((s.ctx s.curCtx).bid cls).lo.toNat % 2 ^ 32 then ((s.ctx s.curCtx).bid cls).wgts else s.gts) ∧
        ∀ k ∈ guarded s f.pr.toNat, (t.thr s.cur.blk k.1 k.2).rw f.d.toNat = if s.gts < s.mkt.t - 40000 then 0 else 1)) ∧
  ∀ (i : Instr) (f : WA) (v : DWord) (s : State) (m : Nat × Nat), lowest s f.pr.toNat = some m →
    ((i = .price f ∧ v = priceOf s (rdW s m f.a.toNat).toNat) ∨ (i = .bidget f ∧ v = bidGet s s.curCtx (rdW s m f.a.toNat).toNat)) →
    Passes i s →
    ∃ t, exec i s = .next t ∧ RegsOnly (guarded s f.pr.toNat) [f.d.toNat, f.d.toNat + 1] [] s t ∧
      ∀ k ∈ guarded s f.pr.toNat, (t.thr s.cur.blk k.1 k.2).rx f.d.toNat = v

/-- WPOP and WPOP.SLEEP of a feed of the launch take its oldest record into g8 to g15 and return 0; of an empty closed feed they return 2.
Of an empty open feed WPOP returns 1, and WPOP.SLEEP makes the group sleep at the feed, unless its block is marked for termination
(R438).
WPUSH, once the group's earlier accesses have been performed and none has a fault to report, returns 2 for a closed feed, 1 for a full one, and else appends g8 to g15 as a record, or
wakes the earliest sleeper of the feed with it, and returns 0. WLEN returns the number of records and, in bit 31, whether the feed is
closed (R439). -/
def Obligations.FeedWordsTakeAppendAndCount : Prop :=
  (∀ (i : Instr) (f : WA) (s : State) (m : Nat × Nat) (c n : Nat), (i = .wpop f ∨ i = .wpopSleep f) → Passes i s →
    lowest s f.pr.toNat = some m → feedLaunch s = some (c, n) → (rdW s m f.a.toNat).toNat < ((s.ctx c).launch n).feedsN →
    let q := (rdW s m f.a.toNat).toNat
    let fd := s.feed c n q
    ∃ t, exec i s = .next t ∧
      ((fd.recs = [] → fd.closed = false → i = .wpopSleep f → (s.blk s.cur.blk).marked = false) → SameBytes s t ∧ SameThreads s t) ∧
      (∀ r rs, fd.recs = r :: rs → (t.feed c n q).recs = rs ∧ HoldsRecord (t.grp s.cur.blk s.cur.j) r ∧
        ∀ k ∈ guarded s f.pr.toNat, (t.thr s.cur.blk k.1 k.2).rw f.d.toNat = 0) ∧
      (fd.recs = [] → fd.closed = true → ∀ k ∈ guarded s f.pr.toNat, (t.thr s.cur.blk k.1 k.2).rw f.d.toNat = 2) ∧
      (fd.recs = [] → fd.closed = false → i = .wpop f → ∀ k ∈ guarded s f.pr.toNat, (t.thr s.cur.blk k.1 k.2).rw f.d.toNat = 1) ∧
      (fd.recs = [] → fd.closed = false → i = .wpopSleep f → (s.blk s.cur.blk).marked = false →
        (t.feed c n q).sleepers = fd.sleepers ++ [(s.cur.blk, s.cur.j)] ∧
        (t.grp s.cur.blk s.cur.j).wait = .feed q f.d.toNat (guardedIn s f.pr.toNat s.cur.j))) ∧
  (∀ (f : WA) (s : State) (m : Nat × Nat) (c n : Nat), Passes (.wpush f) s → lowest s f.pr.toNat = some m → feedLaunch s = some (c, n) →
    (rdW s m f.a.toNat).toNat < ((s.ctx c).launch n).feedsN → reportCheck s f.pr.toNat Point.arrival arriving 9 = .pass →
    let q := (rdW s m f.a.toNat).toNat
    let fd := s.feed c n q
    let r := (List.range 8).flatMap (fun k => natLe 4 ((s.srcGrp m.1).rg (8 + k)).toNat)
    ∃ t, exec (.wpush f) s = .next t ∧ SameBytes s t ∧ SameThreads s t ∧
      (fd.closed = true → (t.feed c n q) = fd ∧ ∀ k ∈ guarded s f.pr.toNat, (t.thr s.cur.blk k.1 k.2).rw f.d.toNat = 2) ∧
      (fd.closed = false → fd.depth ≤ fd.recs.length →
        (t.feed c n q) = fd ∧ ∀ k ∈ guarded s f.pr.toNat, (t.thr s.cur.blk k.1 k.2).rw f.d.toNat = 1) ∧
      (fd.closed = false → fd.recs.length < fd.depth → feedSleeper s q fd.sleepers = none →
        (t.feed c n q).recs = fd.recs ++ [r] ∧ ∀ k ∈ guarded s f.pr.toNat, (t.thr s.cur.blk k.1 k.2).rw f.d.toNat = 0) ∧
      (∀ p, fd.closed = false → fd.recs.length < fd.depth → feedSleeper s q fd.sleepers = some p →
        (t.feed c n q).recs = fd.recs ∧ (t.grp p.1 p.2).wait = .none ∧ HoldsRecord (t.grp p.1 p.2) r ∧
        ∀ k ∈ guarded s f.pr.toNat, (t.thr s.cur.blk k.1 k.2).rw f.d.toNat = 0)) ∧
  ∀ (f : WA) (s : State) (m : Nat × Nat) (c n : Nat), Passes (.wlen f) s → lowest s f.pr.toNat = some m → feedLaunch s = some (c, n) →
    (rdW s m f.a.toNat).toNat < ((s.ctx c).launch n).feedsN →
    ∃ t, exec (.wlen f) s = .next t ∧ RegsOnly (guarded s f.pr.toNat) [f.d.toNat] [] s t ∧
      ∀ k ∈ guarded s f.pr.toNat, (t.thr s.cur.blk k.1 k.2).rw f.d.toNat =
        BitVec.ofNat 32 ((s.feed c n (rdW s m f.a.toNat).toNat).recs.length % 2 ^ 13 +
          if (s.feed c n (rdW s m f.a.toNat).toNat).closed then 2 ^ 31 else 0)

namespace Sys2Proof.Claims

open Sys2Proof.Machine

/-- A result of a group that comes later: destination, size and lanes. -/
def IsLater (p : Pend) (d : Nat) (lanes : List Nat) : Prop := p.kind = .value ∧ p.d = d ∧ p.size = 8 ∧ p.accs.map Acc.lane = lanes

/-- Form, checks and command of a tile word, for the lowest guarded lane (R401 to R411). -/
def tileCommand (s : State) (m : Nat × Nat) : Instr → Option (WA × Check × TileOp)
  | .tmma f => (paramOf s f).map (fun p =>
      (f, paramCheck s f false, .tmma p.2 (rdW s m f.b.toNat).toNat (rdW s m (f.b.toNat + 1)).toNat))
  | .tdrain rm f => (paramOf s f).map (fun p =>
      (f, paramCheck s f true, .tdrain rm.toNat p.2 (rdW s m f.b.toNat).toNat (rdW s m (f.b.toNat + 1)).toNat (s.srcGrp m.1).fpc.toNat))
  | .tzero f => some (f, zCheck s f.pr.toNat [f.d.toNat] .pass, .tzero f.d.toNat)
  | .tres f => some (f, zCheck s f.pr.toNat [f.d.toNat] .pass, .tres f.d.toNat)
  | .tmov f => some (f, zCheck s f.pr.toNat [f.d.toNat, f.a.toNat] .pass, .tmov f.d.toNat f.a.toNat)
  | .tcmp f => some (f, zCheck s f.pr.toNat [f.a.toNat] .pass, .tcmp f.d.toNat f.a.toNat)
  | .tcmpX f => some (f, zCheck s f.pr.toNat [f.a.toNat] .pass, .tcmpX f.d.toNat f.a.toNat)
  | .tsave f => some (f, zCheck s f.pr.toNat [f.b.toNat] (imageCheck s f 34880 true), .tsave (rdX s m f.a.toNat).toNat f.b.toNat)
  | .tsaveC f => some (f, zCheck s f.pr.toNat [f.b.toNat] (imageCheck s f 17472 true), .tsaveC (rdX s m f.a.toNat).toNat f.b.toNat)
  | .tload f => some (f, zCheck s f.pr.toNat [f.b.toNat] (imageCheck s f 17472 true), .tload (rdX s m f.a.toNat).toNat f.b.toNat)
  | .tplane f => (tagOf (rdX s m f.a.toNat).toNat).map (fun p =>
      (f, zCheck s f.pr.toNat [] (planeCheck s f), .tplane p.1 p.2 (rdW s m f.b.toNat).toNat))
  | _ => none

/-- The tile words that return their ticket, and those that return masks later. -/
def returnsTicket : Instr → Bool
  | .tmma _ | .tdrain _ _ | .tsave _ | .tsaveC _ | .tload _ | .tplane _ => true
  | _ => false
def returnsMasks : Instr → Bool
  | .tcmp _ | .tcmpX _ => true
  | _ => false

/-- Kind, queue and form of a word that issues engine operations (R418). -/
def engineForm : Instr → Option (EngKind × Nat × WA)
  | .cpy q f => some (.cpy, q.toNat, f)
  | .gath f => some (.gath, 4, f)
  | .cpyN f => some (.cpyN, 5, f)
  | .coll f => some (.coll, 6, f)
  | _ => none

/-- The state without what a read through the caches leaves behind: the caches, the sessions' counts and the requests served. -/
def sansCaches (s : State) : State :=
  { s with l1 := [], l2 := [], shared := { s.shared with served := 0 }, page := { s.page with tlb := [], ptrs := [] }
           ctxs := tmap (fun _ x => { x with sessions := tmap (fun _ z => { z with cnt := [] }) x.sessions, served := 0 }) s.ctxs }

/-- The words that read a parameter block at issue. -/
def readsBlock : Instr → Bool
  | .tmma _ | .tdrain _ _ => true
  | _ => false

/-- The operations of a queue and those that wait to enter it, in order. -/
def engineOps (s : State) (core q : Nat) : List EngOp :=
  s.engQ core q ++ ((s.core core).entering.filter (fun e => e.1 = q)).map Prod.snd

end Sys2Proof.Claims

/-! ### Tile words (17) -/

/-- A tile word whose checks pass enters its command at the tail of the core's tile queue under the block's ticket, with the guarded
threads as its issuers; the ticket counter rises by one modulo 2^32, and no tile and no byte changes before the command's turn. TMMA,
TDRAIN, TSAVE, TSAVE.C, TLOAD and TPLANE return the ticket; the block that TMMA and TDRAIN read passes the caches, and nothing else outside moves; TCMP and TCMP.X enter a result that comes later. While the block's commands
fail, the command is discarded at once (R395 to R398, R406 to R411, R415).
TSTAT of a tile of the block writes the tile's state, whether commands on it wait, UND, ERR, ERRC and DONE to x D of each guarded lane,
and changes nothing else (R412). TWAIT and TWAIT.ALL enter, in each group with a guarded lane, a completion for the ticket named, or for
the last one given out; it comes at once where that command and every earlier one has finished (R413). -/
def Obligations.TileWordsEnterTheQueueAndReadItsStatus : Prop :=
  (∀ (i : Instr) (f : WA) (op : TileOp) (s : State) (m : Nat × Nat), lowest s f.pr.toNat = some m →
    tileCommand s m i = some (f, .pass, op) → Passes i s →
    let b := s.cur.blk
    let core := s.blkCore b
    ((s.blk b).err = false →
      ∃ t cmd, exec i s = .next t ∧ SameBytes s t ∧ SameOutside (sansCaches s) (sansCaches t) ∧ (readsBlock i = false → SameOutside s t) ∧
        (∀ n, (t.core n).tileQ = if n = core then (s.core n).tileQ ++ [cmd] else (s.core n).tileQ) ∧
        (∀ n, { t.core n with tileQ := [] } = { s.core n with tileQ := [] }) ∧
        cmd.blk = b ∧ cmd.op = op ∧ cmd.ticket = (s.blk b).tkt ∧ cmd.who = guarded s f.pr.toNat ∧ cmd.begun = false ∧
        (t.blk b).tkt = ((s.blk b).tkt + 1) % 2 ^ 32 ∧
        (∀ k, { (t.blk k).sansGroups with tkt := 0 } = { (s.blk k).sansGroups with tkt := 0 }) ∧
        (∀ k j, (t.grp k j).sansPend = (s.grp k j).sansPend) ∧
        (returnsMasks i = false → ∀ k j, (t.grp k j).results = (s.grp k j).results) ∧
        SameRegs (guarded s f.pr.toNat) (if returnsTicket i then [f.d.toNat, f.d.toNat + 1] else []) [] s t ∧
        (∀ k j l, { (t.thr k j l).sansRegs with engOps := [] } = { (s.thr k j l).sansRegs with engOps := [] }) ∧
        (s.cur.members.Nodup → ∀ k ∈ guarded s f.pr.toNat, (t.thr b k.1 k.2).engOps = (s.thr b k.1 k.2).engOps ++ [cmd.id]) ∧
        (returnsTicket i = true → ∀ k ∈ guarded s f.pr.toNat, (t.thr b k.1 k.2).rx f.d.toNat = BitVec.ofNat 64 (s.blk b).tkt) ∧
        (returnsMasks i = true → ∀ j ∈ guardedGroups s f.pr.toNat, ∃ old p, (t.grp b j).pend = old ++ [p] ∧
          old.map (fun q => { q with cancel := [] }) = (s.grp b j).results ∧ IsLater p f.d.toNat (lanesIn s f.pr.toNat j) ∧ (j, p.id) ∈ cmd.pend) ∧
        ((s.core core).tileQ = [] → t.posted (turnOf op) { x := core } = true)) ∧
    ((s.blk b).err = true → ∃ t, exec i s = .next t ∧ SameBytes s t ∧ (t.blk b).tkt = ((s.blk b).tkt + 1) % 2 ^ 32 ∧
      (t.blk b).done = ((s.blk b).done + 1) % 2 ^ 32)) ∧
  (∀ (f : WA) (s : State), Passes (.tstat f) s → f.a.toNat < (s.blk s.cur.blk).acc →
    ∃ t, exec (.tstat f) s = .next t ∧ RegsOnly (guarded s f.pr.toNat) [f.d.toNat, f.d.toNat + 1] [] s t ∧
      ∀ m ∈ guarded s f.pr.toNat,
        let v := (t.thr s.cur.blk m.1 m.2).rx f.d.toNat
        let b := s.blk s.cur.blk
        v.toNat % 4 = (b.tile f.a.toNat).st % 4 ∧ v.toNat / 4 % 8 = 0 ∧ v.getLsbD 6 = (b.tile f.a.toNat).und ∧ v.getLsbD 7 = b.err ∧
        v.toNat / 2 ^ 8 % 2 ^ 16 = 0 ∧ v.toNat / 2 ^ 24 % 2 ^ 8 = b.errc % 2 ^ 8 ∧ v.toNat / 2 ^ 32 = b.done % 2 ^ 32 ∧
        v.getLsbD 5 = (s.core (s.blkCore s.cur.blk)).tileQ.any (fun c => decide (c.blk = s.cur.blk) && (tilesOf c.op).contains f.a.toNat)) ∧
  ∀ (i : Instr) (f : WA) (s : State) (m : Nat × Nat) (n : Nat), Passes i s → lowest s f.pr.toNat = some m →
    (i = .twait f ∧ n = (rdW s m f.a.toNat).toNat ∨ i = .twaitAll f ∧ n = ((s.blk s.cur.blk).tkt + (2 ^ 32 - 1)) % 2 ^ 32) →
    ∃ t, exec i s = .next t ∧ QuietDevice s t ∧ NoRegs s t ∧ SameGroups Group.sansPend s t ∧
      ∀ j ∈ guardedGroups s f.pr.toNat, ∃ old p, (t.grp s.cur.blk j).pend = old ++ [p] ∧ old = (s.grp s.cur.blk j).pend ∧
        p.kind = .twait ∧ p.tick = n ∧ p.seq = (s.grp s.cur.blk j).nextSeq ∧
        (ticketDone (s.blk s.cur.blk) n = true → t.posted .loadResultReturn { x := s.cur.blk, y := j, z := p.id } = true)

/-! ### Engine words (18) -/

/-- CPY, GATH, CPY.N and COLL, their checks passed, issue one operation for each guarded thread, in lane order, behind those of their queue;
each carries the layout record and the coordinates its lane named. Each group with a guarded lane enters a result that comes later, the
promise. One operation that finds room gets max(previous promise, GTS) plus the time of its class, and its lane that value. No register
and no byte changes at issue (R418, R421, R424).
QFENCE with a guarded lane, every named queue having room, places one fence at the tail of each of them; other queues, registers and
bytes stay (R108, R430).
CSEAL writes the number of the open batch to w D, seals it with its unfinished operations and opens the next, of the next number.
CWAIT passes where every guarded thread has at most k sealed batches, and holds otherwise. SLEEP.P leaves a group whose named batches are
finished, and else makes it wait until the largest promise among them. LEADER sets predicate D in the lowest guarded lane and clears it in
the others (R425 to R429); no trap is due at the report point, and the block is not marked for termination. -/
def Obligations.EngineWordsEnterTheirQueuesAndBatches : Prop :=
  ((∀ (i : Instr) (kind : EngKind) (q : Nat) (f : WA) (s : State), engineForm i = some (kind, q, f) → Passes i s →
    engineCheck s f kind q = .pass →
    let b := s.cur.blk
    let core := s.blkCore b
    ∃ t new, exec i s = .next t ∧ SameBytes s t ∧ SameRegs [] [] [] s t ∧
      (engineOps t core q).map (fun o => { o with prom := 0 }) = (engineOps s core q ++ new).map (fun o => { o with prom := 0 }) ∧
      new.map (fun o => (o.j, o.lane)) = guarded s f.pr.toNat ∧
      (∀ o ∈ new, o.kind = kind ∧ o.blk = b ∧ o.begun = false ∧ o.batch = none ∧ o.gts0 = s.gts ∧
        readBlock s (o.j, o.lane) (rdX s (o.j, o.lane) f.a.toNat).toNat = .bytes o.lrec ∧
        o.c0 = (rdW s (o.j, o.lane) f.b.toNat).toNat ∧ o.c1 = (rdW s (o.j, o.lane) (f.b.toNat + 1)).toNat) ∧
      (∀ n p, (n = core → p ≠ q) → t.engQ n p = s.engQ n p) ∧
      (∀ j ∈ guardedGroups s f.pr.toNat, ∃ p ∈ (t.grp b j).pend, IsLater p f.d.toNat (lanesIn s f.pr.toNat j) ∧ p.seq = (s.grp b j).nextSeq) ∧
      ∀ m, guarded s f.pr.toNat = [m] → (s.core core).entering = [] → (s.engQ core q).length < engDepth q →
        ∃ o, t.engQ core q = s.engQ core q ++ [o] ∧
          o.prom = max (if s.engQ core q = [] then 0 else tget 0 (s.core core).lastProm q) s.gts + promiseTime o.cls o.len ∧
          ∃ p ∈ (t.grp b m.1).pend, p.id = o.pend ∧ ∃ a ∈ p.accs, a.lane = m.2 ∧ a.cap = true ∧ a.val = natLe 8 o.prom) ∧
  ∀ (f : WI) (s : State), Passes (.qfence f) s → guarded s f.pr.toNat ≠ [] →
    (∀ q ∈ fenceQueues f.k.toNat, (s.engQ (s.blkCore s.cur.blk) q).length < engDepth q) →
    ∃ t o, exec (.qfence f) s = .next t ∧ SameOutside s t ∧ t.blks = s.blks ∧ o.kind = .fence (fenceQueues f.k.toNat) ∧
      (∀ n q, t.engQ n q = s.engQ n q ++ if n = s.blkCore s.cur.blk ∧ q ∈ fenceQueues f.k.toNat then [o] else []) ∧
      ∀ n, { t.core n with engQ := [] } = { s.core n with engQ := [] }) ∧
  (∀ (f : WA) (s : State), Passes (.cseal f) s → s.cur.members.Nodup →
    (∀ m ∈ guarded s f.pr.toNat, (s.thr s.cur.blk m.1 m.2).sealed.length < 16) →
    ∃ t, exec (.cseal f) s = .next t ∧ SameBytes s t ∧ SameRegs (guarded s f.pr.toNat) [f.d.toNat] [] s t ∧
      ∀ m ∈ guarded s f.pr.toNat,
        let o := s.thr s.cur.blk m.1 m.2
        let n := t.thr s.cur.blk m.1 m.2
        n.rw f.d.toNat = BitVec.ofNat 32 o.bseq ∧ n.bseq = (o.bseq + 1) % 2 ^ 16 ∧ n.openLeft = 0 ∧ n.openProm = 0 ∧
        (o.openLeft ≠ 0 → ∃ a ∈ n.sealed, a.num = o.bseq ∧ a.left = o.openLeft) ∧ (o.openLeft = 0 → o.sealed = [] → n.sealed = [])) ∧
  (∀ (f : WI) (s : State), Passes (.cwait f) s → dueList s f.pr.toNat Point.cwait = [] →
    ((∀ m ∈ guarded s f.pr.toNat, (s.thr s.cur.blk m.1 m.2).sealed.length ≤ f.k.toNat) →
      ∃ t, exec (.cwait f) s = .next t ∧ RegsOnly [] [] [] s t) ∧
    ((∃ m ∈ guarded s f.pr.toNat, f.k.toNat < (s.thr s.cur.blk m.1 m.2).sealed.length) → s.cur.go = false →
      ∃ t, exec (.cwait f) s = .next t ∧ t.cur.verdict = 7 ∧ SameBytes s t ∧ SameRegs [] [] [] s t ∧
        ∀ m ∈ s.cur.members, (t.thr s.cur.blk m.1 m.2).pc = s.cur.head)) ∧
  (∀ (f : WA) (s : State), Passes (.sleepP f) s → dueList s f.pr.toNat Point.cwait = [] → (s.blk s.cur.blk).marked = false →
    ∃ t, exec (.sleepP f) s = .next t ∧ QuietDevice s t ∧ NoRegs s t ∧ SameGroups Group.sansWait s t ∧
      ∀ j ∈ guardedGroups s f.pr.toNat,
        (namedBatches s f j = [] → (t.grp s.cur.blk j).wait = (s.grp s.cur.blk j).wait) ∧
        (namedBatches s f j ≠ [] →
          let wake := max s.gts (namedPromise (s.grp s.cur.blk j) (namedBatches s f j))
          (t.grp s.cur.blk j).wait = .promise wake s.cur.sc ((s.cur.members.filter (fun m => m.1 = j)).map Prod.snd) (namedBatches s f j) ∧
          ∃ e ∈ t.agenda, e.due = wake ∧ e.ev = .promiseWake ∧ e.arg.x = s.cur.blk ∧ e.arg.y = j)) ∧
  ∀ (f : WA) (s : State), Passes (.leader f) s →
    ∃ t, exec (.leader f) s = .next t ∧ RegsOnly (guarded s f.pr.toNat) [] [f.d.toNat] s t ∧
      ∀ m ∈ guarded s f.pr.toNat, (t.thr s.cur.blk m.1 m.2).rp f.d.toNat = decide (lowest s f.pr.toNat = some m)

/-! ### Active messages (13) -/

/-- AMSG, its checks passed, gives each guarded lane the next ticket of its group in x D and sends its message: to this device as an arrival
with sender, handler and payload, to a device that a port reaches as a request over that port; both stand in the core's send queue. For a device
that no port reaches the status UNREACH is on its way to the sender. AMPOLL enters a result with the status of each
guarded lane's ticket. AMEND of a handler group whose checks pass ends every thread of the group and answers its sender HANDLED with w A
(R322, R327, R328). -/
def Obligations.MessageWordsSendPollAndEnd : Prop :=
  (∀ (f : WA) (s : State), Passes (.amsg f) s → amsgCheck s f = .pass → s.cur.members.Nodup →
    ∃ t, exec (.amsg f) s = .next t ∧ (∀ a, t.byte a = s.byte a) ∧
      SameRegs (guarded s f.pr.toNat) [f.d.toNat, f.d.toNat + 1] [] s t ∧ SameThreads s t ∧
      ∀ m ∈ guarded s f.pr.toNat,
        let b := s.cur.blk
        let n := ((s.grp b m.1).amseq + (lanesIn s f.pr.toNat m.1).idxOf m.2) % 2 ^ 16
        let x := (rdX s m f.a.toNat).toNat
        let pay := padRead t b (rdW s m f.b.toNat).toNat (rdW s m (f.b.toNat + 1)).toNat
        (t.thr b m.1 m.2).rx f.d.toNat = BitVec.ofNat 64 n ∧
        (x % 2 ^ 10 = s.devNo → ∃ e ∈ t.agenda, e.ev = .messageArrival ∧ e.due = s.gts + 1 ∧
          e.arg = { x := s.devNo, y := s.curCtx, z := s.blkCore b, u := b, l := [m.1, n, x / 2 ^ 10 % 2 ^ 12, x / 2 ^ 22 % 2 ^ 8],
                    v := (s.ctx s.curCtx).amkey.setWidth 64, data := pay }) ∧
        (x % 2 ^ 10 = s.devNo ∨ usablePorts s (x % 2 ^ 10) ≠ [] → [b, m.1, n] ∈ (t.core (s.blkCore b)).sendQ) ∧
        (x % 2 ^ 10 ≠ s.devNo → usablePorts s (x % 2 ^ 10) ≠ [] → ∃ r ∈ t.peerReqs, r.home = x % 2 ^ 10 ∧ r.core = s.blkCore b ∧ r.kind = 0x40 ∧
          r.info = [s.curCtx, b, m.1, n, x / 2 ^ 10 % 2 ^ 12, x / 2 ^ 22 % 2 ^ 8, (s.ctx s.curCtx).amkey.toNat] ∧ r.data = pay ∧
          r.port ∈ usablePorts s (x % 2 ^ 10) ∧ (r.home, r.header, pay) ∈ t.peerOut) ∧
        (x % 2 ^ 10 ≠ s.devNo → usablePorts s (x % 2 ^ 10) = [] → ∃ e ∈ t.agenda, e.ev = .messageAnswerArrival ∧
          e.arg = { x := b, y := m.1, z := n, u := 9 })) ∧
  (∀ (f : WA) (s : State), Passes (.ampoll f) s →
    ∃ t, exec (.ampoll f) s = .next t ∧ QuietDevice s t ∧ NoRegs s t ∧ SameGroups Group.sansPend s t ∧
      ∀ j ∈ guardedGroups s f.pr.toNat, ∃ old p, (t.grp s.cur.blk j).pend = old ++ [p] ∧ IsLater p f.d.toNat (lanesIn s f.pr.toNat j) ∧
        ∀ a ∈ p.accs, a.val = natLe 8 (pollResult (s.grp s.cur.blk j) ((rdW s (j, a.lane) f.a.toNat).toNat % 2 ^ 16))) ∧
  ∀ (f : WA) (s : State) (m : Nat × Nat) (sender : List Nat), Passes (.amend f) s → lowest s f.pr.toNat = some m →
    (s.blk s.cur.blk).sender = some sender → amendCheck s f = .pass → (s.grp s.cur.blk m.1).done = false →
    ∃ t, exec (.amend f) s = .next t ∧ SameBytes s t ∧ (∀ l, l < 32 → (t.thr s.cur.blk m.1 l).mode = .exited) ∧
      (sender.getD 0 0 = s.devNo → ∃ e ∈ t.agenda, e.ev = .messageAnswerArrival ∧ e.due = s.gts + 1 ∧
        e.arg = { x := sender.getD 3 0, y := sender.getD 4 0, z := sender.getD 5 0, u := 3, v := (rdW s m f.a.toNat).setWidth 64 })

namespace Sys2Proof.Claims

open Sys2Proof.Machine

/-- The system registers that need guest kernel privilege to read (R443). -/
def readLevel (n : Nat) : Nat := if n = 0x013 ∨ n = 0x01A then 1 else 0

/-- The least privilege to write a writable system register (R443, R459). -/
def writeLevel (n : Nat) : Nat :=
  if n ∈ [0x013, 0x014, 0x015, 0x018, 0x019, 0x100, 0x102, 0x108, 0x10A] then 1 else if n = 0x01A then 2 else 0

/-- Least privilege of a word, and the detail of its trap where it names a system register (R133, R445). -/
def leastPrivilege : Instr → Nat × Option Nat
  | .mfs f => (readLevel f.sreg.toNat, some f.sreg.toNat)
  | .mts f => (writeLevel f.sreg.toNat, some f.sreg.toNat)
  | .dtload _ => (1, none)
  | .tlbi _ => (1, none)
  | .mcfgr _ => (3, none)
  | .mcfgw _ => (3, none)
  | _ => (0, none)

/-- A session register as a group of a privilege reads it (R472): 0 below the privilege that opened the session, else PSCTL, a selector or a
counter with its INVALID bit. -/
def sessionValue (z : Session) (k priv : Nat) : Nat :=
  if z.isOpen = true ∧ priv < z.pl then 0
  else if k = 0 then
    z.pl % 4 * 64 + (if z.frozen = true ∨ ∃ e ∈ z.inval, e.2 = true then 8 else 0) + (if z.force then 4 else 0) + (if z.isOpen then 2 else 0) + (if z.run then 1 else 0)
  else if k < 16 then tget 0 z.sel (k - 8) % 256
  else tget 0 z.cnt (k - 16) % 2 ^ 63 + (if tget false z.inval (k - 16) then 2 ^ 63 else 0)

/-- The registers of a session after a write (R472): a group below PL writes nothing; PSCTL takes RUN, OPEN and, from the hypervisor up, FORCE
(R458), and opening records the privilege and zeroes the counters; a selector takes a code that the session's privilege may select (R470);
a counter takes its value without INVALID. -/
def sessionAfter (z : Session) (k : Nat) (v : DWord) (priv : Nat) : Session :=
  if z.isOpen = true ∧ priv < z.pl then z
  else if k = 0 then
    let y := { z with force := if 2 ≤ priv then v.getLsbD 2 else z.force, isOpen := v.getLsbD 1, run := v.getLsbD 0 }
    if v.getLsbD 1 = true ∧ z.isOpen = false then { y with pl := priv, cnt := [], inval := [], frozen := false } else y
  else if k < 16 then
    (match eventPriv (v.toNat % 256) with
      | some p => if p ≤ z.pl then { z with sel := tset z.sel (k - 8) (v.toNat % 256) } else z
      | none => z)
  else { z with cnt := tset z.cnt (k - 16) (v.toNat % 2 ^ 63), inval := tset z.inval (k - 16) false }

/-- A word of the oldest engine error record of a group; 0 where there is none (18 R436). -/
def errorWord (g : Group) (k : Nat) : Nat :=
  match g.engErr with
  | r :: _ => (match k with | 0 => r.w0 | 1 => r.w1 | 2 => r.w2 | _ => r.w3).toNat
  | [] => 0

/-- A bid register by its index: the bid at an even one, WGTS at an odd one (07 R173). -/
def bidWord (x : Ctx) (n : Nat) : Nat := if n % 2 = 0 then (x.bid (n / 2)).lo.toNat else (x.bid (n / 2)).wgts % 2 ^ 64

/-- The value of a system register as member `m` sees it, the registers of group and thread as they stand before the issue (R120, R443, R447, R459). -/
def sregValue (s : State) (m : Nat × Nat) (n : Nat) : Nat :=
  let g := s.srcGrp m.1
  let t := s.srcThr m
  let x := s.ctx s.srcBlk.ctx
  match n with
  | 0x000 => locOf (s.srcBlk.core.getD 0) g.slot m.2
  | 0x001 => s.gts % 2 ^ 64
  | 0x002 => s.devNo % 2 ^ 10 * 2 ^ 22 + x.vf % 2 ^ 6 * 2 ^ 16 + s.srcBlk.ctx % 2 ^ 12
  | 0x003 => x.ctxen % 2 ^ 64
  | 0x004 => 2 ^ 28 + (if g.xgran.isSome then 2 ^ 8 else 0) + (if g.udt then 2 ^ 4 else 0) + (if g.udiv then 1 else 0)
  | 0x005 => g.fpc.toNat
  | 0x006 => (upto 4).foldl (fun n k => if thas x.slots (k + 1) then n + 2 ^ (5 + k) else n) (2 ^ 4 + g.sel % 8)
  | 0x007 => g.priv % 4
  | 0x010 => x.tvec.toNat
  | 0x011 => x.nbase.toNat
  | 0x012 => x.ndrop % 2 ^ 16 * 2 ^ 48 + x.ntail % 2 ^ 6 * 2 ^ 8 + x.nhead % 2 ^ 6
  | 0x013 => x.nmask.toNat
  | 0x014 => x.wrtb.toNat
  | 0x015 => (if x.raceSkip then 2 else 0) + (if x.raceEn then 1 else 0)
  | 0x018 => x.amht.toNat
  | 0x019 => x.amfeed.toNat
  | 0x01A => x.amkey.toNat
  | 0x01B => x.amFull % 2 ^ 16 * 2 ^ 48 + x.msgs.length % 2 ^ 16 * 2 ^ 16
  | 0x038 => errorWord g 0
  | 0x039 => errorWord g 1
  | 0x03A => errorWord g 2
  | 0x03B => errorWord g 3
  | 0x03C => g.engErr.length % 16 + g.engDrop % 2 ^ 16 * 2 ^ 16
  | 0x03D => 0
  | 0x040 => g.tcause.toNat
  | 0x041 => g.tinfo.toNat
  | 0x042 => t.tpc.toNat
  | 0x043 => t.tepc.toNat
  | 0x044 => t.taddr.toNat
  | 0x045 => t.tsyn.toNat
  | 0x046 => 0
  | 0x100 => x.trbase.toNat
  | 0x101 => x.trdrop % 2 ^ 16 * 2 ^ 48 + x.trtail % 2 ^ 20 * 2 ^ 24 + x.trhead % 2 ^ 20
  | 0x102 => x.trmask.toNat
  | 0x108 => x.smpbase.toNat
  | 0x109 => x.smpdrop % 2 ^ 16 * 2 ^ 48 + x.smptail % 2 ^ 20 * 2 ^ 24 + x.smphead % 2 ^ 20
  | 0x10A => x.smpctl.toNat
  | 0x10C => evavOf 0
  | 0x10D => evavOf 1
  | n =>
    if 0x020 ≤ n ∧ n < 0x02A then bidWord x (n - 0x020)
    else if 0x030 ≤ n ∧ n < 0x035 then (spotPrice s (n - 0x030)).toNat
    else if 0x140 ≤ n ∧ n < 0x1C0 then sessionValue (x.session ((n - 0x140) / 32)) (n % 32) (s.grp s.cur.blk m.1).priv
    else 0

/-- TAIL of a ring after a write: a value outside the range from HEAD less the size to HEAD is ignored (06 R158, 20 R466). -/
def tailAfter (head tail size modulus v : Nat) : Nat := if (head + modulus - v % modulus) % modulus ≤ size then v % modulus else tail

/-- What a bid of R174 is refused for. -/
def bidBad (cls : Nat) (v : DWord) : Prop :=
  2 ^ 58 ≤ v.toNat ∨ v.toNat / 2 ^ 32 % 2 ^ 12 < v.toNat / 2 ^ 44 % 2 ^ 12 ∨ classUnits cls < v.toNat / 2 ^ 32 % 2 ^ 12 ∨
  2 ≤ v.toNat / 2 ^ 56 % 4 ∨ (v.toNat / 2 ^ 56 % 4 ≠ 0 ∧ cls ≠ 1)

/-- A context after an MTS of `v` to the register of index `n` by a group of a privilege, for the registers held per context but the bids
(R443, R459). -/
def ctxAfter (n : Nat) (v : DWord) (priv : Nat) (x : Ctx) : Ctx :=
  match n with
  | 0x010 => { x with tvec := v &&& 0x01FF_FFFF_FFFF_FF01 }
  | 0x011 => { x with nbase := v &&& 0x01FF_FFFF_FFFF_FE03 }
  | 0x012 => { x with ntail := tailAfter x.nhead x.ntail 32 64 (v.toNat / 2 ^ 8 % 2 ^ 6), ndrop := v.toNat / 2 ^ 48 }
  | 0x013 => { x with nmask := v.extractLsb' 0 32 &&& 0x1FE }
  | 0x014 =>
    if x.launches = [] then
      { x with wrtb := v &&& 0x01FF_FFFF_FFFF_F00F, nodes := if v.extractLsb' 12 45 = x.wrtb.extractLsb' 12 45 then x.nodes else [] }
    else x
  | 0x015 => { x with raceEn := v.getLsbD 0 }
  | 0x018 => { x with amht := v &&& 0x01FF_FFFF_FFFF_F801 }
  | 0x019 => { x with amfeed := v &&& 0x01FF_FFFF_FFFF_001F, amKept := x.amKept && decide (v &&& 0x01FF_FFFF_FFFF_001F = x.amfeed) }
  | 0x01A => { x with amkey := v.extractLsb' 0 32 }
  | 0x100 => { x with trbase := v &&& 0x01FF_FFFF_FFFF_F01F }
  | 0x101 => { x with trtail := tailAfter x.trhead x.trtail (2 ^ (min (x.trbase.toNat % 16) 9 + 7)) (2 ^ 20) (v.toNat / 2 ^ 24 % 2 ^ 20) }
  | 0x102 => { x with trmask := v.extractLsb' 0 32 }
  | 0x108 => { x with smpbase := v &&& 0x01FF_FFFF_FFFF_F01F }
  | 0x109 => { x with smptail := tailAfter x.smphead x.smptail (2 ^ (min (x.smpbase.toNat % 16) 9 + 7)) (2 ^ 20) (v.toNat / 2 ^ 24 % 2 ^ 20) }
  | 0x10A => { x with smpctl := v.extractLsb' 0 32 &&& 0xFFFF_0001 }
  | n =>
    if 0x140 ≤ n ∧ n < 0x1C0 then
      { x with sessions := tset x.sessions ((n - 0x140) / 32) (sessionAfter (x.session ((n - 0x140) / 32)) (n % 32) v priv) }
    else x

/-- A pending result of which LDROP discards the faulted lanes, and the entry in the operand log with them (R452). -/
def dropLanes (p : Pend) : Pend :=
  if p.kind = .load ∧ (∃ a ∈ p.accs, a.st = 2) then { p with logged := false, accs := p.accs.filter (fun a => decide (a.st ≠ 2)) } else p

/-- A group after an MTS of `v` to the register of index `n`, `raised` being the floating-point flags of the issue so far, for the registers held
per group (R43, R443, R452). -/
def groupAfter (n : Nat) (v : DWord) (raised : Nat) (g : Group) : Group :=
  match n with
  | 0x004 => { g with udt := v.getLsbD 4, udiv := g.udiv && !v.getLsbD 0 }
  | 0x005 => { g with fpc := (v.extractLsb' 0 32 &&& 0xC1F) ||| BitVec.ofNat 32 raised }
  | 0x03D => { g with engErr := g.engErr.drop 1 }
  | 0x046 => if g.hm then { g with pend := (g.pend.map dropLanes).filter (fun p => !(decide (p.kind = .load) && p.accs.isEmpty)) } else g
  | _ => g

/-- TRAP and BRK with the cause each raises (R453). -/
def trapForm : Instr → Option (Nat × WK)
  | .trap f => some (0x18, f)
  | .brk f => some (0x12, f)
  | _ => none

end Sys2Proof.Claims

/-! ### System words (05 R137, R138; 12 R308, R309; 09 R245, R247; 19) -/

/-- A word whose encoding is legal raises PRIV in a group below its least privilege, before any other check it describes, and has no
effect; the detail of MFS and MTS names the register (R442, R445). -/
def Obligations.PrivilegedWordsTrap : Prop :=
  ∀ (i : Instr) (s : State), illStatic i = false → s.cur.go = false → (s.grp s.cur.blk s.cur.j).priv < (leastPrivilege i).1 →
    exec i s = .next (raise s { cause := 0x03, cls := 3, det := match (leastPrivilege i).2 with | some n => 0x8000 + n | none => s.cur.iop })

/-- MFS completes: it writes the register it names, as each guarded lane sees it before the issue, to w D or x D by its width, and changes
nothing else (R120, R443, R445).
MTS of TEPC completes: it writes each guarded lane's own PC field and nothing else. MTS of another register completes: with no guarded lane it
changes nothing; else it writes the lowest guarded lane's value through the fields that may be written of the group, the context or the
context's bid, which a refused value leaves alone (R174, R230). No register of a thread and no byte changes, and no other group, block or
context. Beyond these, an MTS of FPC marks the group's earlier tile drains alone (R43), and one of SMPCTL with EN starts the sampler of every
core of the context's clusters, the first sample falling after the period (R469, R495). -/
def Obligations.SystemRegistersAreMoved : Prop :=
  (∀ (f : WS) (s : State), Passes (.mfs f) s →
    ∃ t, exec (.mfs f) s = .next t ∧
      RegsOnly (guarded s f.pr.toNat) (if sregWide f.sreg.toNat then [f.d.toNat, f.d.toNat + 1] else [f.d.toNat]) [] s t ∧
      ∀ m ∈ guarded s f.pr.toNat,
        if sregWide f.sreg.toNat then (t.thr s.cur.blk m.1 m.2).rx f.d.toNat = BitVec.ofNat 64 (sregValue s m f.sreg.toNat)
        else (t.thr s.cur.blk m.1 m.2).rw f.d.toNat = BitVec.ofNat 32 (sregValue s m f.sreg.toNat)) ∧
  (∀ (f : WS) (s : State), Passes (.mts f) s → f.sreg = 0x043 →
    ∃ t, exec (.mts f) s = .next t ∧ SameDevice s t ∧ SameGroups Group.sansThreads s t ∧ SameRegs [] [] [] s t ∧
      (∀ b j l, { (t.thr b j l).sansRegs with tepc := 0 } = { (s.thr b j l).sansRegs with tepc := 0 }) ∧
      (∀ b j l, (b = s.cur.blk → (j, l) ∉ guarded s f.pr.toNat) → (t.thr b j l).tepc = (s.thr b j l).tepc) ∧
      ∀ m ∈ guarded s f.pr.toNat, (t.thr s.cur.blk m.1 m.2).tepc = rdX s m f.d.toNat &&& 0x0000_FFFF_FFFF_FFFC) ∧
  (∀ (f : WS) (s : State), Passes (.mts f) s → f.sreg ≠ 0x043 → lowest s f.pr.toNat = none → exec (.mts f) s = .next s) ∧
  ∀ (f : WS) (s : State) (m : Nat × Nat), Passes (.mts f) s → f.sreg ≠ 0x043 → lowest s f.pr.toNat = some m →
    let n := f.sreg.toNat
    let c := s.curCtx
    let v := if sregWide n then rdX s m f.d.toNat else (rdW s m f.d.toNat).setWidth 64
    let isBid := 0x020 ≤ n ∧ n < 0x02A ∧ n % 2 = 0
    let k := (n - 0x020) / 2
    ∃ t, exec (.mts f) s = .next t ∧ SameBytes s t ∧ NoRegs s t ∧ (∀ b, (t.blk b).sansGroups = (s.blk b).sansGroups) ∧
      (∀ b j, (b, j) ≠ (s.cur.blk, m.1) → (t.grp b j).sansThreads = (s.grp b j).sansThreads) ∧
      (t.grp s.cur.blk m.1).sansThreads = (groupAfter n v (tget 0 s.cur.raised m.1) (s.grp s.cur.blk m.1)).sansThreads ∧
      (∀ d, d ≠ c → t.ctx d = s.ctx d) ∧
      { t.ctx c with bids := [] } = { ctxAfter n v (s.grp s.cur.blk m.1).priv (s.ctx c) with bids := [] } ∧
      (∀ i, (isBid → i = k → bidBad k v) → (t.ctx c).bid i = (s.ctx c).bid i) ∧
      (isBid → ¬ bidBad k v → ((t.ctx c).bid k).lo = v ∧
        ((t.ctx c).bid k).wgts = if v.toNat % 2 ^ 32 = ((s.ctx c).bid k).lo.toNat % 2 ^ 32 then ((s.ctx c).bid k).wgts else s.gts) ∧
      { t with blks := [], ctxs := [], cores := [], agenda := [] } = { s with blks := [], ctxs := [], cores := [], agenda := [] } ∧
      (n ≠ 0x005 → ¬ (n = 0x10A ∧ v.getLsbD 0 = true) → t.cores = s.cores ∧ t.agenda = s.agenda) ∧
      (n = 0x005 → t.agenda = s.agenda ∧ ∀ i, { t.core i with tileQ := [] } = { s.core i with tileQ := [] } ∧
        (t.core i).tileQ = (s.core i).tileQ.map (fun e =>
          if i = s.blkCore s.cur.blk ∧ e.blk = s.cur.blk ∧ e.j = m.1 then { e with stale := true } else e)) ∧
      (n = 0x10A → v.getLsbD 0 = true →
        (∀ i, { t.core i with smpSlot := 0 } = { s.core i with smpSlot := 0 }) ∧
        (∀ e ∈ s.agenda, e.ev ≠ .sampleTake → e ∈ t.agenda) ∧
        ∀ u ∈ heldUnits s c 0, ∀ i ∈ clusterCores u, ∃ e ∈ t.agenda, e.ev = .sampleTake ∧
          e.arg.x = i ∧ e.due = s.gts + max (v.toNat % 2 ^ 32 / 2 ^ 16) 16)

/-- TRAP and BRK with guarded threads of one group, no handler running and a handler in the vector table: each guarded thread is ACTIVE at the
handler with TPC the PC of the word and TEPC that of the next, HM is 1 and TCAUSE names the cause and k; no register changes. With no
guarded thread they have no effect (R446, R447, R453).
TRAP_ENTRY of a pending trap in a resident block: with a handler in the vector table, each trapping thread is ACTIVE at the handler with
its saved PC, resume PC, address and syndrome; HM is 1, TCAUSE and TINFO say why; the others stay. Without a handler every thread of the
group ends (R157, R446, R447).
RETT in a handler, with room for the entries set aside: each handler thread stands at its TEPC in its state before the trap, the others
keep PC and state, HM is 0 and REPI is again what it was before the trap (05 R132), unless the cause is CANCEL, which ends every thread of
the group. Outside a handler RETT raises ILL (R450). -/
def Obligations.TrapsEnterTheHandlerAndRettReturns : Prop :=
  (((∀ (i : Instr) (c : Nat) (f : WK) (s : State) (pc : Nat), trapForm i = some (c, f) → Checked i s → guarded s f.pr.toNat ≠ [] →
    (∀ m ∈ guarded s f.pr.toNat, m.1 = s.cur.j) → s.cur.members.Nodup → (s.grp s.cur.blk s.cur.j).hm = false →
    readVector s s.curCtx (s.grp s.cur.blk s.cur.j).priv c = .handler pc →
    ∃ t, exec i s = .next t ∧ t.cur.verdict = 6 ∧ SameRegs [] [] [] s t ∧
      let g := t.grp s.cur.blk s.cur.j
      g.hm = true ∧ g.tcause.toNat = 2 ^ 31 + 2 ^ 30 + s.cur.sc % 4 * 2 ^ 28 + f.k.toNat % 2 ^ 16 * 2 ^ 8 + c ∧
      ∀ m ∈ guarded s f.pr.toNat,
        let h := t.thr s.cur.blk m.1 m.2
        h.mode = .active ∧ h.handler = true ∧ h.pc = BitVec.ofNat 48 pc ∧ h.tpc = s.cur.pc.setWidth 64 ∧ h.tepc = s.cur.next.setWidth 64 ∧
        h.taddr = 0 ∧ h.tsyn = 0) ∧
  ∀ (i : Instr) (c : Nat) (f : WK) (s : State), trapForm i = some (c, f) → Passes i s → guarded s f.pr.toNat = [] →
    ∃ t, exec i s = .next t ∧ RegsOnly [] [] [] s t) ∧
  (∀ (s : State) (p : Pending) (pc : Nat), (s.blk s.arg.x).core.isSome = true → (s.grp s.arg.x s.arg.y).trap = some p →
    (p.lanes.map Prod.fst).Nodup → readVector s (s.blk s.arg.x).ctx (s.grp s.arg.x s.arg.y).priv p.cause = .handler pc →
    ∃ t, exec .trapEntry s = .next t ∧ SameRegs [] [] [] s t ∧
      let g := t.grp s.arg.x s.arg.y
      g.hm = true ∧ g.trap = none ∧
      g.tcause.toNat = 2 ^ 31 + (if p.prec then 2 ^ 30 else 0) + p.sc % 4 * 2 ^ 28 + p.det % 2 ^ 16 * 2 ^ 8 + p.cause % 2 ^ 8 ∧
      g.tinfo.toNat % 2 ^ 32 = p.arg % 2 ^ 32 ∧ g.tinfo.toNat / 2 ^ 32 = p.repi % 2 ^ 32 ∧
      (∀ e ∈ p.lanes,
        let h := t.thr s.arg.x s.arg.y e.1
        h.mode = .active ∧ h.handler = true ∧ h.pc = BitVec.ofNat 48 pc ∧ h.tpc = BitVec.ofNat 64 e.2.1 ∧ h.tepc = BitVec.ofNat 64 e.2.2.1 ∧
        h.taddr = BitVec.ofNat 64 e.2.2.2.1 ∧ h.tsyn = BitVec.ofNat 64 e.2.2.2.2) ∧
      ∀ b j l, (b = s.arg.x → j = s.arg.y → l ∉ p.lanes.map Prod.fst) → t.thr b j l = s.thr b j l) ∧
  ∀ (s : State) (p : Pending) (off : Bool), (s.blk s.arg.x).core.isSome = true → (s.grp s.arg.x s.arg.y).trap = some p →
    (s.grp s.arg.x s.arg.y).done = false →
    readVector s (s.blk s.arg.x).ctx (s.grp s.arg.x s.arg.y).priv p.cause = .unhandled off →
    ∃ t, exec .trapEntry s = .next t ∧ ∀ l, (t.thr s.arg.x s.arg.y l).mode = .exited) ∧
  (∀ (f : WA) (s : State), Passes (.rett f) s →
    let g := s.grp s.cur.blk s.cur.j
    rettCheck s = .pass → g.hm = true → g.done = false →
    ∃ t, exec (.rett f) s = .next t ∧
      (g.tcause.toNat % 2 ^ 8 ≠ 0x14 → (t.grp s.cur.blk s.cur.j).hm = false ∧ (t.grp s.cur.blk s.cur.j).tcause.getLsbD 31 = false ∧
        (t.grp s.cur.blk s.cur.j).repi = g.repSave ∧
        ∀ l,
          let o := g.th l
          let n := t.thr s.cur.blk s.cur.j l
          n.handler = false ∧ (o.handler = false → n.pc = o.pc ∧ n.mode = o.mode) ∧
          (o.handler = true → n.pc = o.tepc.setWidth 48 ∧ n.mode = if o.mode = .exited then .exited else o.before)) ∧
      (g.tcause.toNat % 2 ^ 8 = 0x14 → ∀ l, (t.thr s.cur.blk s.cur.j l).mode = .exited)) ∧
  ∀ (f : WA) (s : State), Checked (.rett f) s → (s.srcGrp s.cur.j).hm = false →
    exec (.rett f) s = .next (raise s { cause := 0x01 })

/-- DTSEL of slot 0 or of a slot once loaded selects it for the groups of its guarded lanes. DTLOAD of 1024 legal entries, read at an aligned
address, installs them in its slot and changes no other slot and no byte. MCFGR reads the maker's space, where writes are ignored
(05 R137, R138; R456). -/
def Obligations.DecodeTablesAreLoadedAndSelected : Prop :=
  (∀ (f : WI) (s : State), Passes (.dtsel f) s → (f.k = 0 ∨ thas (s.ctx s.curCtx).slots f.k.toNat = true) →
    ∃ t, exec (.dtsel f) s = .next t ∧ SameDevice s t ∧ NoRegs s t ∧ SameGroups (fun g => { g.sansThreads with sel := 0 }) s t ∧
      (∀ j ∈ guardedGroups s f.pr.toNat, (t.grp s.cur.blk j).sel = f.k.toNat) ∧
      ∀ b j, (b = s.cur.blk → j ∉ guardedGroups s f.pr.toNat) → (t.grp b j).sel = (s.grp b j).sel) ∧
  (∀ (f : WI) (s : State) (m : Nat × Nat) (bs : List Byte), Passes (.dtload f) s → 1 ≤ f.k.toNat → f.k.toNat ≤ 4 →
    lowest s f.pr.toNat = some m →
    let a := (rdX s m f.a.toNat).toNat
    a % 2048 = 0 → canonicalAddr a = true → draining (s.srcGrp m.1) = false →
    vread s s.curCtx (vaOf a) 2048 aLOAD (s.blk s.cur.blk).priv = .done bs →
    (∀ n, n < 1024 → entryOk (leNat ((bs.drop (2 * n)).take 2)) = true) →
    ∃ t, exec (.dtload f) s = .next t ∧ SameBytes s t ∧ NoRegs s t ∧ SameGroups Group.sansThreads s t ∧
      (∀ n, n < 1024 → tget 0 (tget [] (t.ctx s.curCtx).slots f.k.toNat) n = leNat ((bs.drop (2 * n)).take 2)) ∧
      (∀ k, k ≠ f.k.toNat → tget [] (t.ctx s.curCtx).slots k = tget [] (s.ctx s.curCtx).slots k) ∧
      ∀ c, { t.ctx c with slots := [] } = { s.ctx c with slots := [] }) ∧
  (∀ (f : WS) (s : State), Passes (.mcfgr f) s →
    ∃ t, exec (.mcfgr f) s = .next t ∧ RegsOnly (guarded s f.pr.toNat) [f.d.toNat, f.d.toNat + 1] [] s t ∧
      ∀ m ∈ guarded s f.pr.toNat,
        let v := (t.thr s.cur.blk m.1 m.2).rx f.d.toNat
        (f.sreg = 0 → v.toNat / 2 ^ 32 = 0x4759_0004) ∧ (f.sreg = 1 → v.toNat = s.power.bootst % 4) ∧
        (2 ≤ f.sreg.toNat → f.sreg.toNat < 0x10 → v = 0) ∧ (0x50 ≤ f.sreg.toNat → v = 0)) ∧
  ∀ (f : WS) (s : State), Passes (.mcfgw f) s → ∃ t, exec (.mcfgw f) s = .next t ∧ RegsOnly [] [] [] s t

/-- TLBI and ICINV, their checks passed, enter a completion in the group of the lowest guarded lane, and the invalidation that it waits for
is placed on the agenda. PROBE, when no table of its walks is still to be read at a peer home, enters a result for each guarded lane. None
changes a register or a byte at issue (R295, R308, R309, R455). -/
def Obligations.TranslationWordsEnterTheirCompletion : Prop :=
  (∀ (i : Instr) (f : WA) (ev : Instr) (s : State) (m : Nat × Nat), Passes i s → lowest s f.pr.toNat = some m →
    (i = .tlbi f ∧ ev = .tlbiCompletion ∧ tlbiCheck s f = .pass ∨
      i = .icinv f ∧ ev = .icinvCompletion ∧ canonicalAddr (rdX s m f.a.toNat).toNat = true) →
    ∃ t p, exec i s = .next t ∧ QuietDevice s t ∧ NoRegs s t ∧ SameGroups Group.sansPend s t ∧
      (t.grp s.cur.blk m.1).pend = (s.grp s.cur.blk m.1).pend ++ [p] ∧ p.kind = .completion ∧ p.seq = (s.grp s.cur.blk m.1).nextSeq ∧
      ∃ e ∈ t.agenda, e.ev = ev ∧ s.gts < e.due ∧ e.arg.x = p.id ∧
        (ev = .tlbiCompletion → e.arg.y = (rdW s m f.b.toNat).toNat ∧ e.arg.z = (rdX s m f.a.toNat).toNat ∧ e.arg.l = [s.cur.blk, m.1, p.seq]) ∧
        (ev = .icinvCompletion → e.arg.y = s.cur.blk ∧ e.arg.z = m.1 ∧ e.arg.u = p.seq)) ∧
  ∀ (f : WA) (s : State), Passes (.probe f) s → (∀ m ∈ guarded s f.pr.toNat, (rdW s m f.b.toNat).toNat ≤ 2) → probeLacks s f = none →
    ∃ t, exec (.probe f) s = .next t ∧ QuietDevice s t ∧ NoRegs s t ∧ SameGroups Group.sansPend s t ∧
      ∀ j ∈ guardedGroups s f.pr.toNat, ∃ old p, (t.grp s.cur.blk j).pend = old ++ [p] ∧ IsLater p f.d.toNat (lanesIn s f.pr.toNat j) ∧
        ∀ a ∈ p.accs, a.val = natLe 8 (probeResult s s.curCtx (s.grp s.cur.blk j).priv (rdX s (j, a.lane) f.a.toNat).toNat
          (rdW s (j, a.lane) f.b.toNat).toNat)

/-- KCHK writes the cancel state of the block's nodes to w D of each guarded lane, bit 4 saying that the block is marked, and changes nothing else. KCANC, once the accesses that the issuing groups have made before are performed and no fault of theirs is to be reported (04 R94,
R116), answers every guarded lane 1 for an entry that is not in the table, cannot be read or is not ACTIVE, 2 for one of another level, and
else 0 with the entry's cancel flag set; with an answer other than 0 no byte and no Work Record changes (R245, R247). -/
def Obligations.CancelWordsReadAndSetFlags : Prop :=
  (∀ (f : WA) (s : State), Passes (.kchk f) s →
    ∃ t, exec (.kchk f) s = .next t ∧ RegsOnly (guarded s f.pr.toNat) [f.d.toNat] [] s t ∧
      ∀ m ∈ guarded s f.pr.toNat,
        let v := (t.thr s.cur.blk m.1 m.2).rw f.d.toNat
        v.getLsbD 4 = (s.blk s.cur.blk).marked ∧ v.toNat < 32 ∧
        ∀ e, (s.blk s.cur.blk).launch = some e → v.getLsbD 0 = ((s.ctx s.curCtx).launch e).cnc) ∧
  ∀ (hard : Bool) (lv : BitVec 2) (f : WA) (s : State) (m : Nat × Nat), Passes (.kcanc hard lv f) s → lowest s f.pr.toNat = some m →
    reportCheck s f.pr.toNat Point.arrival arriving 9 = .pass →
    let x := s.ctx s.curCtx
    let n := (rdW s m f.a.toNat).toNat
    let entry := if n = 0xFFFF then ownNode x (s.blk s.cur.blk).launch lv.toNat else some n
    let answered (t : State) (r : Word) : Prop := ∀ k ∈ guarded s f.pr.toNat, (t.thr s.cur.blk k.1 k.2).rw f.d.toNat = r
    let refused (r : Word) : Prop := ∃ t, exec (.kcanc hard lv f) s = .next t ∧ answered t r ∧ SameBytes s t ∧ SameThreads s t ∧
      SameRegs (guarded s f.pr.toNat) [f.d.toNat] [] s t ∧ ∀ c, (t.ctx c).launches = (s.ctx c).launches ∧ (t.ctx c).nodes = (s.ctx c).nodes
    (entry = none → refused 1) ∧
    (∀ e, entry = some e → 2 ^ (min (x.wrtb.toNat % 16) 10 + 6) ≤ e → refused 1) ∧
    ∀ e, entry = some e → e < 2 ^ (min (x.wrtb.toNat % 16) 10 + 6) →
      (readEntry s s.curCtx e = .fail → refused 1) ∧
      ∀ bs u, readEntry s s.curCtx e = .done bs u →
        (recBits bs 193 192 ≠ 1 → refused 1) ∧
        (recBits bs 193 192 = 1 → recBits bs 199 198 ≠ lv.toNat → refused 2) ∧
        (recBits bs 193 192 = 1 → recBits bs 199 198 = lv.toNat → ∃ t, exec (.kcanc hard lv f) s = .next t ∧ answered t 0 ∧
          (lv ≠ 0 → ((t.ctx s.curCtx).node e).cnc = true) ∧
          (lv = 0 → thas x.launches e = true → ((t.ctx s.curCtx).launch e).cnc = true ∨ thas (t.ctx s.curCtx).launches e = false))

namespace Sys2Proof.Claims

open Sys2Proof.Machine

/-- A core's tile queue is headed by a command that may run: its block is resident there, what it follows has been performed, and no
command of its block has failed. -/
def TileHead (s : State) (core : Nat) (c : TileCmd) : Prop :=
  (∃ q, (s.core core).tileQ = c :: q) ∧ (s.blk c.blk).core = some core ∧ fenced s c.blk c.fence = false ∧ (s.blk c.blk).err = false

/-- A tile command has finished: it has left its queue, DONE has advanced, and no byte of HBM has changed. -/
def TileEnds (s t : State) (core : Nat) (c : TileCmd) : Prop :=
  (t.blk c.blk).done = ((s.blk c.blk).done + 1) % 2 ^ 32 ∧ (∀ d ∈ (t.core core).tileQ, ¬(d.blk = c.blk ∧ d.ticket = c.ticket)) ∧
  ∀ a, t.byte a = s.byte a

/-- A region of `n` bytes at an offset lies within units that are all different. -/
def Within (units : List Nat) (off n : Nat) : Prop := units.Nodup ∧ off + n ≤ units.length * 65536

end Sys2Proof.Claims

/-! ### Events of the memory pipe and of waiting groups (04 R99 to R102; 05 R121; 03 R73; 10; 13 R323; 22 R492) -/

/-- STORE_QUEUE_PERFORM of a store of one lane to this device's memory writes its bytes at the physical address, low byte first, and no
other, and the entry leaves the queue. A lane whose access fails makes the entry its own record, and no byte changes (R99, R101, R380).
LOAD_RESULT_RETURN writes a result that is due to its registers, a narrow one extended by its sign; a load of scratchpad or eaves reads
there (R102, R381).
SWITCH_MARKER_COMPLETE of a marker with nothing outstanding that it waits for, at which no thread ends and no granule returns, with no trap
due and no deadlock in the block, lets the group go on (R121).
MAP_FILL_COMPLETE puts the 128 bytes of the global line into the scratchpad line, VALID and clean (R73). An L2 request enters the queue of its slice; where the queue holds 16 or others wait, a prefetch is dropped and any other request waits ahead of
it. Its line returns 21 ns later, and later than those before it, frees the place for the oldest that waits, and, with no format range enabled,
the line of a prefetch to the L2 is then in its slice (R383, R492). ICINV_COMPLETION ends the wait of
its word, after the earlier stores (R455). -/
def Obligations.MemoryEventsPerformReturnAndFill : Prop :=
  ((∀ (s : State) (e : SqEntry) (a : Acc) (q : List SqEntry) (pa : Nat) (x : TlbEntry),
    let b := s.arg.x
    let j := s.arg.y
    s.memWf = true → (s.blk b).core.isSome = true → (s.grp b j).sq = e :: q → (s.grp b j).pend = [] →
    e.kind = .store → e.fault = none → e.sent = false → mateStores (s.blk b) j e = false → e.accs = [a] → a.st ≠ 1 → a.sp = 0 →
    translate s (s.blk b).ctx (vaOf a.addr) aSTORE (s.blk b).priv = .ok s.devNo pa x → pa.testBit 39 = false → s.frr = [] →
    ∃ t, exec .storeQueuePerform s = .next t ∧ (t.grp b j).sq = q ∧
      (∀ i, i < e.size → t.byte (domAddr s.devNo pa + i) = (natLe e.size (a.lo.toNat + a.hi.toNat * 2 ^ 64)).getD i 0) ∧
      (∀ n, (∀ i, i < e.size → n ≠ domAddr s.devNo pa + i) → t.byte n = s.byte n) ∧ ∀ n, t.unitByte n = s.unitByte n) ∧
  (∀ (s : State) (e : SqEntry) (a : Acc) (q : List SqEntry) (syn det : Nat),
    let b := s.arg.x
    let j := s.arg.y
    (s.blk b).core.isSome = true → (s.grp b j).sq = e :: q → (s.grp b j).pend = [] →
    e.kind = .store → e.fault = none → e.sent = false → mateStores (s.blk b) j e = false → e.accs = [a] → a.st ≠ 1 →
    laneProbe s b a.sp a.addr e.size aSTORE = .fail syn det → det ≠ 0x1F →
    ∃ t r, exec .storeQueuePerform s = .next t ∧ SameBytes s t ∧ (t.grp b j).sq = r :: q ∧ r.id = e.id ∧
      r.fault = some (if det = 0x0B ∨ det = 0x0D then det else 0x0A) ∧ r.accs = [{ a with st := 2, syn := syn, det := det }]) ∧
  ∀ (s : State) (p : Pend) (a : Acc) (bs : List Byte),
    let b := s.arg.x
    let j := s.arg.y
    let l := s.arg.u
    (s.blk b).core.isSome = true → (s.grp b j).pend = [p] → p.id = s.arg.z → p.accs = [a] → a.lane = l → a.st ≠ 1 → a.st ≠ 2 → a.st ≠ 3 →
    (∀ i, j < i → ∀ q ∈ (s.grp b i).pend, q.iss = 0) → p.cancel = [] → (p.kind = .value ∨ p.kind = .atom ∨ p.kind = .load) →
    ((p.kind ≠ .load ∨ a.cap = true) ∧ bs = a.val ∨
      p.kind = .load ∧ a.cap = false ∧ a.sp = 1 ∧ invalidLine (s.blk b) (a.addr / 128) = none ∧ bs = padRead s b a.addr p.size ∨
      p.kind = .load ∧ a.cap = false ∧ a.sp = 2 ∧ bs = eavesRead s b a.addr p.size) →
    ∃ t, exec .loadResultReturn s = .next t ∧ SameBytes s t ∧
      (p.size ≤ 4 → (t.thr b j l).rw p.d =
        if p.signed then BitVec.ofInt 32 (sextNat (leNat bs) (8 * p.size)) else BitVec.ofNat 32 (leNat bs)) ∧
      (4 < p.size → ∀ i, i < p.size / 4 → (t.thr b j l).rw (p.d + i) = BitVec.ofNat 32 (leNat bs / 2 ^ (32 * i))) ∧
      ∀ k m r, (k = b → m = j → False) → (t.thr k m r).w = (s.thr k m r).w) ∧
  (∀ (s : State) (m : Marker),
    let b := s.arg.x
    let j := s.arg.y
    let g := s.grp b j
    g.marker = some m → (s.blk b).core.isSome = true → (s.blk b).stopped = false → g.wait = .none → g.trap = none → g.dbgStop = false →
    g.done = false → g.pend = [] → records g = 0 → dueAt (s.blk b) g Point.marker = none → (∀ l ∈ m.lanes, (g.th l).maskDue = []) →
    m.ends = [] → m.rel = false → (m.drain = true → g.runnable = []) → g.alive ≠ [] → (∀ i ∈ instances (s.blk b), deadlocked (s.blk b) i.1 i.2 = false) →
    ∃ t, exec .switchMarkerComplete s = .next t ∧ SameDevice s t ∧ NoRegs s t ∧ (t.grp b j).marker = none ∧
      SameGroups (fun g => { g.sansThreads with marker := none }) s t) ∧
  (∀ (s : State) (bs : List Byte),
    let b := s.arg.x
    let e := s.arg.y
    let i := s.arg.z
    let m := (s.blk b).map e
    s.memWf = true → (s.blk b).core.isSome = true → m.v = true → m.valid.contains i = false → m.inval.contains i = false →
    (∀ j ∈ (s.blk b).groupIds, (s.grp b j).pend = [] ∧ (s.grp b j).sq = []) → Within (s.blk b).units ((m.sline + i) * 128) 128 →
    vread { s with src := s.blkCore b } (s.blk b).ctx (lineVa m i) 128 aFILL (s.blk b).priv = .done bs → bs.length = 128 →
    ∃ t, exec .mapFillComplete s = .next t ∧ padRead t b ((m.sline + i) * 128) 128 = bs ∧ (∀ n, t.byte n = s.byte n) ∧
      ((t.blk b).map e).valid.contains i = true ∧ tget 0 ((t.blk b).map e).dirty i = 0) ∧
  (∀ (s : State), s.arg.x < 256 → (s.core s.arg.x).l2Q.length < 16 → (s.core s.arg.x).l2Wait = [] →
    let before (e : Event) : Prop := e ∈ s.agenda ∧ e.ev = .l2LineReturn ∧ e.arg.x = s.arg.x
    ∃ t, exec .l2RequestAccept s = .next t ∧ SameBytes s t ∧ (t.core s.arg.x).l2Q = (s.core s.arg.x).l2Q ++ [(s.arg.y, s.arg.z)] ∧
      ∃ e ∈ t.agenda, e.ev = .l2LineReturn ∧ e.arg = s.arg ∧ s.gts + 21 ≤ e.due ∧ (∀ v, before v → v.due < e.due) ∧
        ((∀ v, ¬before v) → e.due = s.gts + 21)) ∧
  (∀ (s : State), s.arg.x < 256 → 16 ≤ (s.core s.arg.x).l2Q.length ∨ (s.core s.arg.x).l2Wait ≠ [] → s.arg.u ≠ 0 →
    exec .l2RequestAccept s = .next s) ∧
  (∀ (s : State), s.arg.x < 256 → 16 ≤ (s.core s.arg.x).l2Q.length ∨ (s.core s.arg.x).l2Wait ≠ [] → s.arg.u = 0 →
    ∃ t, exec .l2RequestAccept s = .next t ∧ SameBytes s t ∧ t.agenda = s.agenda ∧ (t.core s.arg.x).l2Q = (s.core s.arg.x).l2Q ∧
      (t.core s.arg.x).l2Wait = (s.core s.arg.x).l2Wait ++ [[s.arg.y, s.arg.z, s.arg.u] ++ s.arg.l]) ∧
  (∀ (s : State), s.arg.x < 256 → (s.core s.arg.x).l2Wait = [] →
    ∃ t, exec .l2LineReturn s = .next t ∧ SameBytes s t ∧ t.agenda = s.agenda ∧ (t.core s.arg.x).l2Q = (s.core s.arg.x).l2Q.drop 1 ∧
      (s.arg.u = 1 → frrOn s = [] → ∃ x ∈ tget [] t.l2 (sliceOf (s.arg.y * 128)), x.line = s.arg.y)) ∧
  (∀ (s : State) (r : List Nat) (rest : List (List Nat)), s.arg.x < 256 → (s.core s.arg.x).l2Wait = r :: rest →
    ∃ t, exec .l2LineReturn s = .next t ∧ SameBytes s t ∧ (t.core s.arg.x).l2Wait = rest ∧
      (t.core s.arg.x).l2Q = (s.core s.arg.x).l2Q.drop 1 ++ [(r.getD 0 0, r.getD 1 0)]) ∧
  (∀ (s : State), thas (s.blk s.arg.y).groups s.arg.z = true → earlierLeft s s.arg.y s.arg.z s.arg.u = false →
    ∃ t, exec .icinvCompletion s = .next t ∧ ∀ p ∈ (t.grp s.arg.y s.arg.z).pend, p.id ≠ s.arg.x) ∧
  ∀ (s : State), earlierLeft s s.arg.y s.arg.z s.arg.u = true →
    ∃ t, exec .icinvCompletion s = .next t ∧ t.blks = s.blks ∧ ∃ e ∈ t.agenda, e.ev = .icinvCompletion ∧ e.arg = s.arg ∧ s.gts < e.due

/-- A group whose SLEEP has run out, in a resident block, is no longer in a wait, and the end of a YIELD's period is no wait either (R355).
PROMISE_WAKE lets a group go on whose batches have finished, and has it wait on where no PROMISE handler stands (R428). A generation of a bridle channel in which every block has arrived with the same kind, and no scratchpad line of the result waits for its page,
releases each of them and counts (R285). A message to a context that
does not exist is answered NOCTX; one for a context that is not RUNNING, whose key and handler are right, joins its feed, its record is written to the next place of the feed's ring, and it is answered QUEUED; an answer enters the status ring of its group (R322 to R325). -/
def Obligations.WaitsAndMessagesEnd : Prop :=
  (∀ (s : State) (wake : Nat), (s.grp s.arg.x s.arg.y).wait = .sleep wake → wake ≤ s.gts → (s.blk s.arg.x).core.isSome = true →
    ∃ t, exec .sleepWake s = .next t ∧ QuietDevice s t ∧ NoRegs s t ∧ SameGroups Group.sansWait s t ∧ (t.grp s.arg.x s.arg.y).wait = .none) ∧
  (∀ (s : State), (s.grp s.arg.x s.arg.y).notBefore ≤ s.gts → (s.grp s.arg.x s.arg.y).stall = 5 →
    ∃ t, exec .yieldEnd s = .next t ∧ SameDevice s t ∧ NoRegs s t ∧ SameGroups Group.sansThreads s t ∧ (t.grp s.arg.x s.arg.y).stall = 0) ∧
  (∀ (s : State) (wake sc : Nat) (ls : List Nat) (named : List (Nat × Nat)),
    (s.grp s.arg.x s.arg.y).wait = .promise wake sc ls named → wake ≤ s.gts → (s.blk s.arg.x).core.isSome = true →
    namedLeft (s.grp s.arg.x s.arg.y) named = [] →
    ∃ t, exec .promiseWake s = .next t ∧ QuietDevice s t ∧ NoRegs s t ∧ SameGroups Group.sansWait s t ∧ (t.grp s.arg.x s.arg.y).wait = .none) ∧
  (∀ (s : State) (wake sc : Nat) (ls : List Nat) (named : List (Nat × Nat)) (off : Bool),
    (s.grp s.arg.x s.arg.y).wait = .promise wake sc ls named → wake ≤ s.gts → (s.blk s.arg.x).core.isSome = true →
    namedLeft (s.grp s.arg.x s.arg.y) named ≠ [] →
    readVector s (s.blk s.arg.x).ctx (s.grp s.arg.x s.arg.y).priv 0x10 = .unhandled off →
    ∃ t, exec .promiseWake s = .next t ∧ SameDevice s t ∧ NoRegs s t ∧ (t.grp s.arg.x s.arg.y).wait = .promiseWait named) ∧
  (∀ (s : State) (k : Nat), s.arg.x < 16 → channelBlocks s s.arg.x ≠ [] → (∀ p ∈ (s.chan s.arg.x).past, p.2.1 = k) →
    (∀ b ∈ channelBlocks s s.arg.x, (s.blk b).core.isSome = true ∧ (∀ n va st need, fillVector s b n ≠ .wait va st need) ∧
      ∃ off d ls, (s.blk b).bridle = some (k, off, d, ls)) →
    ∃ t, exec .bridleGenerationComplete s = .next t ∧ (t.chan s.arg.x).gen = ((s.chan s.arg.x).gen + 1) % 65536 ∧
      ∀ b ∈ channelBlocks s s.arg.x, (t.blk b).bridle = none ∧ ∀ j, thas (s.blk b).groups j = true → (t.grp b j).wait ≠ .bridle) ∧
  (∀ (s : State), s.arg.l.getD 2 0 < 4096 → s.arg.x = s.devNo → (s.ctx (s.arg.l.getD 2 0)).st = .free →
    ∃ t, exec .messageArrival s = .next t ∧ SameBytes s t ∧ t.ctxs = s.ctxs ∧
      ∃ e ∈ t.agenda, e.ev = .messageAnswerArrival ∧ e.arg.x = s.arg.u ∧ e.arg.y = s.arg.l.getD 0 0 ∧ e.arg.z = s.arg.l.getD 1 0 ∧ e.arg.u = 4) ∧
  (∀ (s : State) (bs : List Byte),
    let c := s.arg.l.getD 2 0
    let x := s.ctx c
    c < 4096 → s.arg.x = s.devNo → x.st = .runnable → messageBehind s s.arg = false → x.resetting = false →
    s.arg.v.toNat % 2 ^ 32 = x.amkey.toNat → x.amht.getLsbD 0 = true → readHandler s c (s.arg.l.getD 3 0) = .done bs →
    handlerOk (leNat bs) = true → x.msgs.length < feedRoom x →
    ∃ t m, exec .messageArrival s = .next t ∧ (t.ctx c).msgs = x.msgs ++ [m] ∧ m.pc = leNat bs % 2 ^ 48 ∧
      m.payload = s.arg.data.take 256 ∧ m.va = (x.amfeed.extractLsb' 16 41).toNat * 2 ^ 16 + 512 * (x.amNext % feedRoom x) ∧
      (let u := (leaveSendQ s s.arg).tick.updCtx c (fun y => { y with msgs := x.msgs ++ [m], amNext := x.amNext + 1, amKept := x.amKept || x.msgs.isEmpty })
       ∀ a, t.byte a = (ownWrite u c m.va (feedRecord m) (rafterSrc u)).byte a) ∧ (∀ a, t.unitByte a = s.unitByte a) ∧
      ∃ e ∈ t.agenda, e.ev = .messageAnswerArrival ∧ e.arg.x = s.arg.u ∧ e.arg.u = 2) ∧
  ∀ (s : State),
    let g := s.grp s.arg.x s.arg.y
    thas s.blks s.arg.x = true → thas (s.blk s.arg.x).groups s.arg.y = true → g.done = false → g.alive ≠ [] → ticketLive g s.arg.z = true →
    ∃ t, exec .messageAnswerArrival s = .next t ∧ SameDevice s t ∧ NoRegs s t ∧
      tget 0 (t.grp s.arg.x s.arg.y).amst (s.arg.z % 32) = s.arg.u + 256 * (s.arg.v.toNat % 2 ^ 32) ∧
      ∀ k, k ≠ s.arg.z % 32 → tget 0 (t.grp s.arg.x s.arg.y).amst k = tget 0 g.amst k

/-! ### Turns of the tile unit (17 R402 to R411) -/

/-- The turn of a tile command that heads its queue: TZERO empties its tile, TRES makes a REDUNDANT one CANONICAL, TMOV copies, TCMP delivers
the masks of every row to its waiting results, TSAVE writes the image of its tile to eaves, TLOAD takes an image that is well formed,
after the longer time of a redundant one (R398), TPLANE writes the plane form, TDRAIN writes each element without scales in plane form,
converted with the FTZ and F8NS of the FPC; each then leaves the queue with DONE advanced (R396, R406 to R411). A TMMA advances one slice at a
turn; an element outside its shape and the other tiles stay, and a turn after the last slice finishes it (R402, R405). At a slice boundary the
TMMA of a block marked for termination ends (R416), and an open one of a block that is pre-empted leaves its queue for the block's image
(R404). The block has no map entries. -/
def Obligations.TileTurnsActOnTheirTile : Prop :=
  (∀ (s : State) (c : TileCmd) (z : Nat), TileHead s s.arg.x c → c.op = .tzero z →
    ∃ t, exec .tzeroTurn s = .next t ∧ TileEnds s t s.arg.x c ∧ (t.blk c.blk).tile z = {} ∧
      ∀ y, y ≠ z → (t.blk c.blk).tile y = (s.blk c.blk).tile y) ∧
  (∀ (s : State) (c : TileCmd) (z : Nat), TileHead s s.arg.x c → c.op = .tres z → ((s.blk c.blk).tile z).st ≠ 3 →
    ∃ t, exec .tresTurn s = .next t ∧ TileEnds s t s.arg.x c ∧
      ((t.blk c.blk).tile z).st = (if ((s.blk c.blk).tile z).st = 1 then 2 else ((s.blk c.blk).tile z).st) ∧
      (∀ n x, tfind ((s.blk c.blk).tile z).el n = some x →
        ((t.blk c.blk).tile z).elem n = if ((s.blk c.blk).tile z).st = 1 then canonElem x else x) ∧
      ∀ y, y ≠ z → (t.blk c.blk).tile y = (s.blk c.blk).tile y) ∧
  (∀ (s : State) (c : TileCmd) (d a : Nat), TileHead s s.arg.x c → c.op = .tmov d a → d ≠ a → ((s.blk c.blk).tile a).st ≠ 3 →
    ∃ t, exec .tmovTurn s = .next t ∧ TileEnds s t s.arg.x c ∧ (t.blk c.blk).tile d = { (s.blk c.blk).tile a with stepNo := 0 } ∧
      ∀ y, y ≠ d → (t.blk c.blk).tile y = (s.blk c.blk).tile y) ∧
  (∀ (i : Instr) (s : State) (c : TileCmd) (d z : Nat), TileHead s s.arg.x c →
    (i = .tcmpTurn ∧ c.op = .tcmp d z ∨ i = .tcmpXTurn ∧ c.op = .tcmpX d z) → ((s.blk c.blk).tile z).st ≠ 3 →
    let x := if i = .tcmpXTurn then resolveTile ((s.blk c.blk).tile z) else (s.blk c.blk).tile z
    ∃ t, exec i s = .next t ∧ TileEnds s t s.arg.x c ∧ ((t.blk c.blk).tile z).st = x.st ∧ ((t.blk c.blk).tile z).el = x.el ∧
      ∀ p ∈ c.pend, ∀ q ∈ (t.grp c.blk p.1).pend, q.id = p.2 →
        ∀ a ∈ q.accs, a.cap = true ∧ a.val = natLe 8 (rowMasks (decide (x.st ≠ 1)) x (a.lane % 32))) ∧
  (∀ (i : Instr) (s : State) (c : TileCmd) (ad a z : Nat) (redun : Bool), TileHead s s.arg.x c → s.memWf = true →
    (i = .tsaveTurn ∧ c.op = .tsave ad z ∧ redun = true ∨ i = .tsaveCTurn ∧ c.op = .tsaveC ad z ∧ redun = false) →
    ((s.blk c.blk).tile z).st ≠ 3 → tagOf ad = some (2, a) →
    let img := tileImage redun (if redun then (s.blk c.blk).tile z else resolveTile ((s.blk c.blk).tile z))
    Within (s.blk c.blk).eunits a img.length →
    ∃ t, exec i s = .next t ∧ TileEnds s t s.arg.x c ∧ eavesRead t c.blk a img.length = img) ∧
  (∀ (s : State) (c : TileCmd) (ad a z : Nat) (xs : List Elem), TileHead s s.arg.x c → c.op = .tload ad z → tagOf ad = some (2, a) →
    let h := eavesRead s c.blk a 64
    let redun := decide (recBits h 15 8 = 1)
    a + imageSize redun ≤ eavesSize (s.blk c.blk) → headerBad h = false →
    recBits h 95 64 = crc32c ((eavesRead s c.blk a (imageSize redun)).drop 64) →
    (∃ n, imageElems redun n ((eavesRead s c.blk a (imageSize redun)).drop 64) = some xs ∧ n = s.freeCtr) → (redun = true → c.wide = true) →
    ∃ t, exec .tloadTurn s = .next t ∧ TileEnds s t s.arg.x c ∧ ((t.blk c.blk).tile z).st = (if redun then 1 else 2) ∧
      ((t.blk c.blk).tile z).und = false ∧ ∀ n x, xs[n]? = some x → n < 1024 → ((t.blk c.blk).tile z).elem n = x) ∧
  (∀ (s : State) (c : TileCmd) (ad a z : Nat), TileHead s s.arg.x c → c.op = .tload ad z → tagOf ad = some (2, a) →
    a + 64 ≤ eavesSize (s.blk c.blk) → headerBad (eavesRead s c.blk a 64) = false → recBits (eavesRead s c.blk a 64) 15 8 = 1 → c.wide = false →
    c.stop = false →
    ∃ t, exec .tloadTurn s = .next t ∧ SameBytes s t ∧ t.blks = s.blks ∧
      (t.core s.arg.x).tileQ = { c with begun := true, wide := true } :: (s.core s.arg.x).tileQ.drop 1 ∧
      ∃ e ∈ t.agenda, e.ev = .tloadTurn ∧ e.arg = { x := s.arg.x } ∧ s.gts ≤ e.due) ∧
  (∀ (s : State) (c : TileCmd) (a off : Nat), TileHead s s.arg.x c → s.memWf = true → c.op = .tplane 2 a off → (s.blk c.blk).maps = [] →
    let src := eavesRead s c.blk a 2048
    let img := planeTile ((List.range 1024).map (fun n => (src.getD (2 * n) 0).toNat + 256 * (src.getD (2 * n + 1) 0).toNat))
    Within (s.blk c.blk).units off img.length →
    ∃ t, exec .tplaneTurn s = .next t ∧ TileEnds s t s.arg.x c ∧ padRead t c.blk off img.length = img) ∧
  (∀ (s : State) (c : TileCmd) (rm c0 c1 fpc : Nat) (pb : List Byte), TileHead s s.arg.x c → s.memWf = true →
    c.op = .tdrain rm pb c0 c1 fpc → ((s.blk c.blk).tile (pbZt pb)).st ≠ 3 → (s.blk c.blk).maps = [] → pbRse pb = false → pbCse pb = false →
    pbDpl pb = true → pbDsp pb = 2 →
    let x := resolveTile ((s.blk c.blk).tile (pbZt pb))
    let n := pbSide pb
    let img := planeTile ((places n).map (fun p =>
      (drainElem (x.elem (32 * (pbRow0 pb + p.1) + pbCol0 pb + p.2)) (.fin false 1 0) (.fin false 1 0) (pbDfmt pb) rm (fpc.testBit 10)
        (fpc.testBit 11)).bits))
    Within (s.blk c.blk).eunits (dBase pb c0 c1) img.length →
    ∃ t, exec .tdrainTurn s = .next t ∧ TileEnds s t s.arg.x c ∧ (t.blk c.blk).tile (pbZt pb) = x ∧
      eavesRead t c.blk (dBase pb c0 c1) img.length = img) ∧
  ∀ (s : State) (c : TileCmd) (pb : List Byte) (c0 c1 : Nat), TileHead s s.arg.x c → c.op = .tmma pb c0 c1 → c.begun = true →
    (s.blk c.blk).maps = [] →
    let z := pbZt pb
    let u := ((s.blk c.blk).tile z).stepNo
    ((s.blk c.blk).tile z).st ≠ 3 →
    ∃ t, exec .tmmaTurn s = .next t ∧ (∀ a, t.byte a = s.byte a) ∧ (∀ y, y ≠ z → (t.blk c.blk).tile y = (s.blk c.blk).tile y) ∧
      (pbSlices pb ≤ u → TileEnds s t s.arg.x c ∧ (t.blk c.blk).tile z = { (s.blk c.blk).tile z with stepNo := 0 }) ∧
      (u < pbSlices pb → ((t.blk c.blk).tile z).st = 1 ∧ ((t.blk c.blk).tile z).stepNo = u + 1 ∧
        (¬(u = 0 ∧ pbZf pb = true) → ∀ r k, r < 32 → k < 32 →
          ¬(pbRow0 pb ≤ r ∧ r < pbRow0 pb + pbSide pb ∧ pbCol0 pb ≤ k ∧ k < pbCol0 pb + pbSide pb) →
          ((t.blk c.blk).tile z).elem (32 * r + k) = ((s.blk c.blk).tile z).elem (32 * r + k)) ∧
        (c.stop = true → TileEnds s t s.arg.x c) ∧
        (c.stop = false → u + 1 < pbSlices pb → (s.blk c.blk).stopped = true →
          (t.blk c.blk).tileSaved = c :: (s.blk c.blk).tileSaved ∧ (t.core s.arg.x).tileQ = (s.core s.arg.x).tileQ.drop 1) ∧
        (c.stop = false → u + 1 = pbSlices pb ∨ (s.blk c.blk).stopped = false →
          (t.core s.arg.x).tileQ = (s.core s.arg.x).tileQ ∧
          ∃ e ∈ t.agenda, e.ev = .tmmaTurn ∧ e.arg = { x := s.arg.x } ∧ s.gts ≤ e.due))

/-! ### Events of the engines and the network (18 R418 to R435; 04 R107, R108; 13 R330 to R332) -/

/-- ENGINE_OPERATION_TURN begins the operation that heads a queue, once what it follows has been performed, and a QFENCE that heads every
queue it names leaves them (R107, R108). A step of a COPY packet copies the bytes it can reach, and the packet leaves the queue with the
last one. ENGINE_OPERATION_STOP saves the remainder of an operation of a stopped block (R418, R434).
A collective fragment is held once at its core, and has the collective that has begun there look again; the 65th of a CID waits on its link until
the core's own collective has issued (R433). A port that carries no frames and completes none takes no frame (13 R312). A frame that answers
no request is counted at the queue it names or at its port; an acknowledgement takes its packet from the request, which completes with the last
one; a packet without acknowledgement is sent again under its queue, request, key and address, at most eight times, by a port that carries
frames (13 R332, 18 R431). -/
def Obligations.EngineAndNetworkEventsServeRequests : Prop :=
  ((∀ (s : State) (o : EngOp) (r : List EngOp), s.engQ s.arg.x s.arg.y = o :: r → o.begun = false → ofThread o = true →
    fenced s o.blk [(o.j, o.fence)] = false →
    ∃ t, exec .engineOperationTurn s = .next t ∧ SameBytes s t ∧ t.blks = s.blks ∧
      (t.engQ s.arg.x s.arg.y).head? = some { o with begun := true } ∧ (t.engQ s.arg.x s.arg.y).length = r.length + 1 ∧
      ∃ e ∈ t.agenda, e.ev = .engineOperationComplete ∧ e.arg = { x := s.arg.x, y := s.arg.y } ∧ s.gts < e.due) ∧
  (∀ (s : State) (o : EngOp) (r : List EngOp) (qs : List Nat), s.engQ s.arg.x s.arg.y = o :: r → o.begun = false → o.kind = .fence qs →
    qs.Nodup → (s.core s.arg.x).entering = [] → (∀ q ∈ qs, ∃ h l, s.engQ s.arg.x q = h :: l ∧ h.id = o.id) →
    ∃ t, exec .engineOperationTurn s = .next t ∧ SameBytes s t ∧
      ∀ q, t.engQ s.arg.x q = if q ∈ qs then (s.engQ s.arg.x q).drop 1 else s.engQ s.arg.x q) ∧
  (∀ (s v u : State) (o : EngOp) (r : List EngOp) (ctx qn idx : Nat) (bs : List Byte), s.engQ s.arg.x s.arg.y = o :: r → o.begun = true →
    o.kind = .packet ctx qn idx → (s.core s.arg.x).entering = [] →
    let len := lrField o.lrec 255 192
    let sa := vaOf (lrField o.lrec 127 64 + o.pos)
    let da := vaOf (lrField o.lrec 191 128 + o.pos)
    let n := min (len - o.pos) (roomAt 0 da)
    o.pos < len → engGetAll s o 0 sa n = .ok bs v → vwrite v ctx da bs aEWRITE 0 (v.blkCore o.blk) = .done u →
    ∃ t, exec .engineOperationComplete s = .next t ∧ (∀ a, t.byte a = u.byte a) ∧
      (o.pos + n = len → t.engQ s.arg.x s.arg.y = (o :: r).filter (fun p => p.id ≠ o.id) ∧
        ∃ e ∈ t.agenda, e.ev = .copyPacket ∧ e.arg = { x := ctx, y := qn, z := idx, u := 1 }) ∧
      (o.pos + n < len → o.away = false → (t.engQ s.arg.x s.arg.y).head? = some { o with pos := o.pos + n } ∧
        ∃ e ∈ t.agenda, e.ev = .engineOperationComplete ∧ e.arg = { x := s.arg.x, y := s.arg.y } ∧ s.gts < e.due)) ∧
  ∀ (s : State) (o : EngOp) (r : List EngOp), s.engQ s.arg.x s.arg.y = o :: r → o.begun = true → ofThread o = true →
    (s.blk o.blk).stopped = true → (s.core s.arg.x).entering = [] →
    ∃ t, exec .engineOperationStop s = .next t ∧ SameBytes s t ∧ t.engQ s.arg.x s.arg.y = r ∧
      (t.blk o.blk).engSaved = (s.arg.y, { o with begun := false, away := false, pkts := [] }) :: (s.blk o.blk).engSaved) ∧
  (∀ (s : State), s.arg.x < 256 →
    let k := s.core s.arg.x
    let ctx := s.arg.v.toNat
    let held := k.frags.filter (fun f => decide (f.cid = s.arg.y ∧ f.ctx = ctx))
    let issued := ∃ o, (o ∈ s.engQ s.arg.x 6 ∨ (6, o) ∈ k.entering) ∧ ofThread o = true ∧ lrCid o.lrec = s.arg.y ∧ (s.blk o.blk).ctx = ctx
    let copy := ∃ f ∈ held, f.frm = s.arg.z ∧ f.off = s.arg.u
    ∃ t, exec .collFragmentArrival s = .next t ∧ SameBytes s t ∧ t.blks = s.blks ∧
      (64 ≤ held.length ∧ ¬issued → t.cores = s.cores ∧ ∃ e ∈ t.agenda, e.ev = .collFragmentArrival ∧ e.arg = s.arg ∧ s.gts < e.due) ∧
      (held.length < 64 ∨ issued →
        (copy → (t.core s.arg.x).frags = k.frags) ∧
        (¬copy → (t.core s.arg.x).frags = k.frags ++ [⟨s.arg.y, s.arg.z, s.arg.u, s.arg.data, s.arg.l, ctx⟩]) ∧
        (s.engQ s.arg.x 6 = [] → t.agenda = s.agenda) ∧
        ∀ o r, s.engQ s.arg.x 6 = o :: r → o.begun = true → lrCid o.lrec = s.arg.y → t.posted .engineOperationComplete { x := s.arg.x, y := 6 } = true)) ∧
  (∀ (s : State), s.arg.x < 64 → (s.port s.arg.x).carriesFrames = false → ¬((s.port s.arg.x).st = 5 ∧ (s.port s.arg.x).mode = 1) →
    exec .ethernetFrameReceived s = .next s) ∧
  (∀ (s : State), s.arg.x < 64 → netCore s s.arg.u = none →
    (s.port s.arg.x).carriesFrames = true ∨ ((s.port s.arg.x).st = 5 ∧ (s.port s.arg.x).mode = 1) →
    let own := decide (s.arg.y < 64) && decide (bits (s.nsq s.arg.y).cfg 5 0 = s.arg.x)
    ∃ t, exec .ethernetFrameReceived s = .next t ∧ SameBytes s t ∧ t.cores = s.cores ∧
      (own = true → (t.nsq s.arg.y).ndisc = min ((s.nsq s.arg.y).ndisc + 1) (2 ^ 32 - 1) ∧ t.ports = s.ports) ∧
      (own = false → (t.port s.arg.x).ndisc = min ((s.port s.arg.x).ndisc + 1) (2 ^ 32 - 1) ∧ t.nsqs = s.nsqs)) ∧
  (∀ (s : State) (n : Nat) (o : EngOp) (p : Nat × List Byte), s.arg.x < 64 → s.arg.y < 64 → bits (s.nsq s.arg.y).cfg 5 0 = s.arg.x →
    (s.port s.arg.x).carriesFrames = true ∨ ((s.port s.arg.x).st = 5 ∧ (s.port s.arg.x).mode = 1) →
    netCore s s.arg.u = some n → netOp s n = some o → lrNsq o.lrec = s.arg.y → s.arg.z = 0 → lrUop o.lrec ≠ 2 →
    o.pkts.find? (fun p => p.1 = s.arg.l.headD 0) = some p → (s.core n).entering = [] →
    let rest := o.pkts.filter (fun r => r.1 ≠ s.arg.l.headD 0)
    ∃ t, exec .ethernetFrameReceived s = .next t ∧ (rest ≠ [] ∨ lrBen o.lrec = false → SameBytes s t) ∧
      (rest ≠ [] → netOp t n = some { o with pkts := rest, tries := if (o.pkts.headD (0, [])).1 = s.arg.l.headD 0 then 0 else o.tries }) ∧
      (rest = [] → ∀ q ∈ t.engQ n 5, q.id ≠ o.id)) ∧
  ∀ (s : State) (o : EngOp) (p : Nat × List Byte) (r : List (Nat × List Byte)), netOp s s.arg.x = some o → o.pkts = p :: r → o.tries < 8 →
    let q := lrNsq o.lrec
    let port := (s.nsq q).cfg % 2 ^ 6
    let base := if lrUop o.lrec = 2 then lrSrc o.lrec else lrDst o.lrec
    ∃ t, exec .packetRetransmission s = .next t ∧ SameBytes s t ∧ netOp t s.arg.x = some { o with tries := o.tries + 1 } ∧
      t.peerOut = s.peerOut ++ (if (s.port port).carriesFrames then
        [(1024 + port, [q, o.id, lrUop o.lrec, lrAux o.lrec % 2 ^ 32, (base + p.1) % 2 ^ 64, p.2.length] ++ frameAddress s q p.1,
          if lrUop o.lrec = 2 then [] else p.2)] else []) ∧
      ∃ e ∈ t.agenda, e.ev = .packetRetransmission ∧ e.arg = { x := s.arg.x } ∧ s.gts < e.due

/-! ### Events of the page unit (12 R299 to R310; 03 R84, R85) -/

namespace Sys2Proof.Claims

open Sys2Proof.Machine

/-- No translation is cached that was not before, and none that an invalidation of a type, stage, context, VF and address covers (R309), nor a
pointer entry of its context or of its VF. -/
def Forgets (s t : State) (typ stg ctx vf addr : Nat) : Prop :=
  (∀ k, ∀ x ∈ tget [] t.page.tlb k, x ∈ tget [] s.page.tlb k ∧
    (typ = 0 → stg = 0 → x.ctx = ctx → pageBase x.glvl x.va ≠ pageBase x.glvl (vaOf addr)) ∧
    (typ = 0 → stg = 1 → x.vf = vf → pageBase x.hlvl x.gpa ≠ pageBase x.hlvl addr) ∧
    (typ = 1 → x.ctx ≠ ctx) ∧ (typ = 2 → x.vf ≠ vf)) ∧
  ∀ k, ∀ p ∈ tget [] t.page.ptrs k, p ∈ tget [] s.page.ptrs k ∧ (typ = 1 → p.ctx ≠ ctx) ∧ (typ = 2 → p.vf ≠ vf)

end Sys2Proof.Claims

/-- A waiting access whose page can now be used is no longer kept and is tried again; one that still waits is walked again 100 µs later
(R299). A page request of a guest page writes its record, with the GTS of the first wait, at the head of its VF's ring where that lies in
this device's memory; with the ring off it is counted (R300). PRQDONE has the waiting accesses of its ring walked again. The gutter's line of a page that is resident again in this device's HBM, with no format range in force, is written where its mask says
(R302). PAGE_MOVE of a page whose leaf permits it makes the leaf
MIGRATING; else it ends with the status of R306. PAGE_MOVE_COMPLETE copies a page between places on this device, and the leaf names the new
place with status 0, once no request to a peer home made under the old translation is unanswered (R306); where a home cannot be reached, the leaf is RESIDENT at its old place with status 4 (R307). TLBIH and the completion of TLBI remove every cached translation that their operand covers, and end once no request to a peer home made under
one is unanswered (R309, R310). FRR_COMMIT puts the staged words in force, or sets
ERR and keeps the old ones where the range is not accepted (R84, R85). -/
def Obligations.PageEventsTakeEffect : Prop :=
  ((∀ (s : State) (w : Waiter) (r : Instr × Arg) (dev pa : Nat) (e : TlbEntry),
    s.page.waiters.find? (fun w => w.id == s.arg.x) = some w → pageWalk s w.ctx w.va w.acc = .ok dev pa e → w.retry = some r →
    ∃ t, exec .pageReWalk s = .next t ∧ SameBytes s t ∧ (∀ v ∈ t.page.waiters, v.id ≠ w.id) ∧ t.posted r.1 r.2 = true) ∧
  (∀ (s : State) (w : Waiter) (st stage lvl : Nat) (need : Lack), s.page.waiters.find? (fun w => w.id == s.arg.x) = some w →
    pageWalk s w.ctx w.va w.acc = .wait st stage lvl need → st ≠ 0 → s.arg.y ≠ 1 →
    ∃ t, exec .pageReWalk s = .next t ∧ SameBytes s t ∧ t.page.waiters.map Waiter.id = s.page.waiters.map Waiter.id ∧
      ∃ e ∈ t.agenda, e.ev = .pageReWalk ∧ e.due = s.gts + 100000 ∧ e.arg = s.arg) ∧
  (∀ (s : State) (lvl pa : Nat) (need : Lack) (e : TlbEntry), s.memWf = true → s.arg.u = 0 → s.arg.x < 4096 →
    let n := (s.ctx s.arg.x).vf
    let v := s.vf n
    let slot := prqSlot v.prqBase v.prqHead
    pageWalk s s.arg.x s.arg.y s.arg.z = .wait 1 1 lvl need → v.prqWait = [] →
    v.prqBase.getLsbD 0 = true → prqFull v.prqBase v.prqHead v.prqTail = false →
    pageWalk s (ringCtx n s.arg.x) slot aEWRITE = .ok s.devNo pa e → pa.testBit 39 = false → windowBars s n pa 32 true = false →
    ∃ t, exec .pageRequest s = .next t ∧ (t.vf n).prqHead = (v.prqHead + 1) % 65536 ∧
      memRead t.mem (domAddr s.devNo pa) 32 =
        natLe 32 (s.arg.l.headD s.gts * 2 ^ 192 + s.arg.y % 2 ^ 64 * 2 ^ 128 + s.arg.x % 4096 * 2 ^ 64 + n % 64 * 2 ^ 42 + s.arg.z % 8 * 2 ^ 13)) ∧
  (∀ (s : State) (lvl : Nat) (need : Lack), s.arg.u = 0 → s.arg.x < 4096 →
    let v := s.vf (s.ctx s.arg.x).vf
    pageWalk s s.arg.x s.arg.y s.arg.z = .wait 1 1 lvl need → v.prqWait = [] →
    v.prqBase.getLsbD 0 = false →
    ∃ t, exec .pageRequest s = .next t ∧ SameBytes s t ∧ (t.vf (s.ctx s.arg.x).vf).prqDrop = min (v.prqDrop + 1) (max v.prqDrop 65535) ∧
      (t.vf (s.ctx s.arg.x).vf).prqHead = v.prqHead) ∧
  (∀ (s : State), s.arg.x ≠ 64 →
    ∃ t, exec .prqdoneWrite s = .next t ∧ SameBytes s t ∧
      ∀ w ∈ s.page.waiters, w.peer = none → w.stage = 1 → vfOfCtx s w.ctx = s.arg.x → t.posted .pageReWalk { x := w.id, y := 1 } = true) ∧
  (∀ (s : State), s.arg.x = 64 →
    ∃ t, exec .prqdoneWrite s = .next t ∧ SameBytes s t ∧
      ∀ w ∈ s.page.waiters, w.peer = none → w.stage ≠ 1 → t.posted .pageReWalk { x := w.id, y := 1 } = true) ∧
  ∀ (s : State) (g : GutterSlot) (pa p : Nat) (x e : TlbEntry), s.memWf = true → s.frr = [] → pageWalk s s.arg.x s.arg.y aLOAD = .ok s.devNo pa x →
    s.page.slots.filter (fun g => slotOn s g s.devNo pa x s.arg.y) = [g] → pageWalk s g.ctx g.va aLOAD = .ok s.devNo p e → p.testBit 39 = false →
    let base := domAddr s.devNo p
    ∃ t, exec .gutterDrain s = .next t ∧ (∀ i, i < 128 → g.mask.testBit i = true → t.byte (base + i) = g.bytes.getD i 0) ∧
      (∀ a, (∀ i, i < 128 → g.mask.testBit i = true → a ≠ base + i) → t.byte a = s.byte a) ∧ g ∉ t.page.slots) ∧
  (∀ (s : State) (a e lvl : Nat), s.memWf = true → leafAt s (pmovGpa s) 4 (s.vf (pmovVf s)).hroot = some (a, e, lvl) →
    (peMig e = true → peSt e = 0 → peerUp s (peDev e) = true → peerUp s (pmovTo s / 2 ^ 40) = true →
      ∃ t, exec .pageMove s = .next t ∧ t.page.pmovGo = true ∧ memRead t.mem (domAddr s.devNo a) 8 = natLe 8 (e + 64) ∧
        ∃ v ∈ t.agenda, v.ev = .pageMoveComplete ∧ s.gts < v.due ∧ v.arg.x = a ∧ v.arg.y = e ∧ v.arg.z = lvl) ∧
    (peMig e = false → ∃ t, exec .pageMove s = .next t ∧ SameBytes s t ∧ t.page.pmovGo = false ∧ t.page.pmovStatus = 1) ∧
    (peMig e = true → peSt e ≠ 0 → ∃ t, exec .pageMove s = .next t ∧ SameBytes s t ∧ t.page.pmovGo = false ∧ t.page.pmovStatus = 2)) ∧
  (∀ (s : State), leafAt s (pmovGpa s) 4 (s.vf (pmovVf s)).hroot = none →
    ∃ t, exec .pageMove s = .next t ∧ SameBytes s t ∧ t.page.pmovGo = false ∧ t.page.pmovStatus = 3) ∧
  (∀ (s : State), s.memWf = true →
    let size := 2 ^ lvlBits s.arg.z
    let dst := s.arg.l.getD 1 0 / size * size
    let leaf := domAddr s.devNo s.arg.x
    stillOut s (s.arg.l.drop 2) = [] → peDev s.arg.y = s.devNo → dst / 2 ^ 40 = s.devNo →
    ∃ t, exec .pageMoveComplete s = .next t ∧ t.page.pmovGo = false ∧ t.page.pmovStatus = 0 ∧
      memRead t.mem leaf 8 = natLe 8 (s.arg.y % 2 ^ 8 + dst % 2 ^ 40 + dst / 2 ^ 40 * 2 ^ 54) ∧
      ∀ i, i < size → (dst + i < leaf ∨ leaf + 8 ≤ dst + i) → t.byte (dst + i) = s.byte (domAddr (peDev s.arg.y) (peAddr s.arg.y) + i)) ∧
  (∀ (s : State), stillOut s (s.arg.l.drop 2) ≠ [] →
    ∃ t, exec .pageMoveComplete s = .next t ∧ SameBytes s t ∧ t.page = s.page ∧
      ∃ v ∈ t.agenda, v.ev = .pageMoveComplete ∧ s.gts < v.due ∧ v.arg = { s.arg with l := s.arg.l.take 2 ++ stillOut s (s.arg.l.drop 2) }) ∧
  (∀ (s : State), s.memWf = true → stillOut s (s.arg.l.drop 2) = [] → peerUp s (peDev s.arg.y) = false ∨ peerUp s (s.arg.l.getD 1 0 / 2 ^ lvlBits s.arg.z * 2 ^ lvlBits s.arg.z / 2 ^ 40) = false →
    ∃ t, exec .pageMoveComplete s = .next t ∧ t.page.pmovGo = false ∧ t.page.pmovStatus = 4 ∧
      memRead t.mem (domAddr s.devNo s.arg.x) 8 = natLe 8 s.arg.y ∧
      ∀ a, (a < domAddr s.devNo s.arg.x ∨ domAddr s.devNo s.arg.x + 8 ≤ a) → t.byte a = s.byte a) ∧
  (∀ (s : State), fld s.page.tlbihC 1 0 = 3 → ∃ t, exec .tlbih s = .next t ∧ SameBytes s t ∧ t.page.tlbihGo = false ∧ t.agenda = s.agenda) ∧
  (∀ (s : State), fld s.page.tlbihC 1 0 ≠ 3 →
    ∃ t, exec .tlbih s = .next t ∧ SameBytes s t ∧ t.page.tlbihGo = true ∧
      ∃ e ∈ t.agenda, e.ev = .tlbiCompletion ∧ s.gts < e.due ∧ e.arg.l = [] ∧ e.arg.y = fld s.page.tlbihC 15 0 ∧
        e.arg.z = s.page.tlbihA.toNat ∧ e.arg.u = fld s.page.tlbihC 21 16) ∧
  (∀ (s : State), s.arg.l = [] → s.arg.v = 0 →
    let used := ∃ r ∈ s.peerReqs, (invalOf s s.arg.y s.arg.z (some s.arg.u)).covers s r = true
    ∃ t, exec .tlbiCompletion s = .next t ∧ SameBytes s t ∧
      Forgets s t (s.arg.y % 4) (s.arg.y / 4 % 2) (s.arg.y / 16 % 4096)
        (if s.arg.y % 4 = 2 then s.arg.u else ownerVf s (s.arg.y / 16 % 4096)) s.arg.z ∧
      (¬used → t.page.tlbihGo = false) ∧
      (used → t.page.tlbihGo = s.page.tlbihGo ∧ ∃ e ∈ t.agenda, e.ev = .tlbiCompletion ∧ s.gts < e.due ∧ e.arg.v = 2)) ∧
  (∀ (s : State) (b j seq : Nat), s.arg.l = [b, j, seq] → s.arg.v = 0 → thas (s.blk b).groups j = true → earlierLeft s b j seq = false →
    let used := ∃ r ∈ s.peerReqs, (invalOf s s.arg.y s.arg.z none).covers s r = true
    ∃ t, exec .tlbiCompletion s = .next t ∧ (¬used → ∀ p ∈ (t.grp b j).pend, p.id ≠ s.arg.x) ∧
      (used → t.blks = s.blks ∧ ∃ e ∈ t.agenda, e.ev = .tlbiCompletion ∧ s.gts < e.due ∧ e.arg.v = 1 ∧ e.arg.l.take 2 = [b, j]) ∧
      ((∀ p ∈ (s.grp b j).pend, p.id = s.arg.x) → (∀ i, j < i → ∀ p ∈ (s.grp b i).pend, p.iss = 0) →
        Forgets s t (s.arg.y % 4) (s.arg.y / 4 % 2) (s.arg.y / 16 % 4096) (ownerVf s (s.arg.y / 16 % 4096)) s.arg.z)) ∧
  (∀ (s : State) (b j : Nat) (ks : List Nat), s.arg.l = b :: j :: ks → s.arg.v = 1 → thas (s.blk b).groups j = true → stillOut s ks = [] →
    ∃ t, exec .tlbiCompletion s = .next t ∧ ∀ p ∈ (t.grp b j).pend, p.id ≠ s.arg.x) ∧
  (∀ (s : State) (ks : List Nat), s.arg.l = ks → s.arg.v = 2 → stillOut s ks = [] →
    ∃ t, exec .tlbiCompletion s = .next t ∧ SameBytes s t ∧ t.page.tlbihGo = false) ∧
  ∀ (s : State), s.arg.x < 32 →
    let o := s.frrAt s.arg.x
    let n : Frr := { o with w0 := s.arg.v &&& 0xFFFF_FFFE_0000_FF81, w1 := o.s1 &&& 0x0000_00FF_FFFF_FF80,
                            w2 := o.s2 &&& 0x0000_00FF_FFFF_F000, w3 := o.s3 &&& 0x000F_FFFF_FFF0_0000, err := false }
    ∃ t, exec .frrCommit s = .next t ∧ SameBytes s t ∧
      (s.arg.v.getLsbD 0 = true → frrOk s s.arg.x n = false → t.frrAt s.arg.x = { o with err := true }) ∧
      (s.arg.v.getLsbD 0 = false ∨ frrOk s s.arg.x n = true → t.frrAt s.arg.x = n) ∧ ∀ k, k ≠ s.arg.x → t.frrAt k = s.frrAt k

namespace Sys2Proof.Claims

open Sys2Proof.Machine

/-- The command window of virtual function `n` names context `c` within its ids, and its command is due. -/
def Commands (s : State) (n c : Nat) : Prop :=
  s.arg.x = n ∧ s.arg.y = 0 ∧ n < 64 ∧ (s.vf n).en = true ∧ (s.vf n).cctx = c ∧ (s.vf n).idbase ≤ c ∧ c < (s.vf n).idbase + (s.vf n).idcnt

/-- The command of a window completes with a status within 5 µs (R148). -/
def CommandEnds (s t : State) (n status : Nat) : Prop :=
  ∃ e ∈ t.agenda, e.ev = .contextCommandComplete ∧ e.arg = { x := n, y := status } ∧ s.gts < e.due ∧ e.due ≤ s.gts + 5000

/-- The commands of the window, with the states that admit each (R152). -/
def commandForm : Instr → Option (CtxState → Bool)
  | .create => some (fun x => x == .free)
  | .activate => some (fun x => x == .created)
  | .suspend => some (fun x => x == .runnable || x == .running)
  | .resume => some (fun x => x == .suspended || x == .faulted)
  | .destroy => some (fun x => !(x == .free || x == .destroyed))
  | .migrate => some (fun x => x == .runnable || x == .running || x == .suspended)
  | _ => none

end Sys2Proof.Claims

/-! ### Contexts and virtual functions (06 R145 to R164; 08 R226, R227) -/

/-- A command of the window for a context that its VF may not name ends with status 2, and one whose context is in no state that admits it
with status 3; neither changes a context (R148, R152). CONTEXT_COMMAND_COMPLETE clears GO, sets STATUS and sends vector 0.
CREATE of a well-formed record whose image area is mapped makes a CREATED context on the record's terms; ACTIVATE makes it RUNNABLE.
SUSPEND and MIGRATE of a context with nothing on a core stop its dispatch and leave it SUSPENDED or MIGRATING, or FAULTED and held where its
image cannot be written; RESUME of a SUSPENDED one makes it RUNNABLE; DESTROY leaves it DESTROYED with no launch (R150 to R154). A destination
may refuse a MIGRATE (log 16), and one that does is barred (07 R193). A migration that ends leaves the source's context DESTROYED; one that is aborted returns it to its state before and bars the destination. -/
def Obligations.ContextCommandsAreCheckedAndChangeState : Prop :=
  ((∀ (i : Instr) (p : CtxState → Bool) (s : State) (n : Nat), commandForm i = some p → s.arg.x = n → s.arg.y = 0 → n < 64 →
    ((s.vf n).en = false ∨ (s.vf n).cctx < (s.vf n).idbase ∨ (s.vf n).idbase + (s.vf n).idcnt ≤ (s.vf n).cctx) →
    ∃ t, exec i s = .next t ∧ SameBytes s t ∧ t.ctxs = s.ctxs ∧ t.blks = s.blks ∧ CommandEnds s t n 2) ∧
  (∀ (i : Instr) (p : CtxState → Bool) (s : State) (n c : Nat), commandForm i = some p → Commands s n c → p (s.ctx c).st = false →
    ∃ t, exec i s = .next t ∧ SameBytes s t ∧ t.ctxs = s.ctxs ∧ t.blks = s.blks ∧ CommandEnds s t n 3) ∧
  ∀ (s : State), s.arg.x < 64 →
    ∃ t, exec .contextCommandComplete s = .next t ∧ SameBytes s t ∧ t.ctxs = s.ctxs ∧
      (t.vf s.arg.x).go = false ∧ (t.vf s.arg.x).status = s.arg.y ∧
      t.msix = if (s.vf s.arg.x).en then s.msix ++ [(s.arg.x, 0)] else s.msix) ∧
  (∀ (s u : State) (n c : Nat) (r : List Byte), Commands s n c → (s.ctx c).st = .free →
    readAt s (pageWalk s (ringCtx n c) ((s.vf n).carg % 2 ^ 48 / 64 * 64) aLOAD) (ringCtx n c) 64 aLOAD = .done r →
    ctxRecordBad r = false → imageMapped (newContext s n c r) c = true → writeHeader (newContext s n c r) c 0 = .done u →
    ∃ t, exec .create s = .next t ∧ CommandEnds s t n 0 ∧ (t.ctx c).st = .created ∧ (t.ctx c).vf = n ∧
      (t.ctx c).groot = recBits r 47 12 * 4096 ∧ (t.ctx c).imgva = recBits r 104 64 * 65536 ∧ (t.ctx c).imgsz = recBits r 143 128 ∧
      (t.ctx c).maxclu = recBits r 167 160 ∧ (t.ctx c).queues = [] ∧ (t.ctx c).slots = [] ∧ ∀ a, t.byte a = u.byte a) ∧
  (∀ (s : State) (n c : Nat), Commands s n c → (s.ctx c).st = .created →
    ∃ t, exec .activate s = .next t ∧ SameBytes s t ∧ CommandEnds s t n 0 ∧ (t.ctx c).st = .runnable ∧ (t.ctx c).noDispatch = false) ∧
  (∀ (s : State) (n c : Nat), Commands s n c → ((s.ctx c).st = .runnable ∨ (s.ctx c).st = .running) → residentBlocks s c = [] →
    ∃ t, exec .suspend s = .next t ∧ (t.ctx c).noDispatch = true ∧
      ((t.ctx c).st = .suspended ∨ (t.ctx c).st = .faulted ∧ (t.ctx c).held = true)) ∧
  (∀ (s : State) (n c : Nat), Commands s n c → (s.ctx c).st = .suspended →
    ∃ t, exec .resume s = .next t ∧ CommandEnds s t n 0 ∧ (t.ctx c).st = .runnable ∧ (t.ctx c).noDispatch = false) ∧
  (∀ (s : State) (n c : Nat), Commands s n c → (s.ctx c).st ≠ .free → (s.ctx c).st ≠ .destroyed →
    ∃ t, exec .destroy s = .next t ∧ CommandEnds s t n 0 ∧ (t.ctx c).st = .destroyed ∧ (t.ctx c).launches = []) ∧
  (∀ (s : State) (n c : Nat), Commands s n c → ((s.ctx c).st = .runnable ∨ (s.ctx c).st = .running ∨ (s.ctx c).st = .suspended) →
    let dest := (s.vf n).carg / 64 % 1024
    let barred (t : State) : Prop :=
      ∀ d, t.ctx d = if d = c then { s.ctx c with migBar := tset (s.ctx c).migBar dest s.mkt.count } else s.ctx d
    (lacksEvents s c dest = true → ∃ t, exec .migrate s = .next t ∧ barred t ∧ CommandEnds s t n 6) ∧
    (lacksEvents s c dest = false → residentBlocks s c = [] →
      ∃ t, exec .migrate s = .next t ∧ (destinationTakes s dest = false → barred t ∧ CommandEnds s t n 6) ∧
        (destinationTakes s dest = true → (t.ctx c).noDispatch = true ∧ (t.ctx c).before = (s.ctx c).st ∧ (t.ctx c).migDest = dest ∧
          ((t.ctx c).st = .migrating ∨ (t.ctx c).st = .faulted ∧ (t.ctx c).held = true)))) ∧
  (∀ (s : State), s.arg.y = 0 → (s.ctx s.arg.x).st = .migrating → (s.ctx s.arg.x).saving = false →
    ∃ t, exec .migrationComplete s = .next t ∧ SameBytes s t ∧ (t.ctx s.arg.x).st = .destroyed ∧ (t.ctx s.arg.x).launches = []) ∧
  ∀ (s : State), s.arg.y ≠ 1 → (s.ctx s.arg.x).st = .migrating →
    ∃ t, exec .migrationAborted s = .next t ∧
      tget 0 (t.ctx s.arg.x).migBar (s.ctx s.arg.x).migDest = s.mkt.count ∧
      (t.ctx s.arg.x).st = if (s.ctx s.arg.x).before = .suspended then .suspended else if holdsCluster s s.arg.x then .running else .runnable

/-- VFCFG is written as R145 has it, or refused with ERR and no other change (R146). The watchdog of a RUNNING context with work outstanding
and no stop held resets it once WDOG has passed without progress, and else looks again 1 ms later (08 R226); the reset's end leaves it
RUNNING or RUNNABLE (R152, 08 R227). At a period's boundary no energy counter falls, and the next boundary is due (R163). -/
def Obligations.FunctionsAndWatchdogsAct : Prop :=
  (∀ (s : State), s.arg.x < 64 → s.arg.y = 0 →
    let v : Vf := { s.vf s.arg.x with en := s.arg.v.getLsbD 0, idbase := fld s.arg.v 27 16, idcnt := fld s.arg.v 44 32,
                                      eper := max 1 (min 1000 (fld s.arg.v 63 48)) }
    (vfcfgRefused s s.arg.x v = true →
      ∃ t, exec .vfcfgWrite s = .next t ∧ SameBytes s t ∧ t.vf s.arg.x = { s.vf s.arg.x with err := true }) ∧
    (vfcfgRefused s s.arg.x v = false →
      ∃ t, exec .vfcfgWrite s = .next t ∧ SameBytes s t ∧ t.ctxs = s.ctxs ∧
        t.vf s.arg.x = { v with err := false, sharedAt := (t.vf s.arg.x).sharedAt, servedAt := (t.vf s.arg.x).servedAt } ∧
        (v.en = true → (s.vf s.arg.x).en = false → (t.vf s.arg.x).sharedAt = s.shared.drawn ∧ (t.vf s.arg.x).servedAt = s.shared.served) ∧
        (v.en = false ∨ (s.vf s.arg.x).en = true →
          (t.vf s.arg.x).sharedAt = (s.vf s.arg.x).sharedAt ∧ (t.vf s.arg.x).servedAt = (s.vf s.arg.x).servedAt))) ∧
  (∀ (s : State),
    let x := s.ctx s.arg.x
    x.st = .running → x.stops = [] → outstanding x = true → (s.vf x.vf).wdog ≠ 0 →
    ((s.vf x.vf).wdog * 1000000 ≤ s.gts - x.progress →
      ∃ t, exec .watchdogExpiry s = .next t ∧ (t.ctx s.arg.x).st = .faulted ∧ (t.ctx s.arg.x).resetting = true ∧
        (t.ctx s.arg.x).launches = [] ∧ ∃ e ∈ t.agenda, e.ev = .resetComplete ∧ e.arg = { x := s.arg.x } ∧ s.gts < e.due) ∧
    (s.gts - x.progress < (s.vf x.vf).wdog * 1000000 →
      ∃ t, exec .watchdogExpiry s = .next t ∧ t.ctxs = s.ctxs ∧
        ∃ e ∈ t.agenda, e.ev = .watchdogExpiry ∧ e.arg = s.arg ∧ e.due = s.gts + 1000000)) ∧
  (∀ (s : State), (s.ctx s.arg.x).st = .faulted → (s.ctx s.arg.x).held = false → (s.ctx s.arg.x).resetting = true →
    ∃ t, exec .resetComplete s = .next t ∧ (t.ctx s.arg.x).resetting = false ∧
      (t.ctx s.arg.x).st = if holdsCluster s s.arg.x then .running else .runnable) ∧
  ∀ (s : State), s.arg.x < 64 →
    ∃ t, exec .energyPeriodBoundary s = .next t ∧ SameBytes s t ∧ (∀ c, (s.ctx c).ctxen ≤ (t.ctx c).ctxen) ∧
      (s.vf s.arg.x).vfen ≤ (t.vf s.arg.x).vfen ∧
      ((s.vf s.arg.x).en = true → t.posted .energyPeriodBoundary { x := s.arg.x } = true)

/-! ### The market (07 R168 to R193) -/

/-- SEALING keeps the bids of RUNNABLE and RUNNING contexts, as they stood before its instant (01 R34), that have a quantity and a price, and
every grant is to a bid at no more than its price (R179, R183 to R186). PUBLICATION shows the price and FREE of each class and changes nothing else of the market but
the moves it begins (R179). At T each enabled purse pays what its VF's grants cost and gains its rate, and the next interval begins with its
timetable (R170, R172); a unit whose blocks have gone passes to its new holder, and no other unit changes with it (R181). A peer's prices replace
an older entry and expire after 64 intervals (R192). That the interval of its arrival is one of the 64 is
the model's choice (log 90). -/
def Obligations.MarketEventsClearAndSettle : Prop :=
  (∀ (s : State),
    ∃ t, exec .sealing s = .next t ∧ SameBytes s t ∧ t.ctxs = s.ctxs ∧
      (∀ b ∈ t.mkt.sealedBids, ((s.ctx b.1).st = .runnable ∨ (s.ctx b.1).st = .running) ∧ b.2.1 < 5 ∧
        b.2.2 = ((s.ctx b.1).bid b.2.1).before s.gts ∧ bidQty b.2.2.1 ≠ 0 ∧ bidPrice b.2.2.1 ≠ 0) ∧
      (∀ g ∈ t.mkt.grants, g.cls < 5 ∧ ∃ b ∈ t.mkt.sealedBids, b.1 = g.ctx ∧ b.2.1 = g.cls ∧ g.price ≤ bidPrice b.2.2.1) ∧
      t.mkt.results.length = 5) ∧
  (∀ (s : State), s.arg.x ≠ 1 → s.mkt.results ≠ [] →
    ∃ t, exec .publication s = .next t ∧ t.mkt = { s.mkt with published := true, moves := [], spots := t.mkt.spots } ∧
      (∀ k, k < 5 → tfind t.mkt.spots k = some { price := (s.mkt.results.getD k (0, 0)).1, free := (s.mkt.results.getD k (0, 0)).2, gts := s.gts }) ∧
      (s.ctxs = [] → s.blks = [] → s.mkt.moves = [] → SameBytes s t)) ∧
  (∀ (s : State), s.arg.x ≠ 1 → s.mkt.results = [] → ∃ t, exec .publication s = .next t ∧ t = s) ∧
  (∀ (s : State),
    ∃ t, exec .intervalBoundary s = .next t ∧ t.mkt.grants = [] ∧ t.mkt.published = false ∧ t.mkt.count = s.mkt.count + 1 ∧
      t.mkt.len = 250000 * (s.mkt.ilen + 1) ∧ t.mkt.t = (s.gts / t.mkt.len + 1) * t.mkt.len ∧
      (∃ e ∈ t.agenda, e.ev = .sealing ∧ e.due = t.mkt.t - 40000) ∧ (∃ e ∈ t.agenda, e.ev = .publication ∧ e.due = t.mkt.t - 20000) ∧
      (∃ e ∈ t.agenda, e.ev = .intervalBoundary ∧ e.due = t.mkt.t)) ∧
  (∀ (s : State) (n : Nat), n < 64 →
    let charge := s.mkt.grants.foldl (fun k g => if (s.ctx g.ctx).vf = n then k + g.price else k) 0
    let left := (s.vf n).bal + (s.vf n).refund - charge
    ∃ t, exec .intervalBoundary s = .next t ∧
      ((s.vf n).en = true → (t.vf n).refund = 0 ∧ (t.vf n).bal = min (left + (s.vf n).rate) (max left (s.vf n).cap)) ∧
      ((s.vf n).en = false → (t.vf n).refund = (s.vf n).refund ∧ (t.vf n).bal = (s.vf n).bal)) ∧
  (∀ (s : State),
    let x := s.mkt.unit s.arg.x s.arg.y
    s.arg.x < 5 → s.arg.y < 4096 → x.handover = true → unitBlocks s s.arg.x s.arg.y = [] →
    ∃ t, exec .handoverEnd s = .next t ∧
      t.mkt.unit s.arg.x s.arg.y = { x with holder := x.incoming, outgoing := none, incoming := none, handover := false } ∧
      (∀ k u, u < 4096 → (k ≠ s.arg.x ∨ u ≠ s.arg.y) → t.mkt.unit k u = s.mkt.unit k u) ∧
      (s.ctxs = [] → ∀ a, t.byte a = s.byte a)) ∧
  (∀ (s : State), s.arg.x < 5 → (s.mkt.unit s.arg.x s.arg.y).handover = false → ∃ t, exec .handoverEnd s = .next t ∧ t = s) ∧
  (∀ (s : State), s.arg.x < 576 → (∀ o, tfind s.mkt.peers s.arg.x = some o → o.stamp < s.arg.y) →
    ∃ t e, exec .priceExchangeReceived s = .next t ∧ SameBytes s t ∧ tfind t.mkt.peers s.arg.x = some e ∧ e.stamp = s.arg.y ∧
      e.received = s.mkt.count ∧ e.prices = s.arg.l.take 5 ∧ e.free = (s.arg.l.drop 5).take 5 ∧
      e.evav0 = BitVec.ofNat 64 (leNat (s.arg.data.take 8)) ∧ e.evav1 = BitVec.ofNat 64 (leNat ((s.arg.data.drop 8).take 8)) ∧
      ∀ d, d ≠ s.arg.x → tfind t.mkt.peers d = tfind s.mkt.peers d) ∧
  (∀ (s : State) (o : PeerPrice), s.arg.x < 576 → tfind s.mkt.peers s.arg.x = some o → s.arg.y ≤ o.stamp →
    ∃ t, exec .priceExchangeReceived s = .next t ∧ t = s) ∧
  ∀ (s : State) (e : PeerPrice), tfind s.mkt.peers s.arg.x = some e → e.received + 64 ≤ s.mkt.count →
    ∃ t, exec .peerPriceEntryExpiry s = .next t ∧ SameBytes s t ∧ tfind t.mkt.peers s.arg.x = none ∧
      ∀ d, d ≠ s.arg.x → tfind t.mkt.peers d = tfind s.mkt.peers d

/-! ### Queues and packets (08 R194 to R228) -/

namespace Sys2Proof.Claims

open Sys2Proof.Machine

/-- The event takes the packet at the ring's HEAD: the queue holds its lock and runs, and the packet is not one that was taken before. -/
def TakesHead (s : State) : Prop :=
  let k := (s.ctx s.arg.x).queue s.arg.y
  packetStands s s.arg.x s.arg.y s.arg.z = true ∧ k.again = [] ∧ k.ibuf = none ∧ k.entry k.head 0 = none ∧ k.head < 2 ^ 32 ∧ s.arg.u = 0

/-- The queue that an event names. -/
def theQueue (s : State) (e : Arg) : Queue := (s.ctx e.x).queue e.y

/-- The packet was taken and HEAD has passed it. -/
def Passed (s t : State) : Prop := (theQueue t s.arg).head = ((theQueue s s.arg).head + 1) % 2 ^ 32

/-- No packet at the place of HEAD before the event is incomplete. -/
def Ended (s t : State) : Prop := (theQueue t s.arg).entry (theQueue s s.arg).head 0 = none

/-- The context of the event writes no trace records. -/
def NoTrace (s : State) : Prop := (s.ctx s.arg.x).trbase.getLsbD 4 = false

end Sys2Proof.Claims

/-- A doorbell sets TAIL, or stops the queue with code 3 where it lies beyond the ring; an IDLE queue of a context that can run becomes READY
and its event is queued (R199). QCFG turns a queue on with its indices at 0, what it had taken before going on beside them (R198), or off; one that it may not change sets ERR (R195, R196). RETRY
and SKIP let a stopped queue go on, SKIP past the packet at HEAD (R223). A rafter takes the oldest event, and offers the packet at HEAD to
the event of its type (R201, R204). -/
def Obligations.QueueEventsServeTheQueue : Prop :=
  (∀ (s : State),
    let k := theQueue s s.arg
    let t0 := s.arg.v.toNat % 2 ^ 32
    k.st ≠ 0 → (s.ctx s.arg.x).st ≠ .free → (s.ctx s.arg.x).st ≠ .destroyed →
    ((t0 + 2 ^ 32 - k.ckpt) % 2 ^ 32 ≤ qSize k →
      ∃ t, exec .doorbell s = .next t ∧ SameBytes s t ∧ (theQueue t s.arg).tail = t0 ∧ (theQueue t s.arg).head = k.head ∧
        ((s.ctx s.arg.x).st = .running → k.st = 1 → t0 ≠ k.head → (theQueue t s.arg).st = 2 ∧ t.evq = s.evq ++ [(s.arg.x, s.arg.y)])) ∧
    (qSize k < (t0 + 2 ^ 32 - k.ckpt) % 2 ^ 32 → k.st ≠ 4 → k.st ≠ 5 →
      ∃ t, exec .doorbell s = .next t ∧ SameBytes s t ∧ (theQueue t s.arg).st = 4 ∧ (theQueue t s.arg).ecode = 3 ∧
        (theQueue t s.arg).tail = k.tail)) ∧
  (∀ (s : State),
    let k := theQueue s s.arg
    let v := qcfgBits s.arg.v
    (s.ctx s.arg.x).st ≠ .free →
    (13 ≤ fld v 7 4 → ∃ t, exec .qcfgWrite s = .next t ∧ SameBytes s t ∧ theQueue t s.arg = { k with cfg := k.cfg ||| 4 }) ∧
    (fld v 7 4 < 13 → k.cfg.getLsbD 0 = false → v.getLsbD 0 = true → k.st ≠ 5 →
      ∃ t, exec .qcfgWrite s = .next t ∧ SameBytes s t ∧ theQueue t s.arg = { cfg := v, st := 1, old := (theQueue t s.arg).old } ∧
        (theQueue t s.arg).old.map Taken.bytes = k.running.map Taken.bytes) ∧
    (fld v 7 4 < 13 → fld v 7 4 = fld k.cfg 7 4 → fld v 56 12 = fld k.cfg 56 12 → k.cfg.getLsbD 0 = true → v.getLsbD 0 = false → k.st ≠ 5 →
      ∃ t, exec .qcfgWrite s = .next t ∧ SameBytes s t ∧ (theQueue t s.arg).st = 0 ∧ (theQueue t s.arg).cfg = v)) ∧
  (∀ (i : Instr) (s : State),
    let k := theQueue s s.arg
    (i = .retry ∨ i = .skip) → k.st = 4 → k.fails = [] → k.ecode ≠ 3 → k.entry k.eidx k.eib = none → k.ibuf = none → k.eib = 0 →
    (∀ e ∈ k.taken, e.idx ≠ k.eidx) →
    ∃ t, exec i s = .next t ∧ SameBytes s t ∧ (theQueue t s.arg).st = 2 ∧ (theQueue t s.arg).ecode = 0 ∧
      t.evq = s.evq ++ [(s.arg.x, s.arg.y)] ∧
      (theQueue t s.arg).head = if i = .skip then (k.head + 1 + k.econt) % 2 ^ 32 else k.head) ∧
  (∀ (s : State) (c q : Nat) (r : List (Nat × Nat)), s.arg.y = 0 → s.evq = (c, q) :: r →
    ∃ t, exec .rafterEventTake s = .next t ∧ t.evq = r ∧ tget false t.rafters s.arg.x = false ∧
      (((s.ctx c).queue q).locked = true → ((t.ctx c).queue q).pending = true)) ∧
  ∀ (s : State) (c q : Nat) (bs : List Byte),
    let k := (s.ctx c).queue q
    s.arg.y = 1 → s.arg.z = 16 * c + q → q < 16 → k.locked = false → k.st = 2 → k.cfg.getLsbD 0 = true → (s.ctx c).st = .running →
    k.taken = [] → k.again = [] → k.ibuf = none → k.startOff = 0 → k.head < 2 ^ 32 → k.head ≠ k.tail →
    vread s c (qRing k + 64 * (k.head % qSize k)) 64 aLOAD 0 = .done bs → fieldsOk bs = true →
    1 + contSlots bs ≤ (k.tail + 2 ^ 32 - k.head) % 2 ^ 32 → takeBar s c q k.head 0 bs = none →
    ∃ t, exec .rafterEventTake s = .next t ∧ SameBytes s t ∧ ((t.ctx c).queue q).locked = true ∧
      ∃ e ∈ t.agenda, e.ev = packetEvent (pkType bs) ∧ e.due = s.gts ∧ e.arg.x = c ∧ e.arg.y = q ∧ e.arg.z = k.head ∧ e.arg.data = bs

/-- Packets taken at HEAD. LAUNCH starts its launch; FEED appends its record; FENCE and SIGNAL write their words, and a FENCE moves CKPT past
itself; MARK writes the GTS of its take; WAIT blocks the queue until its condition holds; INDIRECT opens its buffer; COPY enters the
copy engine; CANCEL flags its entry; DTLOAD installs its table (R205 to R214, R225).
A WAIT whose condition holds at an evaluation is complete; one whose condition does not hold is read again 2 µs later, and one whose
condition does not hold when its time is up stops its queue with code 8 (R208). -/
def Obligations.PacketsHaveTheirEffectAndWaitsAreReevaluated : Prop :=
  ((∀ (s u : State) (l : Launch) (n : Nat) (e : List Byte), TakesHead s →
    (s.ctx s.arg.x).launches.length < 64 → checkLaunch s s.arg.x s.arg.y s.arg.z s.arg.data = .ok l [(0, n, 0xFFFF, e)] u → l.parent = 0xFFFF →
    tfind (s.ctx s.arg.x).nodes 0xFFFF = none →
    ∃ t, exec .launchPacket s = .next t ∧ Passed s t ∧ (t.ctx s.arg.x).launch l.entry = l ∧ thas (t.ctx s.arg.x).launches l.entry = true) ∧
  (∀ (s : State), s.arg.u = 1 →
    ∃ t, exec .launchPacket s = .next t ∧ SameBytes s t ∧ (theQueue t s.arg).entry (keyIdx s.arg.z) (keyIb s.arg.z) = none) ∧
  (∀ (s : State) (n f : Nat) (fd : Feed), TakesHead s → feedOf s s.arg.x s.arg.data = some (n, f, fd) → s.arg.data.length = 64 →
    pk s.arg.data 35 35 = 1 → pk s.arg.data 36 36 = 0 → pk s.arg.data 159 144 = 1 → fd.recs.length < fd.depth → fd.sleepers = [] →
    ∃ t, exec .feedPacket s = .next t ∧ SameBytes s t ∧ Passed s t ∧ Ended s t ∧
      (t.feed s.arg.x n f).recs = fd.recs ++ [s.arg.data.drop 32]) ∧
  (∀ (s u w : State), TakesHead s →
    let va := pk s.arg.data 127 64
    vwrite s s.arg.x (va + 8) (natLe 24 (s.gts + s.arg.y * 2 ^ 96 + s.arg.x * 2 ^ 100)) aSTORE 0 (rafterSrc s) = .done u →
    vwrite u s.arg.x va (natLe 8 (pk s.arg.data 191 128)) aSTORE 0 (rafterSrc s) = .done w →
    ∃ t, exec .fencePacket s = .next t ∧ (∀ a, t.byte a = w.byte a) ∧ Passed s t ∧ Ended s t ∧
      (theQueue t s.arg).ckpt = ((theQueue s s.arg).head + 1) % 2 ^ 32 ∧ (theQueue t s.arg).iboff = 0) ∧
  (∀ (s w : State), TakesHead s → pk s.arg.data 33 32 = 0 →
    vwrite s s.arg.x (pk s.arg.data 127 64) (natLe 8 (pk s.arg.data 191 128)) aSTORE 0 (rafterSrc s) = .done w →
    ∃ t, exec .signalPacket s = .next t ∧ (∀ a, t.byte a = w.byte a) ∧ Passed s t ∧ Ended s t) ∧
  (∀ (s w : State) (bs : List Byte), TakesHead s → pk s.arg.data 33 32 = 1 →
    signalPeer s s.arg.x (pk s.arg.data 127 64) 13 (pk s.arg.data 191 128) = none →
    vread s s.arg.x (pk s.arg.data 127 64) 8 aATOM 0 = .done bs →
    vwrite s s.arg.x (pk s.arg.data 127 64) (natLe 8 ((leNat bs + pk s.arg.data 191 128) % 2 ^ 64)) aATOM 0 (rafterSrc s) = .done w →
    ∃ t, exec .signalPacket s = .next t ∧ (∀ a, t.byte a = w.byte a) ∧ Passed s t ∧ Ended s t) ∧
  (∀ (s w : State), TakesHead s → NoTrace s → pk s.arg.data 127 64 ≠ 0 →
    vwrite s s.arg.x (pk s.arg.data 127 64) (natLe 8 s.gts) aSTORE 0 (rafterSrc s) = .done w →
    ∃ t, exec .markPacket s = .next t ∧ (∀ a, t.byte a = w.byte a) ∧ Passed s t ∧ Ended s t) ∧
  (∀ (s : State), TakesHead s →
    ∃ t, exec .waitPacket s = .next t ∧ SameBytes s t ∧ (theQueue t s.arg).head = (theQueue s s.arg).head ∧ (theQueue t s.arg).st = 3 ∧
      (theQueue t s.arg).reason = 2 ∧ ∃ e ∈ t.agenda, e.ev = .waitReevaluation ∧ e.due = s.gts ∧ e.arg.z = s.arg.z) ∧
  (∀ (s : State), TakesHead s →
    ∃ t, exec .indirectPacket s = .next t ∧ SameBytes s t ∧
      (theQueue t s.arg).ibuf = some (pk s.arg.data 127 64, pk s.arg.data 159 128, (theQueue s s.arg).startOff)) ∧
  (∀ (s : State) (core : Nat), TakesHead s → packetCore s s.arg.x = some core →
    ∃ t o, exec .copyPacket s = .next t ∧ SameBytes s t ∧ Passed s t ∧
      (o ∈ t.engQ core 3 ∨ (3, o) ∈ (t.core core).entering) ∧ o.kind = .packet s.arg.x s.arg.y s.arg.z ∧ o.lrec = s.arg.data ∧ o.pos = 0) ∧
  (∀ (s : State), TakesHead s → pk s.arg.data 33 32 = 0 → pk s.arg.data 79 64 ≠ 0xFFFF →
    pk s.arg.data 79 64 < wrSize (s.ctx s.arg.x) → thas (s.ctx s.arg.x).launches (pk s.arg.data 79 64) = true →
    (tkeys (s.ctx s.arg.x).launches).Nodup →
    ∃ t, exec .cancelPacket s = .next t ∧ Passed s t ∧ Ended s t ∧
      (((t.ctx s.arg.x).launch (pk s.arg.data 79 64)).cnc = true ∨ thas (t.ctx s.arg.x).launches (pk s.arg.data 79 64) = false)) ∧
  (∀ (s : State), TakesHead s → canonicalAddr (pk s.arg.data 127 64) = false →
    ∃ t, exec .dtloadPacket s = .next t ∧ SameBytes s t ∧ (theQueue t s.arg).head = (theQueue s s.arg).head ∧ (theQueue t s.arg).st = 4 ∧
      (theQueue t s.arg).ecode = 9) ∧
  ∀ (s : State) (bs : List Byte), TakesHead s → canonicalAddr (pk s.arg.data 127 64) = true →
    vread s s.arg.x (pk s.arg.data 127 64) 2048 aLOAD 0 = .done bs →
    (∀ n, n < 1024 → entryOk (leNat ((bs.drop (2 * n)).take 2)) = true) →
    ∃ t, exec .dtloadPacket s = .next t ∧ SameBytes s t ∧ Passed s t ∧ Ended s t ∧
      ∀ n, n < 1024 → tget 0 (tget [] (t.ctx s.arg.x).slots (pk s.arg.data 34 32)) n = leNat ((bs.drop (2 * n)).take 2)) ∧
  (∀ (s : State) (e : Taken) (bs : List Byte),
    let k := theQueue s s.arg
    k.entry (keyIdx s.arg.z) (keyIb s.arg.z) = some e → pkType e.bytes = 4 → k.st = 3 → (openWait k).isSome = true → (s.ctx s.arg.x).st = .running →
    s.arg.u = 0 → vread s s.arg.x (pk e.bytes 191 128) 8 aLOAD 0 = .done bs →
    (waitHolds e.bytes (leNat bs) = true →
      ∃ t, exec .waitReevaluation s = .next t ∧ SameBytes s t ∧ (theQueue t s.arg).entry e.idx e.ib = none) ∧
    (waitHolds e.bytes (leNat bs) = false →
      ∃ t, exec .waitReevaluation s = .next t ∧ SameBytes s t ∧ theQueue t s.arg = k ∧
        ∃ v ∈ t.agenda, v.ev = .waitReevaluation ∧ v.due = s.gts + 2000 ∧ v.arg = s.arg)) ∧
  ∀ (s : State) (e : Taken) (bs : List Byte),
    let k := theQueue s s.arg
    k.entry (keyIdx s.arg.z) (keyIb s.arg.z) = some e → e.ib = 0 → pkType e.bytes = 4 → e.deadline = s.gts → k.st = 3 →
    (openWait k).isSome = true → hasFailed k e = false → (s.ctx s.arg.x).st = .running →
    vread s s.arg.x (pk e.bytes 191 128) 8 aLOAD 0 = .done bs → waitHolds e.bytes (leNat bs) = false →
    ∃ t, exec .waitTimeout s = .next t ∧ SameBytes s t ∧ (theQueue t s.arg).st = 4 ∧ (theQueue t s.arg).ecode = 8

/-! ### Dispatch, gating, exit and resumption (09 R241 to R244; 10 R267) -/

/-- A dispatch decision places the next block of the launch whose turn it is, with its groups' threads ACTIVE at the kernel's code (R241,
R242); a gang whose blocks all fit is placed whole (R239); a message that waits is placed first (13 R325); where nothing fits no block is
placed. An idle core is gated through its window and wakes again (R243). The exit of a block whose groups are all done, with nothing left to
write back, takes it off the device and counts it (R244). A saved block of no gang resumes where it fits, from what its image holds (R267). -/
def Obligations.BlocksAreDispatchedAndLeave : Prop :=
  (∀ (s : State) (n : Nat) (l : Launch) (p : Place), (s.ctx s.arg.x).st = .running → (s.ctx s.arg.x).noDispatch = false →
    (s.ctx s.arg.x).msgs = [] → (launchTurn (s.ctx s.arg.x)).head? = some (n, l) → l = (s.ctx s.arg.x).launch n → l.bco = false →
    findPlace s s.arg.x (launchNeed (s.ctx s.arg.x) l) = some p →
    ∃ t, exec .dispatchDecision s = .next t ∧ ((t.ctx s.arg.x).launch n).next = l.next + 1 ∧
      let k := t.blk s.nextId
      k.ctx = s.arg.x ∧ k.launch = some n ∧ k.index = l.next ∧ k.core = some p.core ∧ k.units = p.units ∧ k.acc = l.acc ∧ k.priv = l.priv ∧
      ∀ j, j < l.grps → ∀ m, m < 32 → (t.thr s.nextId j m).mode = .active ∧ (t.thr s.nextId j m).pc = BitVec.ofNat 48 l.code ∧
        (t.grp s.nextId j).rg 0 = BitVec.ofNat 32 l.next ∧ (t.grp s.nextId j).rg 6 = BitVec.ofNat 32 j) ∧
  (∀ (s u : State) (n : Nat) (l : Launch), (s.ctx s.arg.x).st = .running → (s.ctx s.arg.x).noDispatch = false →
    (s.ctx s.arg.x).msgs = [] → (launchTurn (s.ctx s.arg.x)).head? = some (n, l) → l = (s.ctx s.arg.x).launch n → l.bco = true →
    l.next < l.target → dispatchGang s s.arg.x n = some u →
    ∃ t, exec .dispatchDecision s = .next t ∧ ((t.ctx s.arg.x).launch n).next = l.target ∧
      ∃ k, ((t.ctx s.arg.x).launch n).chan = some k ∧ (s.chan k).holder = none ∧ (t.chan k).holder = some (s.arg.x, n)) ∧
  (∀ (s u : State) (m : QMsg) (ms : List QMsg), (s.ctx s.arg.x).st = .running → (s.ctx s.arg.x).noDispatch = false →
    (s.ctx s.arg.x).msgs = m :: ms → spawnMsg s s.arg.x m = some u →
    ∃ t, exec .dispatchDecision s = .next t ∧ (t.ctx s.arg.x).msgs = ms ∧ (t.blk s.nextId).sender = some m.sender ∧
      (t.blk s.nextId).ctx = s.arg.x ∧ (t.blk s.nextId).launch = none) ∧
  (∀ (s : State), (s.ctx s.arg.x).st = .running → (s.ctx s.arg.x).noDispatch = false → (s.ctx s.arg.x).msgs = [] →
    (∀ e ∈ launchTurn (s.ctx s.arg.x), dispatchFrom s s.arg.x e.1 = none) →
    ∃ t, exec .dispatchDecision s = .next t ∧ t.blks = s.blks) ∧
  (∀ (s : State), s.arg.x < 256 → coreBlocks s s.arg.x = [] → (s.core s.arg.x).idleSince + 10000 ≤ s.gts → (s.core s.arg.x).gate = 0 →
    ∃ t, exec .powerGatingBegin s = .next t ∧ SameBytes s t ∧ (t.core s.arg.x).gate = 1 ∧
      ∃ e ∈ t.agenda, e.ev = .gatingCommit ∧ e.due = s.gts + 32 ∧ e.arg = { x := s.arg.x }) ∧
  (∀ (s : State), s.arg.x < 256 → (s.core s.arg.x).gate = 1 →
    ∃ t, exec .gatingCommit s = .next t ∧ SameBytes s t ∧ t.blks = s.blks ∧ (t.core s.arg.x).gate = 2) ∧
  (∀ (s : State), s.arg.x < 256 →
    ∃ t, exec .coreWake s = .next t ∧ SameBytes s t ∧ (t.core s.arg.x).gate = 0 ∧ ∀ b ∈ coreBlocks s s.arg.x, (t.blk b).waking = false) ∧
  (∀ (s : State) (n : Nat), (s.blk s.arg.x).core = some n → (∀ j ∈ (s.blk s.arg.x).groupIds, (s.grp s.arg.x j).done = true) →
    blockBusy s s.arg.x = false → dirtyLines (s.blk s.arg.x) = [] → (∀ p ∈ (s.core n).xacqQ, p.1 ≠ s.arg.x) →
    ∃ t, exec .blockExit s = .next t ∧ thas t.blks s.arg.x = false ∧
      ∀ e, (s.blk s.arg.x).launch = some e →
        let c := (s.blk s.arg.x).ctx
        thas (s.ctx c).launches e = true → ((s.ctx c).launch e).count + 1 < ((s.ctx c).launch e).target →
        ((t.ctx c).launch e).count = ((s.ctx c).launch e).count + 1) ∧
  ∀ (s u : State) (p : Place),
    let k := s.blk s.arg.x
    thas s.blks s.arg.x = true → k.core = none → (∀ e, k.launch = some e → ((s.ctx k.ctx).launch e).bco = false ∧ ((s.ctx k.ctx).launch e).chanSaved = none) →
    (s.ctx k.ctx).st = .running → (s.ctx k.ctx).noDispatch = false →
    (s.ctx k.ctx).imgDue = false → findPlace s k.ctx (savedNeed k) = some p →
    readBack s k.ctx [s.arg.x] = .done u → findPlace u (u.blk s.arg.x).ctx (savedNeed (u.blk s.arg.x)) = some p →
    ∃ t, exec .blockResume s = .next t ∧ (t.blk s.arg.x).core = some p.core ∧ (t.blk s.arg.x).stopped = false ∧
      (t.blk s.arg.x).units = p.units

namespace Sys2Proof.Claims

/-- A training attempt of a port is under way and ends within 50 ms. -/
def Trying (s t : State) (p : Nat) : Prop := ∃ e ∈ t.agenda, e.ev = .trainingAttemptEnd ∧ e.arg.x = p ∧ e.due ≤ s.gts + 50000000

/-- An event is due in a state. -/
def Due (t : State) (ev : Instr) (due : Nat) : Prop := ∃ e ∈ t.agenda, e.ev = ev ∧ e.due = due

/-- A port carries flits: UP-SCALEUP, or DRAINING or DEGRADED in scale-up mode. -/
def TakesFlits (k : Port) : Prop := k.st = 2 ∨ ((k.st = 5 ∨ k.st = 4) ∧ k.mode = 0)

/-- The 256 bytes of a flit whose CRC-32C is that of its header and payload (R315). -/
def GoodFlit (bs : List Byte) : Prop := bs.length = 256 ∧ leNat ((bs.drop 244).take 4) = crc32c (bs.take 244)

/-- Only one group of a block has a pending result `p`, and no other group of an issue with it loads. -/
def OnlyPending (s : State) (r : PeerReq) (p : Pend) (a : Acc) : Prop :=
  r.waiter = none ∧ r.kind < 64 ∧ (s.grp r.blk r.j).sq = [] ∧ (∀ e ∈ (s.grp r.blk r.j).aside, e.id ≠ r.id) ∧ (s.grp r.blk r.j).pend = [p] ∧
    p.kind = .load ∧ p.id = r.id ∧ p.accs = [a] ∧ a.lane = r.lane ∧ ∀ i, r.j < i → ∀ q ∈ (s.grp r.blk i).pend, q.iss = 0

/-- The kinds and numbers of the registers that DACC can always name: w0 to w15, g0 to g15, p0 to p2, the PC. -/
def daccPlain (kind num : Nat) : Prop := (kind = 0 ∧ num < 16) ∨ (kind = 1 ∧ num < 16) ∨ (kind = 2 ∧ num < 3) ∨ kind = 3

/-- The kind, number and lane that DACC of a context names. -/
def dKind (s : State) (c : Nat) : Nat := fld (s.ctx c).dacc 23 20
def dNum (s : State) (c : Nat) : Nat := fld (s.ctx c).dacc 15 0
def dLane (s : State) (c : Nat) : Nat := fld (s.ctx c).dacc 33 29

/-- The level table of R481 and R482: pass count, and matrix ratio under the ceiling RCAP. -/
def levelPass (level : Nat) : Nat := min level 2
def levelRatio (level rcap : Nat) : Nat := min (if level ≤ 2 then 2 else if level = 3 then 1 else 0) (min rcap 2)

end Sys2Proof.Claims

/-! ### Ports and the link (13 R311 to R320; 01 R29, R33) -/

/-- The events of a port move it through its states (R312, R313): PORT_ENABLE leaves DOWN for TRAINING, PORT_DISABLE drains a port that is up
and takes one in TRAINING or FAILED down, RETRAIN trains a DEGRADED or FAILED port, PORT_DRAIN drains one that is up. An attempt with both
lanes brings it up in its mode, with one lane DEGRADED; the third that fails in a row makes it FAILED. A failed lane degrades the port, or
trains it again. DRAINING ends when nothing is outstanding, after 1 ms at the latest. -/
def Obligations.PortsChangeState : Prop :=
  (∀ (s : State), s.arg.x < 64 →
    ∃ t, exec .portEnable s = .next t ∧ SameBytes s t ∧ (t.port s.arg.x).en = true ∧
      ((s.port s.arg.x).st = 0 → (t.port s.arg.x).st = 1 ∧ Trying s t s.arg.x) ∧
      ((s.port s.arg.x).st ≠ 0 → t.port s.arg.x = { s.port s.arg.x with en := true })) ∧
  (∀ (s : State), s.arg.x < 64 →
    let st := (s.port s.arg.x).st
    ∃ t, exec .portDisable s = .next t ∧ SameBytes s t ∧ (t.port s.arg.x).en = false ∧
      (st = 2 ∨ st = 3 ∨ st = 4 → (t.port s.arg.x).st = 5 ∧ Due t .drainingEnd (s.gts + 1)) ∧
      (st = 1 ∨ st = 6 → (t.port s.arg.x).st = 0) ∧ (st = 0 ∨ st = 5 → (t.port s.arg.x).st = st)) ∧
  (∀ (s : State), s.arg.x < 64 →
    let st := (s.port s.arg.x).st
    (st = 4 ∨ st = 6 → ∃ t, exec .retrain s = .next t ∧ SameBytes s t ∧ (t.port s.arg.x).st = 1 ∧ Trying s t s.arg.x) ∧
    (st ≠ 4 → st ≠ 6 → exec .retrain s = .next s)) ∧
  (∀ (s : State), s.arg.x < 64 →
    let st := (s.port s.arg.x).st
    (st = 2 ∨ st = 3 ∨ st = 4 → ∃ t, exec .portDrain s = .next t ∧ SameBytes s t ∧ (t.port s.arg.x).st = 5 ∧ (t.port s.arg.x).drain = true ∧
      Due t .drainingEnd (s.gts + 1)) ∧
    (st ≠ 2 → st ≠ 3 → st ≠ 4 → exec .portDrain s = .next s)) ∧
  (∀ (s : State), s.arg.x < 64 → (s.port s.arg.x).st = 1 →
    let k := s.port s.arg.x
    let l0 := decide (s.arg.y = 1)
    let l1 := decide (s.arg.z = 1)
    ∃ t, exec .trainingAttemptEnd s = .next t ∧ SameBytes s t ∧
      let k' := t.port s.arg.x
      ((l0 || l1) = true → k'.l0 = l0 ∧ k'.l1 = l1 ∧ k'.valid = true ∧ k'.dev = s.arg.u % 1024 ∧
        k'.st = if l0 && l1 then (if k.mode = 0 then 2 else 3) else 4) ∧
      ((l0 || l1) = false → 2 ≤ k.fails → k'.st = 6) ∧
      ((l0 || l1) = false → k.fails < 2 → k'.st = 1 ∧ k'.fails = k.fails + 1 ∧ Trying s t s.arg.x)) ∧
  (∀ (s : State), s.arg.x < 64 →
    let k := s.port s.arg.x
    let used := if s.arg.y = 0 then k.l0 else k.l1
    (used = true → k.st = 2 ∨ k.st = 3 → ∃ t, exec .laneFailure s = .next t ∧ SameBytes s t ∧ (t.port s.arg.x).st = 4 ∧
      (t.port s.arg.x).l0 = (k.l0 && decide (s.arg.y ≠ 0)) ∧ (t.port s.arg.x).l1 = (k.l1 && decide (s.arg.y = 0))) ∧
    (used = true → k.st = 4 → ∃ t, exec .laneFailure s = .next t ∧ SameBytes s t ∧ (t.port s.arg.x).st = 1 ∧ Trying s t s.arg.x) ∧
    (used = false → exec .laneFailure s = .next s)) ∧
  ∀ (s : State), s.arg.x < 64 → (s.port s.arg.x).st = 5 →
    let k := s.port s.arg.x
    (portBusy s s.arg.x = false ∨ k.since + 1000000 ≤ s.gts →
      ∃ t, exec .drainingEnd s = .next t ∧ SameBytes s t ∧ (t.port s.arg.x).st = if k.en && k.drain then 1 else 0) ∧
    (portBusy s s.arg.x = true → s.gts < k.since + 1000000 →
      ∃ t, exec .drainingEnd s = .next t ∧ SameBytes s t ∧ t.ports = s.ports ∧
        ∃ e ∈ t.agenda, e.ev = .drainingEnd ∧ e.arg = { x := s.arg.x } ∧ s.gts < e.due ∧ e.due ≤ k.since + 1000000)

/-- Flits are delivered in sequence and once: the expected one is delivered, one that lies ahead or is not correctable has the expected one
asked for again, and a requested flit is sent again from the retry buffer with those after it (R315). What waits for a device that has become
unreachable fails with REMOTE (R314), and a message to it leaves the send queue. Where the home performs a request it does so in the order of
its source core, once; a duplicate gets the first outcome (R318 to R320), and a message becomes its arrival there. The first answer of a
request ends it. -/
def Obligations.LinkTrafficIsOrderedAndServedOnce : Prop :=
  (∀ (s : State), s.arg.x < 64 → TakesFlits (s.port s.arg.x) →
    let k := s.port s.arg.x
    let again := s.peerOut ++ [(2048 + s.arg.x, [13, k.rx], [])]
    let seq := leNat (s.arg.data.take 2) % 4096
    ∃ t, exec .flitReceived s = .next t ∧ SameBytes s t ∧ (t.port s.arg.x).fecc = min (k.fecc + s.arg.z) (2 ^ 32 - 1) ∧
      (¬GoodFlit s.arg.data → (t.port s.arg.x).got = k.got ∧ (t.port s.arg.x).rx = k.rx ∧ (t.port s.arg.x).fecu = min (k.fecu + 1) 65535 ∧
        t.peerOut = again) ∧
      (GoodFlit s.arg.data → seq = k.rx →
        (t.port s.arg.x).got = k.got ++ [(s.arg.data.drop 4).take 240] ∧ (t.port s.arg.x).rx = (k.rx + 1) % 4096 ∧ t.peerOut = s.peerOut) ∧
      (GoodFlit s.arg.data → seq ≠ k.rx → (t.port s.arg.x).got = k.got ∧ (t.port s.arg.x).rx = k.rx ∧
        ((seq + 4096 - k.rx) % 4096 < 2048 → t.peerOut = again) ∧ (2048 ≤ (seq + 4096 - k.rx) % 4096 → t.peerOut = s.peerOut))) ∧
  (∀ (s : State), s.arg.x < 64 → ¬TakesFlits (s.port s.arg.x) → exec .flitReceived s = .next s) ∧
  (∀ (s : State), s.arg.x < 64 →
    let k := s.port s.arg.x
    (∀ (a b : List (Nat × List Byte)) (f : Nat × List Byte), k.buf = a ++ f :: b → f.1 = s.arg.y % 4096 → (∀ g ∈ a, g.1 ≠ s.arg.y % 4096) →
      ∃ t, exec .linkRetryRequest s = .next t ∧ SameBytes s t ∧
        t.peerOut = s.peerOut ++ (f :: b).map (fun g => (2048 + s.arg.x, [14, g.1], g.2)) ∧
        t.port s.arg.x = { k with rtry := min (k.rtry + (b.length + 1)) 65535 }) ∧
    ((∀ g ∈ k.buf, g.1 ≠ s.arg.y % 4096) →
      ∃ t, exec .linkRetryRequest s = .next t ∧ SameBytes s t ∧ t.peerOut = s.peerOut ∧ (t.port s.arg.x).buf = k.buf)) ∧
  (∀ (s : State), s.arg.x < 576 → peerUp s s.arg.x = true → exec .deviceUnreachable s = .next s) ∧
  (∀ (s : State) (r : PeerReq) (p : Pend) (a : Acc), s.arg.x < 576 → peerUp s s.arg.x = false →
    s.peerReqs.filter (fun r => r.home == s.arg.x) = [r] → OnlyPending s r p a → a.cap = false →
    ∃ t, exec .deviceUnreachable s = .next t ∧ SameBytes s t ∧ t.peerReqs = s.peerReqs.filter (fun r => r.home != s.arg.x) ∧
      (t.grp r.blk r.j).pend = [{ p with accs := [{ a with st := 2, syn := 0, det := 0x0D }] }]) ∧
  (∀ (s : State) (r : PeerReq), s.arg.x < 576 → peerUp s s.arg.x = false →
    s.peerReqs.filter (fun r => r.home == s.arg.x) = [r] → r.kind = 64 →
    ∃ t, exec .deviceUnreachable s = .next t ∧ SameBytes s t ∧ t.peerReqs = s.peerReqs.filter (fun r => r.home != s.arg.x) ∧
      (t.core r.core).sendQ = (s.core r.core).sendQ.erase [r.blk, r.j, r.id]) ∧
  (∀ (s : State),
    let p := s.peerIn s.arg.x s.arg.y
    let pa := s.arg.l.getD 0 0
    let n := min (s.arg.l.getD 1 0) 128
    (∀ o ∈ p.outs, o.1 ≠ s.arg.z) → p.early = [] → s.arg.z = p.next →
    ∃ t, exec .peerRequestArrival s = .next t ∧ (t.peerIn s.arg.x s.arg.y).next = (p.next + 1) % 2 ^ 32 ∧
      (s.arg.u < 64 → peerRefused s pa n = true → SameBytes s t ∧ (t.peerIn s.arg.x s.arg.y).outs = p.outs ++ [(s.arg.z, true, [])]) ∧
      (peerRefused s pa n = false → s.arg.u = 0 →
        SameBytes s t ∧ (t.peerIn s.arg.x s.arg.y).outs = p.outs ++ [(s.arg.z, false, physRead s s.devNo pa n)]) ∧
      (peerRefused s pa n = false → s.arg.u = 1 → (∀ a, t.byte a = (physWrite s s.devNo pa (s.arg.data.take n)).byte a) ∧
        (t.peerIn s.arg.x s.arg.y).outs = p.outs ++ [(s.arg.z, false, [])]) ∧
      (peerRefused s pa n = false → 2 ≤ s.arg.u → s.arg.u < 64 →
        (t.peerIn s.arg.x s.arg.y).outs = p.outs ++ [(s.arg.z, false, physRead s s.devNo pa n)] ∧
        (∀ v, atomNew (s.arg.u - 2) (leNat (physRead s s.devNo pa n)) (leNat (s.arg.data.take 8)) (leNat (s.arg.data.drop 8)) = some v →
          ∀ a, t.byte a = (physWrite s s.devNo pa (natLe n v)).byte a)) ∧
      (s.arg.u = 64 → SameBytes s t ∧ (t.peerIn s.arg.x s.arg.y).outs = p.outs ++ [(s.arg.z, false, [])] ∧
        ∃ e ∈ t.agenda, e.ev = .messageArrival ∧ e.due = s.gts ∧ e.arg.x = s.arg.x ∧ e.arg.z = s.arg.y ∧ e.arg.data = s.arg.data)) ∧
  (∀ (s : State),
    let p := s.peerIn s.arg.x s.arg.y
    ((∃ o ∈ p.outs, o.1 = s.arg.z) → ∃ t, exec .peerRequestArrival s = .next t ∧ SameBytes s t ∧ t.peerIns = s.peerIns) ∧
    ((∀ o ∈ p.outs, o.1 ≠ s.arg.z) → (∀ r ∈ p.early, r.1 ≠ s.arg.z ∧ r.1 ≠ p.next) → s.arg.z ≠ p.next →
      ∃ t, exec .peerRequestArrival s = .next t ∧ SameBytes s t ∧ (t.peerIn s.arg.x s.arg.y).outs = p.outs ∧
        (t.peerIn s.arg.x s.arg.y).next = p.next)) ∧
  (∀ (s : State), (∀ r ∈ s.peerReqs, ¬(r.home = s.arg.x ∧ r.core = s.arg.y ∧ r.seq = s.arg.z)) → exec .peerResponseArrival s = .next s) ∧
  ∀ (s : State) (r : PeerReq) (p : Pend) (a : Acc),
    s.peerReqs.find? (fun r => r.home == s.arg.x && r.core == s.arg.y && r.seq == s.arg.z) = some r → s.arg.u = 0 → OnlyPending s r p a →
    ∃ t, exec .peerResponseArrival s = .next t ∧ SameBytes s t ∧ t.peerReqs = s.peerReqs.filter (fun q => q ≠ r) ∧
      (t.grp r.blk r.j).pend = [] ∧
      ∀ v ∈ loadRegs p s.arg.data, v.1 ∉ p.cancel → (t.thr r.blk r.j r.lane).rw v.1 = v.2

/-- PERR, PDISC and the NDISC of a send queue return their counts to the physical function and clear them (R311, R333); so does SERCNT (21
R478). To a virtual function, which is below their least privilege, they read as zero and keep their counts (00 R9, 01 R29). A host
write reaches plain memory but for a plane window of 03 R86, and a doorbell page as the event it is; control space takes it at 4 or 8 aligned
bytes alone, and nothing is taken from a device that a thermal trip has reset (01 R29, 08 R200, 21 R488). A host read of plain memory returns
its bytes. The host link trains to the rates and widths of R29. The first synchronisation takes the master's time, later ones are slewed
(R33). Each of these completes. That a host read ends this way, and how it names its function, is the model's choice (log 92). -/
def Obligations.HostAndTimeEventsAct : Prop :=
  (∀ (s : State), s.arg.x < 64 → s.arg.y = 0 → s.power.shut = false →
    let k := s.port s.arg.x
    ∃ t, exec .perrRead s = .next t ∧ SameBytes s t ∧ t.port s.arg.x = { k with fecc := 0, fecu := 0, rtry := 0 } ∧
      t.hostOut = s.hostOut ++ [(2 ^ 39 + 0x8_0000 + 64 * s.arg.x + 24, natLe 8 (k.rtry % 2 ^ 16 + k.fecu % 2 ^ 16 * 2 ^ 16 + k.fecc % 2 ^ 32 * 2 ^ 32))]) ∧
  (∀ (s : State), s.arg.x < 64 → s.arg.y = 0 → s.power.shut = false →
    let k := s.port s.arg.x
    ∃ t, exec .pdiscRead s = .next t ∧ SameBytes s t ∧ t.port s.arg.x = { k with ndisc := 0 } ∧
      t.hostOut = s.hostOut ++ [(2 ^ 39 + 0x8_0000 + 64 * s.arg.x + 32, natLe 8 (k.ndisc % 2 ^ 32))]) ∧
  (∀ (s : State), s.arg.x < 64 → s.arg.y = 0 → s.power.shut = false →
    let k := s.nsq s.arg.x
    ∃ t, exec .nsqNdiscRead s = .next t ∧ SameBytes s t ∧ t.nsq s.arg.x = { k with ndisc := 0 } ∧
      t.hostOut = s.hostOut ++ [(2 ^ 39 + 0x8_3000 + 64 * s.arg.x + 56, natLe 8 (bits k.cfg 479 448 + k.ndisc % 2 ^ 32 * 2 ^ 32))]) ∧
  (∀ (s : State), s.arg.y = 0 → s.power.shut = false →
    ∃ t, exec .sercntRead s = .next t ∧ SameBytes s t ∧ t.power = { s.power with corr := 0, unc := 0 } ∧
      t.hostOut = s.hostOut ++ [(2 ^ 39 + 0x6_0018,
        natLe 8 (s.power.corr % 2 ^ 32 * 2 ^ 32 + s.power.unc % 2 ^ 16 * 2 ^ 16 + s.power.fenced.length % 2 ^ 16))]) ∧
  (∀ (i : Instr) (a : Nat) (s : State), s.arg.x < 64 → 1 ≤ s.arg.y → s.arg.y ≤ 64 →
    (i, a) ∈ [(Instr.perrRead, 0x8_0000 + 64 * s.arg.x + 24), (.pdiscRead, 0x8_0000 + 64 * s.arg.x + 32),
      (.nsqNdiscRead, 0x8_3000 + 64 * s.arg.x + 56), (.sercntRead, 0x6_0018)] →
    exec i s = .next { s with hostOut := s.hostOut ++ [(2 ^ 39 + a, natLe 8 0)] }) ∧
  (∀ (s : State), s.arg.x ≤ 64 → s.power.tripped = true → exec .hostLinkWrite s = .next s) ∧
  (∀ (s : State), s.arg.x ≤ 64 → s.power.tripped = false → s.arg.u ≠ 1 → s.arg.y < 2 ^ 39 →
    (windowBars s 64 s.arg.y s.arg.data.length true = true → exec .hostLinkWrite s = .next s) ∧
    (windowBars s 64 s.arg.y s.arg.data.length true = false → s.memWf = true →
      ∃ t, exec .hostLinkWrite s = .next t ∧ (∀ i, i < s.arg.data.length → t.byte (domAddr s.devNo s.arg.y + i) = s.arg.data.getD i 0) ∧
        ∀ a, (a < domAddr s.devNo s.arg.y ∨ domAddr s.devNo s.arg.y + s.arg.data.length ≤ a) → t.byte a = s.byte a)) ∧
  (∀ (s : State), s.arg.x ≤ 64 → s.power.tripped = false → s.arg.u ≠ 1 → s.arg.y.testBit 39 = true →
    (s.arg.data.length ≠ 4 ∧ s.arg.data.length ≠ 8) ∨ s.arg.y % s.arg.data.length ≠ 0 → exec .hostLinkWrite s = .next s) ∧
  (∀ (s : State) (c q : Nat), s.arg.x = 64 → s.power.tripped = false → s.power.shut = false → s.arg.u ≠ 1 → c < 4096 → q < 16 →
    s.arg.y = 2 ^ 39 + 0x1000_0000 + 65536 * c + 4096 * q + 8 → s.arg.data.length = 8 →
    ∃ t, exec .hostLinkWrite s = .next t ∧ SameBytes s t ∧
      ∃ e ∈ t.agenda, e.ev = .doorbell ∧ e.due = s.gts ∧ e.arg = { x := c, y := q, v := BitVec.ofNat 64 (leNat s.arg.data) }) ∧
  (∀ (s : State), s.arg.x ≤ 64 → s.power.tripped = false → s.arg.u = 1 → s.arg.y < 2 ^ 39 → windowBars s s.arg.x s.arg.y s.arg.z false = false →
    s.badLines = [] →
    exec .hostLinkWrite s = .next { s with hostOut := s.hostOut ++ [(s.arg.y, physRead s s.devNo s.arg.y s.arg.z)] }) ∧
  (∀ (s : State),
    ∃ t, exec .hostLinkTraining s = .next t ∧ SameBytes s t ∧
      t.power = if s.arg.x ∈ [640, 320, 160, 80, 50, 25] ∧ s.arg.y ∈ [4, 2, 1] then { s.power with hostRate := s.arg.x, hostWidth := s.arg.y }
        else s.power) ∧
  ∀ (s : State),
    (s.devNo = 0 → exec .gtsSynchronisation s = .next s) ∧
    (s.devNo ≠ 0 → s.synced = false →
      ∃ t, exec .gtsSynchronisation s = .next t ∧ SameBytes s t ∧ t.synced = true ∧ t.gts = max s.gts s.arg.x) ∧
    (s.devNo ≠ 0 → s.synced = true → exec .gtsSynchronisation s = .next { s with slew := (s.arg.x : Int) - s.gts })

/-! ### Observation (20 R460 to R469; 06 R157, R158) -/

/-- A write of DBGCTL puts its bits in force, and with ARM 0 releases every stop; LOCK is written at hypervisor privilege alone, and a locked window takes nothing below it (R460, 00 R9).
DREL releases the group of the oldest stop, to run or to step (R463). DACC reads or writes a register of the held group it names, and with
no such group ends with status 1 (R465). -/
def Obligations.DebuggerEventsAct : Prop :=
  (∀ (s : State),
    let c := s.arg.x
    (debugLocked s c s.arg.y = true → exec .dbgctlWrite s = .next s) ∧
    (debugLocked s c s.arg.y = false → (∀ p ∈ (s.ctx c).stops, (s.blk p.blk).ctx = c) →
      ∃ t, exec .dbgctlWrite s = .next t ∧ SameBytes s t ∧ 
        (t.ctx c).dbgctl = (if 2 ≤ s.arg.y then s.arg.v &&& 0x10F else (s.arg.v &&& 0xF) ||| ((s.ctx c).dbgctl &&& 0x100)) ∧
        (s.arg.v.getLsbD 0 = false → (t.ctx c).stops = []) ∧ (s.arg.v.getLsbD 0 = true → s.arg.v.getLsbD 1 = true → t.blks = s.blks))) ∧
  (∀ (i : Instr) (s : State), i = .drelRun ∨ i = .drelStep →
    ((s.ctx s.arg.x).stops = [] → exec i s = .next s) ∧
    (∀ p r, (s.ctx s.arg.x).stops = p :: r →
      ∃ t, exec i s = .next t ∧ SameBytes s t ∧
        let g := t.grp p.blk p.j
        g.dbgStop = false ∧ g.dbgPass = true ∧ g.dbgStep = decide (i = .drelStep) ∧
        ∀ l, let o := s.thr p.blk p.j l
          let n := t.thr p.blk p.j l
          (o.held = false → n = o) ∧
          (o.held = true → n.held = false ∧ n.mode = (if o.mode = .trapped then .active else o.mode) ∧
            n.pc = if p.kind = 2 ∧ o.pc.toNat = p.pc then BitVec.ofNat 48 p.next else o.pc))) ∧
  (∀ (i : Instr) (s : State), i = .daccRead ∨ i = .daccWrite → daccGroup s s.arg.x = none →
    ∃ t, exec i s = .next t ∧ SameBytes s t ∧ t.blks = s.blks ∧ fld (t.ctx s.arg.x).dacc 63 48 % 2 ^ 14 = 1 ∧
      (t.ctx s.arg.x).dacc.getLsbD 63 = false) ∧
  (∀ (s : State) (b j : Nat),
    let c := s.arg.x
    let l := dLane s c
    let n := dNum s c
    daccGroup s c = some (b, j) → daccPlain (dKind s c) n →
    ∃ t, exec .daccRead s = .next t ∧ SameBytes s t ∧ t.blks = s.blks ∧ fld (t.ctx c).dacc 55 48 = 0 ∧
      (dKind s c = 0 → (t.ctx c).ddata = ((s.thr b j l).rw n).setWidth 64) ∧
      (dKind s c = 1 → (t.ctx c).ddata = ((s.grp b j).rg n).setWidth 64) ∧
      (dKind s c = 2 → (t.ctx c).ddata = if (s.thr b j l).rp n then 1 else 0) ∧
      (dKind s c = 3 → (t.ctx c).ddata = (s.thr b j l).pc.setWidth 64)) ∧
  ∀ (s : State) (b j : Nat),
    let c := s.arg.x
    let l := dLane s c
    let n := dNum s c
    let v := (s.ctx c).ddata
    daccGroup s c = some (b, j) → daccPlain (dKind s c) n → (dKind s c = 3 → v.toNat % 4 = 0 ∧ v.toNat < 2 ^ 48) →
    ∃ t, exec .daccWrite s = .next t ∧ SameBytes s t ∧ fld (t.ctx c).dacc 55 48 = 0 ∧
      (dKind s c = 0 → (t.thr b j l).rw n = loWord v ∧ ∀ r, r ≠ n → (t.thr b j l).rw r = (s.thr b j l).rw r) ∧
      (dKind s c = 1 → (t.grp b j).rg n = loWord v ∧ ∀ r, r ≠ n → (t.grp b j).rg r = (s.grp b j).rg r) ∧
      (dKind s c = 2 → (t.thr b j l).rp n = v.getLsbD 0 ∧ ∀ r, r ≠ n → (t.thr b j l).rp r = (s.thr b j l).rp r) ∧
      (dKind s c = 3 → (t.thr b j l).pc = v.setWidth 48) ∧
      ∀ m, m ≠ l → t.thr b j m = s.thr b j m

/-- A trace record of a selected event is written at the head of its ring, which moves on (R466, R467); one that is not selected leaves no
trace. A notice is written at the head of its ring, one for which there is no place is counted, and its MSI-X message is sent all the same
(06 R157, R158). A sample is written, or counted as dropped, and the countdown of its core is loaded again (R469, 22 R495). -/
def Obligations.RecordsEnterTheirRings : Prop :=
  (∀ (s : State), ((s.ctx s.arg.x).trbase.getLsbD 4 = false ∨ (s.ctx s.arg.x).trmask.toNat.testBit s.arg.y = false) →
    exec .traceRecordWrite s = .next s) ∧
  (∀ (s w : State) (va : Nat), (s.ctx s.arg.x).trbase.getLsbD 4 = true → (s.ctx s.arg.x).trmask.toNat.testBit s.arg.y = true →
    1 ≤ s.arg.y → s.arg.y ≤ 10 → s.gts ≤ s.arg.u + 8000 → (∀ r ∈ (s.ctx s.arg.x).rings, r.ring ≠ 2) → ringPlace (s.ctx s.arg.x) 2 = some va →
    vwrite s s.arg.x va (traceRec s.arg.u s.arg.z s.arg.y (s.arg.l.getD 0 0) (s.arg.l.getD 1 0) (s.arg.l.getD 2 0) false) aEWRITE 1 s.arg.z = .done w →
    ∃ t, exec .traceRecordWrite s = .next t ∧ (∀ a, t.byte a = w.byte a) ∧ (t.ctx s.arg.x).trhead = ((w.ctx s.arg.x).trhead + 1) % 2 ^ 20) ∧
  (∀ (s w : State) (va : Nat), 1 ≤ s.arg.y → s.arg.y ≤ 8 → (s.ctx s.arg.x).nmask.toNat.testBit s.arg.y = false →
    (∀ r ∈ (s.ctx s.arg.x).rings, r.ring ≠ 0) → ringPlace (s.ctx s.arg.x) 0 = some va →
    vwrite s s.arg.x va (noticeRec (s.arg.l.headD s.gts) s.arg.z s.arg.u s.arg.y) aEWRITE 1 s.arg.u = .done w →
    ∃ t, exec .noticeAppend s = .next t ∧ (∀ a, t.byte a = w.byte a) ∧ (t.ctx s.arg.x).nhead = ((w.ctx s.arg.x).nhead + 1) % 64) ∧
  (∀ (s : State), 1 ≤ s.arg.y → s.arg.y ≤ 8 → (s.ctx s.arg.x).nbase.getLsbD 0 = false → (∀ r ∈ (s.ctx s.arg.x).rings, r.ring ≠ 0) →
    ∃ t, exec .noticeAppend s = .next t ∧ SameBytes s t ∧ (t.ctx s.arg.x).ndrop = min ((s.ctx s.arg.x).ndrop + 1) (max (s.ctx s.arg.x).ndrop 65535) ∧
      ((s.ctx s.arg.x).nmask.toNat.testBit s.arg.y = true → (s.vf (s.ctx s.arg.x).vf).en = true →
        t.msix = s.msix ++ [((s.ctx s.arg.x).vf, s.arg.y)])) ∧
  (∀ (s : State), s.arg.x < 256 → coreHolder s s.arg.x = none → exec .sampleTake s = .next s) ∧
  (∀ (s : State) (c : Nat), s.arg.x < 256 → coreHolder s s.arg.x = some c → (s.ctx c).smpctl.getLsbD 0 = true → s.arg.y ≠ 1 →
    ∃ t, exec .sampleTake s = .next t ∧ SameBytes s t ∧
      (∃ e ∈ t.agenda, e.ev = .sampleTake ∧ e.due = s.gts + max ((s.ctx c).smpctl.toNat / 65536) 16 ∧ e.arg = { x := s.arg.x }) ∧
      ((s.ctx c).smpbase.getLsbD 4 = true → ∀ p, sampleGroup s (ownResidents s c s.arg.x) (s.core s.arg.x).smpSlot = some p →
        ∃ e ∈ t.agenda, e.ev = .sampleTake ∧ e.due = s.gts ∧ e.arg.x = s.arg.x ∧ e.arg.y = 1 ∧ e.arg.z = p.1 ∧ e.arg.u = p.2)) ∧
  ∀ (s : State) (c : Nat), s.arg.x < 256 → coreHolder s s.arg.x = some c → (s.ctx c).smpctl.getLsbD 0 = true → s.arg.y = 1 →
    (∀ r ∈ (s.ctx c).rings, r.ring ≠ 3) →
    (ringPlace (s.ctx c) 3 = none →
      ∃ t, exec .sampleTake s = .next t ∧ SameBytes s t ∧ (t.core s.arg.x).smpDrop = min ((s.core s.arg.x).smpDrop + 1) (2 ^ 32 - 1)) ∧
    ∀ va w, ringPlace (s.ctx c) 3 = some va →
      vwrite s c va (sampleRec s c s.arg.x s.arg.z s.arg.u (s.arg.l.getD 0 0) (s.arg.l.getD 1 0) (s.arg.l.getD 2 0) (s.arg.l.getD 3 0))
        aEWRITE 1 s.arg.x = .done w →
      ∃ t, exec .sampleTake s = .next t ∧ (∀ a, t.byte a = w.byte a) ∧ (t.core s.arg.x).smpDrop = 0

/-! ### Power, heat and trust (21 R477 to R490) -/

/-- SENSOR_SAMPLE takes the readings, and 120 °C trips the device (R477, R488). SUPPLY_UPDATE slews each powered supply by at most 50 mV in its 10 µs
(R480). An evaluation raises the level of a cluster above its limit and lowers that of one below it, and sets its pass count and ratio (R481,
R482), but while an excursion holds them, which sets every level to at least 2 for 1 ms (R483). POWER_UP powers one cluster, and the next
4 µs later (R485). A snapshot is 520 bytes at the host (R479). -/
def Obligations.PowerEventsAct : Prop :=
  (∀ (s : State),
    ∃ t, exec .sensorSample s = .next t ∧ SameBytes s t ∧
      (∀ n, n < 64 → (t.power.cl n).temp = Config.sensor n s.gts % 2 ^ 16 ∧ (t.power.cl n).pwr = Config.sensor (64 + n) s.gts % 2 ^ 12 ∧
        tempOf (t.power.cl n).temp ≤ tempOf t.power.tmax) ∧
      t.power.pwr = Config.sensor 128 s.gts % 2 ^ 16 ∧ Due t .sensorSample (s.gts + 1000) ∧
      (120 * 64 ≤ tempOf t.power.tmax → ∃ e ∈ t.agenda, e.ev = .thermalTrip) ∧
      (2100 < Config.sensor 129 s.gts → ∃ e ∈ t.agenda, e.ev = .powerExcursion)) ∧
  (∀ (s : State),
    ∃ t, exec .supplyUpdate s = .next t ∧ SameBytes s t ∧ Due t .supplyUpdate (s.gts + 10000) ∧
      ∀ n, n < 64 →
        let v := (s.power.cl n).vmv
        let p := supplyPoint (s.power.cl n) n
        ((s.power.cl n).powered = false → t.power.cl n = s.power.cl n) ∧
        ((s.power.cl n).powered = true → (t.power.cl n).vmv = (if v < p then min p (v + 50) else max p (v - 50)))) ∧
  (∀ (s : State),
    ∃ t, exec .throttleEvaluation s = .next t ∧ SameBytes s t ∧ Due t .throttleEvaluation (s.gts + 10000) ∧
      ∀ n, n < 64 →
        let k := s.power.cl n
        let k' := t.power.cl n
        k'.pass = levelPass k'.level ∧ k'.ratio = levelRatio k'.level k.rcap ∧
        (s.power.hold ≠ 0 → k'.level = k.level) ∧
        (s.power.hold = 0 → 64 * s.power.tlim < tempOf k.temp → k'.level = min 5 (k.level + 1)) ∧
        (s.power.hold = 0 → tempOf k.temp < 64 * (s.power.tlim - 2 : Int) → 100 * s.power.pwr < 95 * s.power.plim → k'.level = k.level - 1)) ∧
  (∀ (s : State),
    ∃ t, exec .powerExcursion s = .next t ∧ SameBytes s t ∧ t.power.hold = s.gts + 1000000 ∧ Due t .excursionHoldEnd (s.gts + 1000000) ∧
      ∀ n, n < 64 → (t.power.cl n).level = max 2 (s.power.cl n).level ∧ (t.power.cl n).pass = 2) ∧
  (∀ (s : State),
    ∃ t, exec .excursionHoldEnd s = .next t ∧ SameBytes s t ∧ t.power = { s.power with hold := if s.power.hold ≤ s.gts then 0 else s.power.hold }) ∧
  (∀ (s : State), s.arg.x < 64 →
    ∃ t, exec .powerUp s = .next t ∧ SameBytes s t ∧ (t.power.cl s.arg.x).powered = true ∧ (t.power.cl s.arg.x).since = s.gts ∧
      (s.arg.x < 63 → ∃ e ∈ t.agenda, e.ev = .powerUp ∧ e.due = s.gts + 4000 ∧ e.arg = { x := s.arg.x + 1 })) ∧
  ∀ (s : State),
    (s.power.tsnap.getLsbD 0 = false → exec .telemetrySnapshot s = .next s) ∧
    (s.power.tsnap.getLsbD 0 = true →
      ∃ t bs, exec .telemetrySnapshot s = .next t ∧ SameBytes s t ∧ t.hostOut = s.hostOut ++ [(s.power.tsnap.toNat / 512 * 512, bs)] ∧
        bs.length = 520 ∧ bs.take 8 = natLe 8 (ctrlValue s (.power 1)) ∧
        ∃ e ∈ t.agenda, e.ev = .telemetrySnapshot ∧ s.gts < e.due ∧ e.due ≤ s.gts + 1000000 * 2 ^ (s.power.tsnap.toNat / 2 % 8))

/-- A thermal trip loses every context and holds the device in reset, with MSI-X vector 0 of the physical function; a function-level reset
ends that and boots anew (R488). Soft errors are counted; an uncorrectable one marks the register, tile or line it hit, and the second of a
unit within an interval fences the unit (R486, R487). Boot records what was verified (R489). An attestation request is answered within 20 ms
by its report (R490). -/
def Obligations.TripsErrorsAndTrustEventsAct : Prop :=
  (∀ (s : State),
    ∃ t, exec .thermalTrip s = .next t ∧ SameBytes s t ∧ t.ctxs = [] ∧ t.blks = [] ∧ t.agenda = [] ∧ t.power.tripped = true ∧ t.power.trip = true ∧
      t.msix = s.msix ++ [(64, 0)] ∧ t.gts = s.gts) ∧
  (∀ (s : State),
    (s.power.tripped = false → exec .functionLevelReset s = .next s) ∧
    (s.power.tripped = true →
      ∃ t, exec .functionLevelReset s = .next t ∧ SameBytes s t ∧ t.ctxs = [] ∧ t.power.tripped = false ∧ t.power.trip = true ∧ t.gts = s.gts ∧
        Due t .boot s.gts ∧ Due t .powerUp s.gts)) ∧
  (∀ (s : State),
    ∃ t, exec .correctedSoftError s = .next t ∧ SameBytes s t ∧ t.power = { s.power with corr := min (s.power.corr + 1) (2 ^ 32 - 1) }) ∧
  (∀ (s : State), s.arg.u = 0 →
    ∃ t, exec .uncorrectableSoftError s = .next t ∧ (s.arg.x < 3 → SameBytes s t ∧ t.power.unc = min (s.power.unc + 1) (2 ^ 16 - 1)) ∧
      (s.arg.x = 0 → thas s.blks s.arg.y = true → thas (s.blk s.arg.y).groups s.arg.z = true →
        s.arg.l.getD 1 0 ∈ (t.thr s.arg.y s.arg.z (s.arg.l.getD 0 0)).bad) ∧
      (s.arg.x = 1 → thas s.blks s.arg.y = true → ((t.blk s.arg.y).tile s.arg.z).st = 3) ∧
      (s.arg.x = 2 → domAddr s.devNo (s.arg.y % 2 ^ 40) / 128 ∈ t.badLines) ∧
      (3 ≤ s.arg.x → (s.ctx s.arg.y).st = .running → (t.ctx s.arg.y).st = .faulted)) ∧
  (∀ (s : State) (key : Nat), s.arg.x = 2 → s.arg.u = key + 1 → 1 ≤ tget 0 s.power.errs key → s.power.fenced.contains key = false →
    ∃ t, exec .uncorrectableSoftError s = .next t ∧ t.power.fenced = s.power.fenced ++ [key] ∧
      (t.mkt.unit (key / 4096) (key % 4096)).withdrawn = true) ∧
  (∀ (s : State),
    let cfg := Config.bootVerified 0
    let mods := Config.bootVerified 1
    ∃ t, exec .boot s = .next t ∧ SameBytes s t ∧ t.power.booted = true ∧ t.power.shut = !(cfg && mods) ∧
      t.power.bootst = (if cfg then 1 else 0) + (if mods then 2 else 0)) ∧
  (∀ (s : State),
    ∃ t, exec .attestationRequest s = .next t ∧ SameBytes s t ∧ t.power.attGo = true ∧
      ∃ e ∈ t.agenda, e.ev = .attestationReportWritten ∧ s.gts < e.due ∧ e.due ≤ s.gts + 20000000) ∧
  ∀ (s : State), s.memWf = true →
    let addr := (tget 0 s.power.att 4).toNat / 4096 * 4096
    ∃ t bs, exec .attestationReportWritten s = .next t ∧ t.power.attGo = false ∧ bs.length = 3868 ∧
      (bs.drop 8).take 32 = (upto 4).flatMap (fun k => natLe 8 (tget 0 s.power.att k).toNat) ∧
      (bs.drop 40).take 96 = (upto 3).flatMap (fun k => natLe 32 (tget 0 s.power.meas k)) ∧
      (addr < 2 ^ 39 → (∀ i, i < bs.length → t.byte (domAddr s.devNo addr + i) = bs.getD i 0) ∧ t.hostOut = s.hostOut) ∧
      (2 ^ 39 ≤ addr → SameBytes s t ∧ t.hostOut = s.hostOut ++ [(addr, bs)])

/-! ### Registers of control space (00 R6) -/

/-- A write of a control-space register gives its writable fields their new value: the market's reserve prices and purse, the power limits
within their bounds, a cluster's ceiling, a port's MAC, the staged words of a format range, a breakpoint. A command written with GO starts,
and ends with status 2 where its VF is disabled (06 R148; 07 R169, R171; 13 R311; 21 R478, R482; 03 R84; 20 R460). -/
def Obligations.RegisterWritesTakeEffect : Prop :=
  (∀ (s : State) (n : Nat), n < 64 →
    let v := s.arg.v.toNat
    let purse := 2 ^ 39 + 0x3_1000 + 32 * n
    (s.arg.x = purse → ∃ t, exec .registerWrite s = .next t ∧ SameBytes s t ∧ t.vf n = { s.vf n with bal := v }) ∧
    (s.arg.x = purse + 8 → ∃ t, exec .registerWrite s = .next t ∧ SameBytes s t ∧ t.vf n = { s.vf n with rate := v }) ∧
    (s.arg.x = purse + 16 → ∃ t, exec .registerWrite s = .next t ∧ SameBytes s t ∧ t.vf n = { s.vf n with cap := v }) ∧
    (s.arg.x = purse + 24 → ∃ t, exec .registerWrite s = .next t ∧ SameBytes s t ∧ t.vf n = { s.vf n with migok := s.arg.v.getLsbD 1 }) ∧
    (s.arg.x = 2 ^ 39 + 0x6_1200 + 8 * n →
      ∃ t, exec .registerWrite s = .next t ∧ SameBytes s t ∧ t.power.cl n = { s.power.cl n with rcap := v % 4 }) ∧
    (s.arg.x = 2 ^ 39 + 0x8_0000 + 64 * n + 16 →
      ∃ t, exec .registerWrite s = .next t ∧ SameBytes s t ∧ t.port n = { s.port n with mac := v % 2 ^ 48 })) ∧
  (∀ (s : State), s.arg.x = 2 ^ 39 + 0x6_0000 →
    ∃ t, exec .registerWrite s = .next t ∧ SameBytes s t ∧ t.power =
      { s.power with plim := max 600 (min 1800 (s.arg.v.toNat / 2 ^ 16 % 2 ^ 12)), tlim := max 85 (min 105 (s.arg.v.toNat / 2 ^ 8 % 2 ^ 8)) }) ∧
  (∀ (s : State), s.arg.x = 2 ^ 39 + 0x3_0008 →
    ∃ t, exec .registerWrite s = .next t ∧ SameBytes s t ∧ t.mkt = { s.mkt with mcost := s.arg.v.toNat % 2 ^ 32 }) ∧
  (∀ (s : State) (k : Nat), k < 2 → s.arg.x = 2 ^ 39 + 0x3_0010 + 8 * k →
    ∃ t, exec .registerWrite s = .next t ∧ SameBytes s t ∧ tget 0x100 t.mkt.res (2 * k) = s.arg.v.toNat % 2 ^ 32 ∧
      tget 0x100 t.mkt.res (2 * k + 1) = s.arg.v.toNat / 2 ^ 32) ∧
  (∀ (s : State) (n : Nat), n < 32 →
    let o := s.frrAt n
    (s.arg.x = 2 ^ 39 + 0x10_0000 + 32 * n + 8 → ∃ t, exec .registerWrite s = .next t ∧ SameBytes s t ∧ t.frrAt n = { o with s1 := s.arg.v }) ∧
    (s.arg.x = 2 ^ 39 + 0x10_0000 + 32 * n + 16 → ∃ t, exec .registerWrite s = .next t ∧ SameBytes s t ∧ t.frrAt n = { o with s2 := s.arg.v }) ∧
    (s.arg.x = 2 ^ 39 + 0x10_0000 + 32 * n + 24 → ∃ t, exec .registerWrite s = .next t ∧ SameBytes s t ∧ t.frrAt n = { o with s3 := s.arg.v })) ∧
  (∀ (s : State) (c k : Nat), c < 4096 → 1 ≤ k → k ≤ 4 → s.arg.x = 2 ^ 39 + 0x2000_0000 + 256 * c + 8 * k →
    (debugLocked s c s.arg.y = true → exec .registerWrite s = .next s) ∧
    (debugLocked s c s.arg.y = false →
      ∃ t, exec .registerWrite s = .next t ∧ SameBytes s t ∧ tget 0 (t.ctx c).dbp (k - 1) = s.arg.v &&& 0xFFF8_FFFF_FFFF_FFFC)) ∧
  ∀ (s : State) (n : Nat), n < 64 → s.arg.x = 2 ^ 39 + 0x40_0000 + 4096 * n →
    let op := s.arg.v.toNat % 256
    ((s.vf n).go = true → exec .registerWrite s = .next s) ∧
    ((s.vf n).go = false → s.arg.v.getLsbD 63 = true →
      ∃ t, exec .registerWrite s = .next t ∧ SameBytes s t ∧
        t.vf n = { s.vf n with cctx := s.arg.v.toNat / 2 ^ 32 % 4096, cop := op, go := true } ∧
        ((s.vf n).en = false → ∃ e ∈ t.agenda, e.ev = .contextCommandComplete ∧ s.gts < e.due ∧ e.arg = { x := n, y := 2 }) ∧
        ((s.vf n).en = true →
          (op = 1 → t.posted .create { x := n } = true) ∧ (op = 2 → t.posted .activate { x := n } = true) ∧
          (op = 3 → t.posted .suspend { x := n } = true) ∧ (op = 4 → t.posted .resume { x := n } = true) ∧
          (op = 5 → t.posted .destroy { x := n } = true) ∧ (op = 6 → 2 ≤ s.arg.y → t.posted .migrate { x := n } = true) ∧
          (op = 0 ∨ 7 ≤ op ∨ (op = 6 ∧ s.arg.y < 2) →
            ∃ e ∈ t.agenda, e.ev = .contextCommandComplete ∧ s.gts < e.due ∧ e.arg = { x := n, y := 1 })))

/-! ### The machine (00 R5; 01 R34; 05 R118 to R123; 10 R252 to R254) -/

namespace Sys2Proof.Claims

/-- The machine at the turn of core `n`. -/
def issuingCore (s : State) (n : Nat) : State := { s with cur := {}, src := n, doing := none }

/-- The machine once the word at a PC has been fetched: the core keeps the translation (12 R295). -/
def fetched (s : State) (b j pc : Nat) : State := tlbKeep s (translate s (s.blk b).ctx (vaOf pc) aFETCH (s.grp b j).priv)

/-- A word of the native table as it is fetched at a PC. -/
def wordOf (pc : Nat) (w : BitVec 32) (i : Instr) : FWord := ⟨pc, w, some i, opField w, iopOf (opField w)⟩

/-- An issue of one word with its members, each at the PC after it and ACTIVE; that its group has come back to a rendezvous of its set holds for
this issue alone (10 R255). -/
def issueAt (s : State) (b j pc sc : Nat) (members : List (Nat × Nat)) (groups : List Nat) : State :=
  let joined := (s.grp b j).joined
  let s := s.updGrp b j (fun g => { g with joined := false })
  let s := { s with cur := { blk := b, j := j, head := BitVec.ofNat 48 pc, pc := BitVec.ofNat 48 pc, next := BitVec.ofNat 48 (pc + 4), sc := sc,
                             members := members, groups := groups, joined := joined } }
  s.foldl members (fun t m => t.updThr b m.1 m.2 (fun th => { th with pc := BitVec.ofNat 48 (pc + 4), mode := .active }))

/-- The state in which the word of that issue acts. -/
def wordAct (s : State) (w : BitVec 32) : State := { s with cur := { s.cur with op := opField w, iop := iopOf (opField w) } }

/-- What a step adds around the issue of group `j` of block `b` on core `n`, chosen among `es`: the caches meet what the issue `u` reads, the rules of
R121 and R252 follow, peer data the issue asked for is dropped, the other groups that could have issued have waited one fc more, and the next core has its turn; a
held issue leaves the choice of this fc open. -/
def afterChoice (u : State) (n b j : Nat) (es : List (Nat × Nat)) (marker : Bool) (w : FWord) (t : State) : State :=
  let t := dropGot (afterIssue (touchIssue u t [w]) b j marker (u.grp b j).hm) none (some (b, j))
  if t.cur.verdict = 7 then { t with turn := n }
  else
    let t := (es.filter (fun p => p ≠ (b, j))).foldl (fun t q => t.updGrp q.1 q.2 (fun g => { g with waitc := g.waitc + 1 })) t
    { (t.updCore n (fun k => { k with chosen := some (u.gts, b, j), elig := (u.gts, es) })) with turn := n + 1 }

/-- Core `n` comes next, nothing on the agenda is due, no repetition of a REP is due on it, and its chosen group is `j` of block `b`: no stop or
single step of the debugger is due in it, and it decodes the native table. -/
def Chosen (s : State) (n b j : Nat) : Prop :=
  (∀ e, firstEvent s.agenda = some e → e.due ≤ s.gts → eventFirst s e = false) ∧ nextCore s = some n ∧ repReady (issuingCore s n) n = none ∧
  chooseGroup (issuingCore s n) (eligible (issuingCore s n) n) = some (b, j) ∧
  (s.grp b j).stepDue = none ∧ (s.ctx (s.blk b).ctx).dbgctl.getLsbD 0 = false ∧ (s.grp b j).sel = 0

/-- A group fetches a word at a PC, and no word of its packet is waited for (05 R118, 12 R298). -/
def WordAt (s : State) (b j pc : Nat) (w : BitVec 32) : Prop :=
  let u := { s with cur := { blk := b, j := j } }
  fetchWord u (s.blk b).ctx (s.grp b j).priv pc = .word w ∧
  ∀ k stage need, k < 3 → fetchWord u (s.blk b).ctx (s.grp b j).priv (pc / 12 * 12 + 4 * k) ≠ .wait stage need

end Sys2Proof.Claims

/-- Where the bytes at the PC of a group's issue set are a word that decodes to an instruction, stands alone in its issue, and meets none of
the traps of R122 items 1 to 5, the step is that instruction for the threads of the issue set; at a wider scope, for the members of the
scope, once all are parked there at that PC (R118, R120, R253, R254); a RETT in a handler gathers the handler's threads (19 R450). -/
def Obligations.StepRunsTheDecodedWord : Prop :=
  ∀ (s : State) (n b j l0 : Nat) (ls : List Nat) (w : BitVec 32) (i : Instr),
    let s0 := issuingCore s n
    let pc := (s.thr b j l0).pc.toNat
    let sc := (wordInfo i).sc
    let es := (eligible s0 n).filter (fun q => decide (q = (b, j)) || !wouldHold s0 q)
    let f := wordOf pc w i
    let s1 := fetched s0 b j pc
    Chosen s n b j → issueSet (s.grp b j) = l0 :: ls → WordAt s0 b j pc w → decode w = .ok i → w.getLsbD 31 = false → (∀ f, i ≠ .rep f) →
    (sc = 0 →
      let u := issueAt s1 b j pc 0 ((l0 :: ls).map (fun l => (j, l))) [j]
      staticIssueTrap u [f] = none → ∀ t, exec i (wordAct u w) = .next t → step s = .next (afterChoice u n b j es (w.getLsbD 30) f t)) ∧
    (sc ≠ 0 →
      let psc := if (s.grp b j).hm && isRett i then 4 else sc
      let p := s1.foldl (l0 :: ls) (fun t l => t.updThr b j l (fun th => { th with mode := .parked, psc := psc }))
      let js := scopeGroups (p.blk b) j psc
      let u := issueAt p b j pc sc (scopeMembers (p.blk b) js psc) js
      canRendezvous (p.blk b) js psc = true → staticIssueTrap u [f] = none →
      ∀ t, exec i (wordAct u w) = .next t → step s = .next (afterChoice u n b j es (w.getLsbD 30) f t))

/-- The event that comes first in the order of GTS, source number and unit is the one a step performs once it is due and precedes the next
issue, under the source it came from; with nothing due and no group to issue, a nanosecond goes by (00 R5, 01 R33, R34). -/
def Obligations.StepPerformsTheEventThatIsDue : Prop :=
  (∀ (l : List Event) (e : Event), firstEvent l = some e → e ∈ l ∧ ∀ f ∈ l, e.due < f.due ∨ (e.due = f.due ∧ e.key ≤ f.key)) ∧
  (∀ (s : State) (e : Event), firstEvent s.agenda = some e → e.due ≤ s.gts → eventFirst s e = true →
    let u := { s with agenda := s.agenda.erase e, arg := e.arg, src := e.src, doing := some e.ev }
    (∀ t, exec e.ev u = .next t → step s = .next (dropGot t (some (e.ev, e.arg)) none)) ∧
    ((∀ t, exec e.ev u ≠ .next t) → step s = exec e.ev u)) ∧
  ∀ (s : State), (∀ e ∈ s.agenda, s.gts < e.due) → nextCore s = none → s.slew = 0 →
    ∃ t, step s = .next t ∧ SameBytes s t ∧ t.gts = s.gts + 1 ∧ t.turn = 0 ∧ t.blks = s.blks ∧ t.agenda = s.agenda

/-- Words written out from the encodings of the manual decode to the instructions they stand for (05 R125 to R127 and the chapters' own
words). -/
def Obligations.DecodedWords : Prop :=
  decode 0x0203_0840 = .ok (.psetk 0 ⟨false, false, 0, 3, 1, 1, 0⟩) ∧
  decode 0x19A1_2080 = .ok (.stG 2 ⟨false, false, 0, 1, 4, 2, 0⟩) ∧
  decode 0x5843_2A82 = .ok (.ldG 4 ⟨false, true, 0, 3, 5, 10, 2⟩) ∧
  decode 0x0013_FFF3 = .ok (.bra ⟨false, false, 0, -13⟩) ∧
  decode 0x8405_9045 = .ok (.add ⟨true, false, 1, 1, true, 4, 2, 5⟩) ∧
  decode 0x05FC_C012 = .ok (.movk ⟨false, false, 3, 6, 0x12⟩) ∧
  decode 0x4CC3_1847 = .ok (.ffma 0 ⟨false, true, 0, 3, false, 6, 2, 7⟩) ∧
  decode 0x00D7_0020 = .ok (.voteAny ⟨false, false, 1, 3, false, 0, 1, 0⟩) ∧
  decode 0x283F_1848 = .ok (.bsync ⟨false, false, 3, 3, false, 6, 2, 8⟩) ∧
  decode 0x2477_1843 = .ok (.sdecl ⟨false, false, 1, 3, false, 6, 2, 3⟩) ∧
  decode 0x6C0B_08C8 = .ok (.tmma ⟨false, true, 2, 3, false, 2, 6, 8⟩) ∧
  decode 0x3093_0003 = .ok (.qfence ⟨false, false, 0, 3, 0, 0, 3⟩) ∧
  decode 0x3187_10C8 = .ok (.bidset ⟨false, false, 1, 3, false, 4, 6, 8⟩) ∧
  decode 0x3103_10C8 = .ok (.amsg ⟨false, false, 0, 3, false, 4, 6, 8⟩) ∧
  decode 0x3403_3033 = .ok (.mfs ⟨false, false, 0, 3, 6, 0x33⟩) ∧
  decode 0x173B_21A0 = .ok (.lxor ⟨false, false, 2, 3, 4, 6, 32⟩) ∧
  decode 0x342C_0007 = .ok (.trap ⟨false, false, 3, 0, 7⟩)

/-- No step leaves either byte store outside its canonical form: addresses strictly rising, and no entry with the value of an unlisted
byte. -/
def Obligations.StepKeepsMemoryCanonical : Prop := ∀ (s t : State), s.memWf = true → step s = .next t → t.memWf = true

/-- After reset the registers read the values that the manual's tables give: EPER 100 and the rest of VFCFG 0 (06 R145), WDOG 500 (08 R226),
MKTCFG with ILEN 3, MIGTHR at its largest and every reserve price 0x100 (07 R171), purses 0 (R169), PWRCFG with PLIM 1800 and TLIM 105, RATIO
and RCAP 2 (21 R478, R482), ports DOWN (13 R311), send queues and format ranges 0 (R333, 03 R84); every context is FREE (06 R147) and every
queue DISABLED (08 R195). That both byte stores list nothing is the model's choice (log 1). -/
def Obligations.ResetState : Prop :=
  let s := State.reset
  s.memWf = true ∧ s.mem = [] ∧ s.sram = [] ∧
  (∀ n, ctrlValue s (.vfcfg n 0) = 100 * 2 ^ 48 ∧ ctrlValue s (.window n 3) = 500 ∧ ctrlValue s (.purse n 0) = 0 ∧ ctrlValue s (.purse n 1) = 0 ∧
    ctrlValue s (.purse n 2) = 0 ∧ ctrlValue s (.purse n 3) = 0) ∧
  ctrlValue s (.mktcfg 0) = 3 + (2 ^ 32 - 1) * 2 ^ 32 ∧ ctrlValue s (.mktcfg 1) = 0 ∧ ctrlValue s (.mktcfg 2) = 0x100 + 0x100 * 2 ^ 32 ∧
  ctrlValue s (.mktcfg 3) = 0x100 + 0x100 * 2 ^ 32 ∧ ctrlValue s (.mktcfg 4) = 0x100 ∧
  ctrlValue s (.power 0) = 1800 * 2 ^ 16 + 105 * 2 ^ 8 ∧ (∀ n, (s.power.cl n).ratio = 2 ∧ ctrlValue s (.clcap n) = 2) ∧
  (∀ p w, ctrlValue s (.port p w) = 0) ∧ (∀ n w, ctrlValue s (.nsq n w) = 0) ∧ (∀ n w, ctrlValue s (.frr n w) = 0) ∧
  ∀ c q, (s.ctx c).st = .free ∧ ctrlValue s (.door c q 0) = 0 ∧ ctrlValue s (.door c q 4) % 16 = 0
end

