-- ==== Sys2Proof/Laws/Tab.lean ====
section
/-!
SUPPORT. Tables: reading after a change, for the same key and for another one.
-/

namespace Sys2Proof.Machine

variable {α : Type}

@[simp] theorem tfind_tset_self (t : Tab α) (k : Nat) (v : α) : tfind (tset t k v) k = some v := by
  induction t with
  | nil => simp [tset, tfind]
  | cons e t ih =>
    obtain ⟨i, u⟩ := e
    by_cases h : i = k <;> simp [tset, tfind, h, ih]

theorem tfind_tset_of_ne (t : Tab α) {k n : Nat} (v : α) (h : n ≠ k) : tfind (tset t k v) n = tfind t n := by
  induction t with
  | nil => simp [tset, tfind, h.symm]
  | cons e t ih =>
    obtain ⟨i, u⟩ := e
    by_cases hk : i = k
    · subst hk; simp [tset, tfind, h.symm]
    · by_cases hn : i = n <;> simp [tset, tfind, hk, hn, ih, h]

@[simp] theorem tget_tset_self (d : α) (t : Tab α) (k : Nat) (v : α) : tget d (tset t k v) k = v := by
  simp [tget]

theorem tget_tset_of_ne (d : α) (t : Tab α) {k n : Nat} (v : α) (h : n ≠ k) : tget d (tset t k v) n = tget d t n := by
  simp [tget, tfind_tset_of_ne t v h]

/-- A read after a change of one key. -/
theorem tget_tset (d : α) (t : Tab α) (k n : Nat) (v : α) : tget d (tset t k v) n = if n = k then v else tget d t n := by
  by_cases h : n = k
  · simp [h]
  · simp [h, tget_tset_of_ne d t v h]

@[simp] theorem tget_nil (d : α) (k : Nat) : tget d ([] : Tab α) k = d := rfl

/-- A change of every entry reaches a key that is present, and leaves an absent one absent. -/
theorem tfind_tmap (f : Nat → α → α) (t : Tab α) (k : Nat) : tfind (tmap f t) k = (tfind t k).map (f k) := by
  induction t with
  | nil => simp [tmap, tfind]
  | cons e t ih =>
    obtain ⟨i, u⟩ := e
    by_cases h : i = k
    · subst h; simp [tmap, tfind]
    · simpa [tmap, tfind, h] using ih

theorem tfind_tdel (t : Tab α) (k n : Nat) : tfind (tdel t k) n = if n = k then none else tfind t n := by
  induction t with
  | nil => simp [tdel, tfind]
  | cons e t ih =>
    obtain ⟨i, u⟩ := e
    simp only [tdel, ne_eq, decide_not] at ih ⊢
    by_cases hi : i = k
    · subst hi
      by_cases hn : n = i
      · subst hn; simpa using ih
      · simp [ih, hn, tfind, Ne.symm hn]
    · by_cases hn : i = n
      · subst hn; simp [hi, tfind]
      · simp [hi, tfind, hn, ih]

end Sys2Proof.Machine
end

