-- ==== Sys2Proof/Laws/Cache.lean ====
section
/-!
SUPPORT. What the caches leave alone: a change of the caches keeps everything but the caches, the sessions and the served requests of contexts, and
a translation that is kept changes the translation caches alone.
-/

namespace Sys2Proof.Machine

/-! ### A change of the caches -/

variable (s : State) (k : Caches)

@[simp] theorem State.withCaches_gts : (s.withCaches k).gts = s.gts := rfl
@[simp] theorem State.withCaches_synced : (s.withCaches k).synced = s.synced := rfl
@[simp] theorem State.withCaches_slew : (s.withCaches k).slew = s.slew := rfl
@[simp] theorem State.withCaches_slewHeld : (s.withCaches k).slewHeld = s.slewHeld := rfl
@[simp] theorem State.withCaches_devNo : (s.withCaches k).devNo = s.devNo := rfl
@[simp] theorem State.withCaches_mem : (s.withCaches k).mem = s.mem := rfl
@[simp] theorem State.withCaches_badLines : (s.withCaches k).badLines = s.badLines := rfl
@[simp] theorem State.withCaches_sram : (s.withCaches k).sram = s.sram := rfl
@[simp] theorem State.withCaches_frr : (s.withCaches k).frr = s.frr := rfl
@[simp] theorem State.withCaches_noPort : (s.withCaches k).noPort = s.noPort := rfl
@[simp] theorem State.withCaches_vfs : (s.withCaches k).vfs = s.vfs := rfl
@[simp] theorem State.withCaches_blks : (s.withCaches k).blks = s.blks := rfl
@[simp] theorem State.withCaches_cores : (s.withCaches k).cores = s.cores := rfl
@[simp] theorem State.withCaches_mkt : (s.withCaches k).mkt = s.mkt := rfl
@[simp] theorem State.withCaches_page : (s.withCaches k).page = s.page := rfl
@[simp] theorem State.withCaches_ports : (s.withCaches k).ports = s.ports := rfl
@[simp] theorem State.withCaches_routes : (s.withCaches k).routes = s.routes := rfl
@[simp] theorem State.withCaches_nsqs : (s.withCaches k).nsqs = s.nsqs := rfl
@[simp] theorem State.withCaches_peerSeq : (s.withCaches k).peerSeq = s.peerSeq := rfl
@[simp] theorem State.withCaches_peerReqs : (s.withCaches k).peerReqs = s.peerReqs := rfl
@[simp] theorem State.withCaches_peerIns : (s.withCaches k).peerIns = s.peerIns := rfl
@[simp] theorem State.withCaches_peerGot : (s.withCaches k).peerGot = s.peerGot := rfl
@[simp] theorem State.withCaches_chans : (s.withCaches k).chans = s.chans := rfl
@[simp] theorem State.withCaches_power : (s.withCaches k).power = s.power := rfl
@[simp] theorem State.withCaches_incoming : (s.withCaches k).incoming = s.incoming := rfl
@[simp] theorem State.withCaches_evq : (s.withCaches k).evq = s.evq := rfl
@[simp] theorem State.withCaches_rafters : (s.withCaches k).rafters = s.rafters := rfl
@[simp] theorem State.withCaches_msix : (s.withCaches k).msix = s.msix := rfl
@[simp] theorem State.withCaches_hostOut : (s.withCaches k).hostOut = s.hostOut := rfl
@[simp] theorem State.withCaches_peerOut : (s.withCaches k).peerOut = s.peerOut := rfl
@[simp] theorem State.withCaches_peerHeld : (s.withCaches k).peerHeld = s.peerHeld := rfl
@[simp] theorem State.withCaches_agenda : (s.withCaches k).agenda = s.agenda := rfl
@[simp] theorem State.withCaches_arg : (s.withCaches k).arg = s.arg := rfl
@[simp] theorem State.withCaches_src : (s.withCaches k).src = s.src := rfl
@[simp] theorem State.withCaches_doing : (s.withCaches k).doing = s.doing := rfl
@[simp] theorem State.withCaches_turn : (s.withCaches k).turn = s.turn := rfl
@[simp] theorem State.withCaches_cur : (s.withCaches k).cur = s.cur := rfl
@[simp] theorem State.withCaches_nextId : (s.withCaches k).nextId = s.nextId := rfl
@[simp] theorem State.withCaches_l1 : (s.withCaches k).l1 = k.l1 := rfl
@[simp] theorem State.withCaches_l2 : (s.withCaches k).l2 = k.l2 := rfl
@[simp] theorem State.withCaches_freeCtr : (s.withCaches k).freeCtr = k.ctr := rfl

/-- Of a context nothing changes but its sessions and the requests of it that shared units have served. -/
theorem State.withCaches_ctx (c : Nat) : ∃ z n, (s.withCaches k).ctx c = { s.ctx c with sessions := z, served := n } := by
  unfold State.ctx State.withCaches tget
  simp only [tfind_tmap]
  cases tfind s.ctxs c <;> exact ⟨_, _, rfl⟩

/-- An access of an engine, a map unit or a rafter changes the caches alone. -/
theorem touchHome_spec (ctx : Option Nat) (pa n : Nat) (w : Bool) : touchHome s ctx pa n w = s ∨ ∃ k, touchHome s ctx pa n w = s.withCaches k := by
  unfold touchHome
  split
  · exact .inl rfl
  · exact .inr ⟨_, rfl⟩

/-- So does the invalidation of plane lines. -/
theorem dropPlanes_spec (pa n : Nat) : dropPlanes s pa n = s ∨ ∃ k, dropPlanes s pa n = s.withCaches k := by
  unfold dropPlanes
  dsimp only
  split
  · exact .inl rfl
  · exact .inr ⟨_, rfl⟩

/-- So does an access of a thread. -/
theorem touchLine_spec (core ctx va pa : Nat) (u : CacheUse) : ∃ k, touchLine s core ctx va pa u = s.withCaches k := ⟨_, rfl⟩

/-! ### A translation that is kept -/

/-- Keeping a translation changes the translation caches alone. -/
theorem tlbKeep_spec (r : XRes) : ∃ t p, tlbKeep s r = { s with page := { s.page with tlb := t, ptrs := p } } := by
  unfold tlbKeep
  split
  · dsimp only
    split
    · exact ⟨_, _, rfl⟩
    · exact ⟨_, _, rfl⟩
  · exact ⟨_, _, rfl⟩

/-- Removal adds nothing. -/
theorem mem_of_mem_shrink {α : Type} {ctr n : Nat} {xs : List α} {x : α} (h : x ∈ shrink ctr n xs) : x ∈ xs := by
  simp only [shrink] at h
  split at h
  · exact List.mem_of_mem_eraseIdx h
  · exact h

/-- A die's walker keeps pointer entries that the walk met or that it had. -/
theorem mem_keepPtrs {ctr : Nat} (met : List PtrEntry) {ps : List PtrEntry} {p : PtrEntry}
    (h : p ∈ met.foldl (fun ps p => p :: shrink ctr 4095 (ps.filter (fun q => q.place ≠ p.place))) ps) : p ∈ met ∨ p ∈ ps := by
  induction met generalizing ps with
  | nil => exact .inr h
  | cons q met ih =>
    rcases ih h with h | h
    · exact .inl (List.mem_cons_of_mem _ h)
    · rcases List.mem_cons.mp h with rfl | h
      · exact .inl (List.mem_cons_self ..)
      · exact .inr (List.mem_filter.mp (mem_of_mem_shrink h)).1

/-- Keeping a translation adds pointer entries that its walk met, and none to another die. -/
theorem mem_tlbKeep_ptrs {dev pa d : Nat} {t : TlbEntry} {p : PtrEntry} (h : p ∈ tget [] (tlbKeep s (.ok dev pa t)).page.ptrs d) :
    p ∈ gpointers s t.ctx t.vf (s.vf t.vf).hroot t.va 4 (s.ctx t.ctx).groot ++ hpointers s t.ctx t.vf t.gpa 4 (s.vf t.vf).hroot ∨
      p ∈ tget [] s.page.ptrs d := by
  unfold tlbKeep at h
  dsimp only at h
  split at h
  · exact .inr h
  · rw [tget_tset] at h
    split at h
    · next e => rw [e]; exact mem_keepPtrs _ h
    · exact .inr h

/-- A source that is no core has no translation cache. -/
theorem tlbKeep_tlb (r : XRes) (h : 256 ≤ s.src) : (tlbKeep s r).page.tlb = s.page.tlb := by
  unfold tlbKeep
  split
  · dsimp only
    split
    · rfl
    · rfl
  · rfl

end Sys2Proof.Machine
end

