-- ==== Sys2Proof/Laws/Exec.lean ====
section
/-!
SUPPORT. What the dispatch and the table of word properties answer for each constructor, one equation each.
-/

namespace Sys2Proof.Machine

/-! ### The meaning of each constructor -/

@[simp] theorem exec_nop (f : WK) (s : State) : exec (.nop f) s = execNop f s := rfl
@[simp] theorem exec_bra (f : WJ) (s : State) : exec (.bra f) s = execBra f s := rfl
@[simp] theorem exec_brx (f : WA) (s : State) : exec (.brx f) s = execBrx f s := rfl
@[simp] theorem exec_call (f : WJ) (s : State) : exec (.call f) s = execCall f s := rfl
@[simp] theorem exec_callx (f : WA) (s : State) : exec (.callx f) s = execCallx f s := rfl
@[simp] theorem exec_ret (f : WA) (s : State) : exec (.ret f) s = execRet f s := rfl
@[simp] theorem exec_exit (f : WA) (s : State) : exec (.exit f) s = execExit f s := rfl
@[simp] theorem exec_yield (f : WK) (s : State) : exec (.yield f) s = execYield f s := rfl
@[simp] theorem exec_sleep (f : WK) (s : State) : exec (.sleep f) s = execSleep f s := rfl
@[simp] theorem exec_pand (f : WA) (s : State) : exec (.pand f) s = execPand f s := rfl
@[simp] theorem exec_por (f : WA) (s : State) : exec (.por f) s = execPor f s := rfl
@[simp] theorem exec_pxor (f : WA) (s : State) : exec (.pxor f) s = execPxor f s := rfl
@[simp] theorem exec_pnot (f : WA) (s : State) : exec (.pnot f) s = execPnot f s := rfl
@[simp] theorem exec_voteAny (f : WA) (s : State) : exec (.voteAny f) s = execVoteAny f s := rfl
@[simp] theorem exec_voteAll (f : WA) (s : State) : exec (.voteAll f) s = execVoteAll f s := rfl
@[simp] theorem exec_voteBal (f : WA) (s : State) : exec (.voteBal f) s = execVoteBal f s := rfl
@[simp] theorem exec_pset (cond : BitVec 4) (f : WA) (s : State) : exec (.pset cond f) s = execPset cond f s := rfl
@[simp] theorem exec_psetk (cond : BitVec 4) (f : WI) (s : State) : exec (.psetk cond f) s = execPsetk cond f s := rfl
@[simp] theorem exec_prd (f : WA) (s : State) : exec (.prd f) s = execPrd f s := rfl
@[simp] theorem exec_pwr (f : WA) (s : State) : exec (.pwr f) s = execPwr f s := rfl
@[simp] theorem exec_rep (f : WP) (s : State) : exec (.rep f) s = execRep f s := rfl
@[simp] theorem exec_add (f : WA) (s : State) : exec (.add f) s = execAdd f s := rfl
@[simp] theorem exec_sub (f : WA) (s : State) : exec (.sub f) s = execSub f s := rfl
@[simp] theorem exec_addk (f : WI) (s : State) : exec (.addk f) s = execAddk f s := rfl
@[simp] theorem exec_adds (f : WA) (s : State) : exec (.adds f) s = execAdds f s := rfl
@[simp] theorem exec_subs (f : WA) (s : State) : exec (.subs f) s = execSubs f s := rfl
@[simp] theorem exec_mul (f : WA) (s : State) : exec (.mul f) s = execMul f s := rfl
@[simp] theorem exec_mulh (f : WA) (s : State) : exec (.mulh f) s = execMulh f s := rfl
@[simp] theorem exec_mulhu (f : WA) (s : State) : exec (.mulhu f) s = execMulhu f s := rfl
@[simp] theorem exec_mad (f : WA) (s : State) : exec (.mad f) s = execMad f s := rfl
@[simp] theorem exec_min (f : WA) (s : State) : exec (.min f) s = execMin f s := rfl
@[simp] theorem exec_max (f : WA) (s : State) : exec (.max f) s = execMax f s := rfl
@[simp] theorem exec_minu (f : WA) (s : State) : exec (.minu f) s = execMinu f s := rfl
@[simp] theorem exec_maxu (f : WA) (s : State) : exec (.maxu f) s = execMaxu f s := rfl
@[simp] theorem exec_and (f : WA) (s : State) : exec (.and f) s = execAnd f s := rfl
@[simp] theorem exec_or (f : WA) (s : State) : exec (.or f) s = execOr f s := rfl
@[simp] theorem exec_xor (f : WA) (s : State) : exec (.xor f) s = execXor f s := rfl
@[simp] theorem exec_andn (f : WA) (s : State) : exec (.andn f) s = execAndn f s := rfl
@[simp] theorem exec_shl (f : WA) (s : State) : exec (.shl f) s = execShl f s := rfl
@[simp] theorem exec_shr (f : WA) (s : State) : exec (.shr f) s = execShr f s := rfl
@[simp] theorem exec_sar (f : WA) (s : State) : exec (.sar f) s = execSar f s := rfl
@[simp] theorem exec_shli (f : WI) (s : State) : exec (.shli f) s = execShli f s := rfl
@[simp] theorem exec_shri (f : WI) (s : State) : exec (.shri f) s = execShri f s := rfl
@[simp] theorem exec_sari (f : WI) (s : State) : exec (.sari f) s = execSari f s := rfl
@[simp] theorem exec_sel (f : WA) (s : State) : exec (.sel f) s = execSel f s := rfl
@[simp] theorem exec_popc (f : WA) (s : State) : exec (.popc f) s = execPopc f s := rfl
@[simp] theorem exec_clz (f : WA) (s : State) : exec (.clz f) s = execClz f s := rfl
@[simp] theorem exec_brev (f : WA) (s : State) : exec (.brev f) s = execBrev f s := rfl
@[simp] theorem exec_bfx (f : WA) (s : State) : exec (.bfx f) s = execBfx f s := rfl
@[simp] theorem exec_bfxs (f : WA) (s : State) : exec (.bfxs f) s = execBfxs f s := rfl
@[simp] theorem exec_bfi (f : WA) (s : State) : exec (.bfi f) s = execBfi f s := rfl
@[simp] theorem exec_mov (f : WA) (s : State) : exec (.mov f) s = execMov f s := rfl
@[simp] theorem exec_movk (f : WK) (s : State) : exec (.movk f) s = execMovk f s := rfl
@[simp] theorem exec_shlk (f : WK) (s : State) : exec (.shlk f) s = execShlk f s := rfl
@[simp] theorem exec_movg (f : WA) (s : State) : exec (.movg f) s = execMovg f s := rfl
@[simp] theorem exec_movw (f : WA) (s : State) : exec (.movw f) s = execMovw f s := rfl
@[simp] theorem exec_add64 (f : WA) (s : State) : exec (.add64 f) s = execAdd64 f s := rfl
@[simp] theorem exec_sub64 (f : WA) (s : State) : exec (.sub64 f) s = execSub64 f s := rfl
@[simp] theorem exec_addk64 (f : WI) (s : State) : exec (.addk64 f) s = execAddk64 f s := rfl
@[simp] theorem exec_shl64 (f : WA) (s : State) : exec (.shl64 f) s = execShl64 f s := rfl
@[simp] theorem exec_shr64 (f : WA) (s : State) : exec (.shr64 f) s = execShr64 f s := rfl
@[simp] theorem exec_sext64 (f : WA) (s : State) : exec (.sext64 f) s = execSext64 f s := rfl
@[simp] theorem exec_zext64 (f : WA) (s : State) : exec (.zext64 f) s = execZext64 f s := rfl
@[simp] theorem exec_lea (sh : BitVec 3) (f : WA) (s : State) : exec (.lea sh f) s = execLea sh f s := rfl
@[simp] theorem exec_fadd (rm : BitVec 2) (f : WA) (s : State) : exec (.fadd rm f) s = execFadd rm f s := rfl
@[simp] theorem exec_fsub (rm : BitVec 2) (f : WA) (s : State) : exec (.fsub rm f) s = execFsub rm f s := rfl
@[simp] theorem exec_fmul (rm : BitVec 2) (f : WA) (s : State) : exec (.fmul rm f) s = execFmul rm f s := rfl
@[simp] theorem exec_ffma (rm : BitVec 2) (f : WA) (s : State) : exec (.ffma rm f) s = execFfma rm f s := rfl
@[simp] theorem exec_fmin (f : WA) (s : State) : exec (.fmin f) s = execFmin f s := rfl
@[simp] theorem exec_fmax (f : WA) (s : State) : exec (.fmax f) s = execFmax f s := rfl
@[simp] theorem exec_fabs (f : WA) (s : State) : exec (.fabs f) s = execFabs f s := rfl
@[simp] theorem exec_fneg (f : WA) (s : State) : exec (.fneg f) s = execFneg f s := rfl
@[simp] theorem exec_fsetEqToLe (cond : BitVec 2) (f : WA) (s : State) : exec (.fsetEqToLe cond f) s = execFsetEqToLe cond f s := rfl
@[simp] theorem exec_fsetGtToOr (cond : BitVec 2) (f : WA) (s : State) : exec (.fsetGtToOr cond f) s = execFsetGtToOr cond f s := rfl
@[simp] theorem exec_hadd2 (rm : BitVec 2) (f : WA) (s : State) : exec (.hadd2 rm f) s = execHadd2 rm f s := rfl
@[simp] theorem exec_hsub2 (rm : BitVec 2) (f : WA) (s : State) : exec (.hsub2 rm f) s = execHsub2 rm f s := rfl
@[simp] theorem exec_hmul2 (rm : BitVec 2) (f : WA) (s : State) : exec (.hmul2 rm f) s = execHmul2 rm f s := rfl
@[simp] theorem exec_hfma2 (rm : BitVec 2) (f : WA) (s : State) : exec (.hfma2 rm f) s = execHfma2 rm f s := rfl
@[simp] theorem exec_hmin2 (f : WA) (s : State) : exec (.hmin2 f) s = execHmin2 f s := rfl
@[simp] theorem exec_hmax2 (f : WA) (s : State) : exec (.hmax2 f) s = execHmax2 f s := rfl
@[simp] theorem exec_habs2 (f : WA) (s : State) : exec (.habs2 f) s = execHabs2 f s := rfl
@[simp] theorem exec_hneg2 (f : WA) (s : State) : exec (.hneg2 f) s = execHneg2 f s := rfl
@[simp] theorem exec_hdot2 (rm : BitVec 2) (f : WA) (s : State) : exec (.hdot2 rm f) s = execHdot2 rm f s := rfl
@[simp] theorem exec_cvtBf16F32 (rm : BitVec 2) (f : WA) (s : State) : exec (.cvtBf16F32 rm f) s = execCvtBf16F32 rm f s := rfl
@[simp] theorem exec_cvtF32Bf16l (f : WA) (s : State) : exec (.cvtF32Bf16l f) s = execCvtF32Bf16l f s := rfl
@[simp] theorem exec_cvtF32Bf16h (f : WA) (s : State) : exec (.cvtF32Bf16h f) s = execCvtF32Bf16h f s := rfl
@[simp] theorem exec_cvtE4m3Bf16 (rm : BitVec 2) (f : WA) (s : State) : exec (.cvtE4m3Bf16 rm f) s = execCvtE4m3Bf16 rm f s := rfl
@[simp] theorem exec_cvtE5m2Bf16 (rm : BitVec 2) (f : WA) (s : State) : exec (.cvtE5m2Bf16 rm f) s = execCvtE5m2Bf16 rm f s := rfl
@[simp] theorem exec_cvtBf16E4m3l (f : WA) (s : State) : exec (.cvtBf16E4m3l f) s = execCvtBf16E4m3l f s := rfl
@[simp] theorem exec_cvtBf16E4m3h (f : WA) (s : State) : exec (.cvtBf16E4m3h f) s = execCvtBf16E4m3h f s := rfl
@[simp] theorem exec_cvtBf16E5m2l (f : WA) (s : State) : exec (.cvtBf16E5m2l f) s = execCvtBf16E5m2l f s := rfl
@[simp] theorem exec_cvtBf16E5m2h (f : WA) (s : State) : exec (.cvtBf16E5m2h f) s = execCvtBf16E5m2h f s := rfl
@[simp] theorem exec_cvtS32F32 (rm : BitVec 2) (f : WA) (s : State) : exec (.cvtS32F32 rm f) s = execCvtS32F32 rm f s := rfl
@[simp] theorem exec_cvtU32F32 (rm : BitVec 2) (f : WA) (s : State) : exec (.cvtU32F32 rm f) s = execCvtU32F32 rm f s := rfl
@[simp] theorem exec_cvtF32S32 (rm : BitVec 2) (f : WA) (s : State) : exec (.cvtF32S32 rm f) s = execCvtF32S32 rm f s := rfl
@[simp] theorem exec_cvtF32U32 (rm : BitVec 2) (f : WA) (s : State) : exec (.cvtF32U32 rm f) s = execCvtF32U32 rm f s := rfl
@[simp] theorem exec_cvtS4S8 (f : WA) (s : State) : exec (.cvtS4S8 f) s = execCvtS4S8 f s := rfl
@[simp] theorem exec_cvtS8S4l (f : WA) (s : State) : exec (.cvtS8S4l f) s = execCvtS8S4l f s := rfl
@[simp] theorem exec_cvtS8S4h (f : WA) (s : State) : exec (.cvtS8S4h f) s = execCvtS8S4h f s := rfl
@[simp] theorem exec_frred (f : WA) (s : State) : exec (.frred f) s = execFrred f s := rfl
@[simp] theorem exec_fsinr (f : WA) (s : State) : exec (.fsinr f) s = execFsinr f s := rfl
@[simp] theorem exec_fcosr (f : WA) (s : State) : exec (.fcosr f) s = execFcosr f s := rfl
@[simp] theorem exec_fexp2 (f : WA) (s : State) : exec (.fexp2 f) s = execFexp2 f s := rfl
@[simp] theorem exec_flog2 (f : WA) (s : State) : exec (.flog2 f) s = execFlog2 f s := rfl
@[simp] theorem exec_frcp (f : WA) (s : State) : exec (.frcp f) s = execFrcp f s := rfl
@[simp] theorem exec_frsq (f : WA) (s : State) : exec (.frsq f) s = execFrsq f s := rfl
@[simp] theorem exec_fsqrt (f : WA) (s : State) : exec (.fsqrt f) s = execFsqrt f s := rfl
@[simp] theorem exec_lswpP (f : WA) (s : State) : exec (.lswpP f) s = execLswpP f s := rfl
@[simp] theorem exec_lshf (f : WI) (s : State) : exec (.lshf f) s = execLshf f s := rfl
@[simp] theorem exec_lbcast (f : WI) (s : State) : exec (.lbcast f) s = execLbcast f s := rfl
@[simp] theorem exec_lxor (f : WI) (s : State) : exec (.lxor f) s = execLxor f s := rfl
@[simp] theorem exec_lidx (f : WA) (s : State) : exec (.lidx f) s = execLidx f s := rfl
@[simp] theorem exec_lrot (f : WI) (s : State) : exec (.lrot f) s = execLrot f s := rfl
@[simp] theorem exec_ldG (sz : BitVec 3) (f : WM) (s : State) : exec (.ldG sz f) s = execLdG sz f s := rfl
@[simp] theorem exec_ldS (sz : BitVec 3) (f : WM) (s : State) : exec (.ldS sz f) s = execLdS sz f s := rfl
@[simp] theorem exec_ldE (sz : BitVec 3) (f : WM) (s : State) : exec (.ldE sz f) s = execLdE sz f s := rfl
@[simp] theorem exec_stG (sz : BitVec 3) (f : WM) (s : State) : exec (.stG sz f) s = execStG sz f s := rfl
@[simp] theorem exec_stS (sz : BitVec 3) (f : WM) (s : State) : exec (.stS sz f) s = execStS sz f s := rfl
@[simp] theorem exec_stE (sz : BitVec 3) (f : WM) (s : State) : exec (.stE sz f) s = execStE sz f s := rfl
@[simp] theorem exec_prefL1 (f : WM) (s : State) : exec (.prefL1 f) s = execPrefL1 f s := rfl
@[simp] theorem exec_prefL2 (f : WM) (s : State) : exec (.prefL2 f) s = execPrefL2 f s := rfl
@[simp] theorem exec_atomAdd (ms : BitVec 2) (f : WMA) (s : State) : exec (.atomAdd ms f) s = execAtomAdd ms f s := rfl
@[simp] theorem exec_atomMin (ms : BitVec 2) (f : WMA) (s : State) : exec (.atomMin ms f) s = execAtomMin ms f s := rfl
@[simp] theorem exec_atomMax (ms : BitVec 2) (f : WMA) (s : State) : exec (.atomMax ms f) s = execAtomMax ms f s := rfl
@[simp] theorem exec_atomMinu (ms : BitVec 2) (f : WMA) (s : State) : exec (.atomMinu ms f) s = execAtomMinu ms f s := rfl
@[simp] theorem exec_atomMaxu (ms : BitVec 2) (f : WMA) (s : State) : exec (.atomMaxu ms f) s = execAtomMaxu ms f s := rfl
@[simp] theorem exec_atomAnd (ms : BitVec 2) (f : WMA) (s : State) : exec (.atomAnd ms f) s = execAtomAnd ms f s := rfl
@[simp] theorem exec_atomOr (ms : BitVec 2) (f : WMA) (s : State) : exec (.atomOr ms f) s = execAtomOr ms f s := rfl
@[simp] theorem exec_atomXor (ms : BitVec 2) (f : WMA) (s : State) : exec (.atomXor ms f) s = execAtomXor ms f s := rfl
@[simp] theorem exec_atomExch (ms : BitVec 2) (f : WMA) (s : State) : exec (.atomExch ms f) s = execAtomExch ms f s := rfl
@[simp] theorem exec_atomCas (ms : BitVec 2) (f : WMA) (s : State) : exec (.atomCas ms f) s = execAtomCas ms f s := rfl
@[simp] theorem exec_atomLd (ms : BitVec 2) (f : WMA) (s : State) : exec (.atomLd ms f) s = execAtomLd ms f s := rfl
@[simp] theorem exec_atomSt (ms : BitVec 2) (f : WMA) (s : State) : exec (.atomSt ms f) s = execAtomSt ms f s := rfl
@[simp] theorem exec_atomFadd (ms : BitVec 2) (f : WMA) (s : State) : exec (.atomFadd ms f) s = execAtomFadd ms f s := rfl
@[simp] theorem exec_atomAdd64 (ms : BitVec 2) (f : WMA) (s : State) : exec (.atomAdd64 ms f) s = execAtomAdd64 ms f s := rfl
@[simp] theorem exec_fenceE (f : WA) (s : State) : exec (.fenceE f) s = execFenceE f s := rfl
@[simp] theorem exec_dfence (f : WA) (s : State) : exec (.dfence f) s = execDfence f s := rfl
@[simp] theorem exec_drainst (f : WA) (s : State) : exec (.drainst f) s = execDrainst f s := rfl
@[simp] theorem exec_sfrd (f : WA) (s : State) : exec (.sfrd f) s = execSfrd f s := rfl
@[simp] theorem exec_sfpop (f : WA) (s : State) : exec (.sfpop f) s = execSfpop f s := rfl
@[simp] theorem exec_sfcnt (f : WA) (s : State) : exec (.sfcnt f) s = execSfcnt f s := rfl
@[simp] theorem exec_smap (f : WA) (s : State) : exec (.smap f) s = execSmap f s := rfl
@[simp] theorem exec_sunmap (f : WA) (s : State) : exec (.sunmap f) s = execSunmap f s := rfl
@[simp] theorem exec_swb (f : WA) (s : State) : exec (.swb f) s = execSwb f s := rfl
@[simp] theorem exec_sinv (f : WA) (s : State) : exec (.sinv f) s = execSinv f s := rfl
@[simp] theorem exec_xacq (f : WA) (s : State) : exec (.xacq f) s = execXacq f s := rfl
@[simp] theorem exec_xrel (f : WA) (s : State) : exec (.xrel f) s = execXrel f s := rfl
@[simp] theorem exec_xtry (f : WA) (s : State) : exec (.xtry f) s = execXtry f s := rfl
@[simp] theorem exec_sdecl (f : WA) (s : State) : exec (.sdecl f) s = execSdecl f s := rfl
@[simp] theorem exec_sleave (f : WA) (s : State) : exec (.sleave f) s = execSleave f s := rfl
@[simp] theorem exec_sinfo (f : WA) (s : State) : exec (.sinfo f) s = execSinfo f s := rfl
@[simp] theorem exec_binit (f : WA) (s : State) : exec (.binit f) s = execBinit f s := rfl
@[simp] theorem exec_barv (f : WA) (s : State) : exec (.barv f) s = execBarv f s := rfl
@[simp] theorem exec_bwait (f : WA) (s : State) : exec (.bwait f) s = execBwait f s := rfl
@[simp] theorem exec_bsync (f : WA) (s : State) : exec (.bsync f) s = execBsync f s := rfl
@[simp] theorem exec_bgen (f : WA) (s : State) : exec (.bgen f) s = execBgen f s := rfl
@[simp] theorem exec_redb (f : WA) (s : State) : exec (.redb f) s = execRedb f s := rfl
@[simp] theorem exec_redw (f : WA) (s : State) : exec (.redw f) s = execRedw f s := rfl
@[simp] theorem exec_redq (f : WA) (s : State) : exec (.redq f) s = execRedq f s := rfl
@[simp] theorem exec_tmma (f : WA) (s : State) : exec (.tmma f) s = execTmma f s := rfl
@[simp] theorem exec_tzero (f : WA) (s : State) : exec (.tzero f) s = execTzero f s := rfl
@[simp] theorem exec_tres (f : WA) (s : State) : exec (.tres f) s = execTres f s := rfl
@[simp] theorem exec_tcmp (f : WA) (s : State) : exec (.tcmp f) s = execTcmp f s := rfl
@[simp] theorem exec_tdrain (rm : BitVec 2) (f : WA) (s : State) : exec (.tdrain rm f) s = execTdrain rm f s := rfl
@[simp] theorem exec_tcmpX (f : WA) (s : State) : exec (.tcmpX f) s = execTcmpX f s := rfl
@[simp] theorem exec_tsave (f : WA) (s : State) : exec (.tsave f) s = execTsave f s := rfl
@[simp] theorem exec_tsaveC (f : WA) (s : State) : exec (.tsaveC f) s = execTsaveC f s := rfl
@[simp] theorem exec_tload (f : WA) (s : State) : exec (.tload f) s = execTload f s := rfl
@[simp] theorem exec_tplane (f : WA) (s : State) : exec (.tplane f) s = execTplane f s := rfl
@[simp] theorem exec_twait (f : WA) (s : State) : exec (.twait f) s = execTwait f s := rfl
@[simp] theorem exec_twaitAll (f : WA) (s : State) : exec (.twaitAll f) s = execTwaitAll f s := rfl
@[simp] theorem exec_tstat (f : WA) (s : State) : exec (.tstat f) s = execTstat f s := rfl
@[simp] theorem exec_tmov (f : WA) (s : State) : exec (.tmov f) s = execTmov f s := rfl
@[simp] theorem exec_cpy (q : BitVec 2) (f : WA) (s : State) : exec (.cpy q f) s = execCpy q f s := rfl
@[simp] theorem exec_cpyN (f : WA) (s : State) : exec (.cpyN f) s = execCpyN f s := rfl
@[simp] theorem exec_gath (f : WA) (s : State) : exec (.gath f) s = execGath f s := rfl
@[simp] theorem exec_cseal (f : WA) (s : State) : exec (.cseal f) s = execCseal f s := rfl
@[simp] theorem exec_cwait (f : WI) (s : State) : exec (.cwait f) s = execCwait f s := rfl
@[simp] theorem exec_sleepP (f : WA) (s : State) : exec (.sleepP f) s = execSleepP f s := rfl
@[simp] theorem exec_qfence (f : WI) (s : State) : exec (.qfence f) s = execQfence f s := rfl
@[simp] theorem exec_coll (f : WA) (s : State) : exec (.coll f) s = execColl f s := rfl
@[simp] theorem exec_leader (f : WA) (s : State) : exec (.leader f) s = execLeader f s := rfl
@[simp] theorem exec_wpop (f : WA) (s : State) : exec (.wpop f) s = execWpop f s := rfl
@[simp] theorem exec_wpopSleep (f : WA) (s : State) : exec (.wpopSleep f) s = execWpopSleep f s := rfl
@[simp] theorem exec_wpush (f : WA) (s : State) : exec (.wpush f) s = execWpush f s := rfl
@[simp] theorem exec_wlen (f : WA) (s : State) : exec (.wlen f) s = execWlen f s := rfl
@[simp] theorem exec_amsg (f : WA) (s : State) : exec (.amsg f) s = execAmsg f s := rfl
@[simp] theorem exec_ampoll (f : WA) (s : State) : exec (.ampoll f) s = execAmpoll f s := rfl
@[simp] theorem exec_amend (f : WA) (s : State) : exec (.amend f) s = execAmend f s := rfl
@[simp] theorem exec_bidset (f : WA) (s : State) : exec (.bidset f) s = execBidset f s := rfl
@[simp] theorem exec_price (f : WA) (s : State) : exec (.price f) s = execPrice f s := rfl
@[simp] theorem exec_bidget (f : WA) (s : State) : exec (.bidget f) s = execBidget f s := rfl
@[simp] theorem exec_mfs (f : WS) (s : State) : exec (.mfs f) s = execMfs f s := rfl
@[simp] theorem exec_mts (f : WS) (s : State) : exec (.mts f) s = execMts f s := rfl
@[simp] theorem exec_trap (f : WK) (s : State) : exec (.trap f) s = execTrap f s := rfl
@[simp] theorem exec_rett (f : WA) (s : State) : exec (.rett f) s = execRett f s := rfl
@[simp] theorem exec_brk (f : WK) (s : State) : exec (.brk f) s = execBrk f s := rfl
@[simp] theorem exec_dtload (f : WI) (s : State) : exec (.dtload f) s = execDtload f s := rfl
@[simp] theorem exec_dtsel (f : WI) (s : State) : exec (.dtsel f) s = execDtsel f s := rfl
@[simp] theorem exec_kchk (f : WA) (s : State) : exec (.kchk f) s = execKchk f s := rfl
@[simp] theorem exec_kcanc (hard : Bool) (lv : BitVec 2) (f : WA) (s : State) : exec (.kcanc hard lv f) s = execKcanc hard lv f s := rfl
@[simp] theorem exec_probe (f : WA) (s : State) : exec (.probe f) s = execProbe f s := rfl
@[simp] theorem exec_tlbi (f : WA) (s : State) : exec (.tlbi f) s = execTlbi f s := rfl
@[simp] theorem exec_icinv (f : WA) (s : State) : exec (.icinv f) s = execIcinv f s := rfl
@[simp] theorem exec_mcfgr (f : WS) (s : State) : exec (.mcfgr f) s = execMcfgr f s := rfl
@[simp] theorem exec_mcfgw (f : WS) (s : State) : exec (.mcfgw f) s = execMcfgw f s := rfl
@[simp] theorem exec_create (s : State) : exec (.create) s = execCreate s := rfl
@[simp] theorem exec_activate (s : State) : exec (.activate) s = execActivate s := rfl
@[simp] theorem exec_suspend (s : State) : exec (.suspend) s = execSuspend s := rfl
@[simp] theorem exec_resume (s : State) : exec (.resume) s = execResume s := rfl
@[simp] theorem exec_destroy (s : State) : exec (.destroy) s = execDestroy s := rfl
@[simp] theorem exec_migrate (s : State) : exec (.migrate) s = execMigrate s := rfl
@[simp] theorem exec_contextCommandComplete (s : State) : exec (.contextCommandComplete) s = execContextCommandComplete s := rfl
@[simp] theorem exec_migrationComplete (s : State) : exec (.migrationComplete) s = execMigrationComplete s := rfl
@[simp] theorem exec_migrationAborted (s : State) : exec (.migrationAborted) s = execMigrationAborted s := rfl
@[simp] theorem exec_vfcfgWrite (s : State) : exec (.vfcfgWrite) s = execVfcfgWrite s := rfl
@[simp] theorem exec_watchdogExpiry (s : State) : exec (.watchdogExpiry) s = execWatchdogExpiry s := rfl
@[simp] theorem exec_resetComplete (s : State) : exec (.resetComplete) s = execResetComplete s := rfl
@[simp] theorem exec_noticeAppend (s : State) : exec (.noticeAppend) s = execNoticeAppend s := rfl
@[simp] theorem exec_energyPeriodBoundary (s : State) : exec (.energyPeriodBoundary) s = execEnergyPeriodBoundary s := rfl
@[simp] theorem exec_sealing (s : State) : exec (.sealing) s = execSealing s := rfl
@[simp] theorem exec_publication (s : State) : exec (.publication) s = execPublication s := rfl
@[simp] theorem exec_intervalBoundary (s : State) : exec (.intervalBoundary) s = execIntervalBoundary s := rfl
@[simp] theorem exec_handoverEnd (s : State) : exec (.handoverEnd) s = execHandoverEnd s := rfl
@[simp] theorem exec_priceExchangeReceived (s : State) : exec (.priceExchangeReceived) s = execPriceExchangeReceived s := rfl
@[simp] theorem exec_peerPriceEntryExpiry (s : State) : exec (.peerPriceEntryExpiry) s = execPeerPriceEntryExpiry s := rfl
@[simp] theorem exec_doorbell (s : State) : exec (.doorbell) s = execDoorbell s := rfl
@[simp] theorem exec_qcfgWrite (s : State) : exec (.qcfgWrite) s = execQcfgWrite s := rfl
@[simp] theorem exec_retry (s : State) : exec (.retry) s = execRetry s := rfl
@[simp] theorem exec_skip (s : State) : exec (.skip) s = execSkip s := rfl
@[simp] theorem exec_rafterEventTake (s : State) : exec (.rafterEventTake) s = execRafterEventTake s := rfl
@[simp] theorem exec_launchPacket (s : State) : exec (.launchPacket) s = execLaunchPacket s := rfl
@[simp] theorem exec_feedPacket (s : State) : exec (.feedPacket) s = execFeedPacket s := rfl
@[simp] theorem exec_fencePacket (s : State) : exec (.fencePacket) s = execFencePacket s := rfl
@[simp] theorem exec_waitPacket (s : State) : exec (.waitPacket) s = execWaitPacket s := rfl
@[simp] theorem exec_waitReevaluation (s : State) : exec (.waitReevaluation) s = execWaitReevaluation s := rfl
@[simp] theorem exec_waitTimeout (s : State) : exec (.waitTimeout) s = execWaitTimeout s := rfl
@[simp] theorem exec_indirectPacket (s : State) : exec (.indirectPacket) s = execIndirectPacket s := rfl
@[simp] theorem exec_copyPacket (s : State) : exec (.copyPacket) s = execCopyPacket s := rfl
@[simp] theorem exec_signalPacket (s : State) : exec (.signalPacket) s = execSignalPacket s := rfl
@[simp] theorem exec_cancelPacket (s : State) : exec (.cancelPacket) s = execCancelPacket s := rfl
@[simp] theorem exec_markPacket (s : State) : exec (.markPacket) s = execMarkPacket s := rfl
@[simp] theorem exec_dtloadPacket (s : State) : exec (.dtloadPacket) s = execDtloadPacket s := rfl
@[simp] theorem exec_dispatchDecision (s : State) : exec (.dispatchDecision) s = execDispatchDecision s := rfl
@[simp] theorem exec_powerGatingBegin (s : State) : exec (.powerGatingBegin) s = execPowerGatingBegin s := rfl
@[simp] theorem exec_gatingCommit (s : State) : exec (.gatingCommit) s = execGatingCommit s := rfl
@[simp] theorem exec_coreWake (s : State) : exec (.coreWake) s = execCoreWake s := rfl
@[simp] theorem exec_blockExit (s : State) : exec (.blockExit) s = execBlockExit s := rfl
@[simp] theorem exec_blockResume (s : State) : exec (.blockResume) s = execBlockResume s := rfl
@[simp] theorem exec_trapEntry (s : State) : exec (.trapEntry) s = execTrapEntry s := rfl
@[simp] theorem exec_switchMarkerComplete (s : State) : exec (.switchMarkerComplete) s = execSwitchMarkerComplete s := rfl
@[simp] theorem exec_loadResultReturn (s : State) : exec (.loadResultReturn) s = execLoadResultReturn s := rfl
@[simp] theorem exec_sleepWake (s : State) : exec (.sleepWake) s = execSleepWake s := rfl
@[simp] theorem exec_yieldEnd (s : State) : exec (.yieldEnd) s = execYieldEnd s := rfl
@[simp] theorem exec_storeQueuePerform (s : State) : exec (.storeQueuePerform) s = execStoreQueuePerform s := rfl
@[simp] theorem exec_mapFillComplete (s : State) : exec (.mapFillComplete) s = execMapFillComplete s := rfl
@[simp] theorem exec_engineOperationTurn (s : State) : exec (.engineOperationTurn) s = execEngineOperationTurn s := rfl
@[simp] theorem exec_engineOperationComplete (s : State) : exec (.engineOperationComplete) s = execEngineOperationComplete s := rfl
@[simp] theorem exec_promiseWake (s : State) : exec (.promiseWake) s = execPromiseWake s := rfl
@[simp] theorem exec_tmmaTurn (s : State) : exec (.tmmaTurn) s = execTmmaTurn s := rfl
@[simp] theorem exec_tzeroTurn (s : State) : exec (.tzeroTurn) s = execTzeroTurn s := rfl
@[simp] theorem exec_tresTurn (s : State) : exec (.tresTurn) s = execTresTurn s := rfl
@[simp] theorem exec_tcmpTurn (s : State) : exec (.tcmpTurn) s = execTcmpTurn s := rfl
@[simp] theorem exec_tcmpXTurn (s : State) : exec (.tcmpXTurn) s = execTcmpXTurn s := rfl
@[simp] theorem exec_tdrainTurn (s : State) : exec (.tdrainTurn) s = execTdrainTurn s := rfl
@[simp] theorem exec_tsaveTurn (s : State) : exec (.tsaveTurn) s = execTsaveTurn s := rfl
@[simp] theorem exec_tsaveCTurn (s : State) : exec (.tsaveCTurn) s = execTsaveCTurn s := rfl
@[simp] theorem exec_tloadTurn (s : State) : exec (.tloadTurn) s = execTloadTurn s := rfl
@[simp] theorem exec_tplaneTurn (s : State) : exec (.tplaneTurn) s = execTplaneTurn s := rfl
@[simp] theorem exec_tmovTurn (s : State) : exec (.tmovTurn) s = execTmovTurn s := rfl
@[simp] theorem exec_bridleGenerationComplete (s : State) : exec (.bridleGenerationComplete) s = execBridleGenerationComplete s := rfl
@[simp] theorem exec_pageReWalk (s : State) : exec (.pageReWalk) s = execPageReWalk s := rfl
@[simp] theorem exec_pageRequest (s : State) : exec (.pageRequest) s = execPageRequest s := rfl
@[simp] theorem exec_prqdoneWrite (s : State) : exec (.prqdoneWrite) s = execPrqdoneWrite s := rfl
@[simp] theorem exec_gutterDrain (s : State) : exec (.gutterDrain) s = execGutterDrain s := rfl
@[simp] theorem exec_pageMove (s : State) : exec (.pageMove) s = execPageMove s := rfl
@[simp] theorem exec_pageMoveComplete (s : State) : exec (.pageMoveComplete) s = execPageMoveComplete s := rfl
@[simp] theorem exec_tlbih (s : State) : exec (.tlbih) s = execTlbih s := rfl
@[simp] theorem exec_tlbiCompletion (s : State) : exec (.tlbiCompletion) s = execTlbiCompletion s := rfl
@[simp] theorem exec_frrCommit (s : State) : exec (.frrCommit) s = execFrrCommit s := rfl
@[simp] theorem exec_portEnable (s : State) : exec (.portEnable) s = execPortEnable s := rfl
@[simp] theorem exec_portDisable (s : State) : exec (.portDisable) s = execPortDisable s := rfl
@[simp] theorem exec_retrain (s : State) : exec (.retrain) s = execRetrain s := rfl
@[simp] theorem exec_portDrain (s : State) : exec (.portDrain) s = execPortDrain s := rfl
@[simp] theorem exec_trainingAttemptEnd (s : State) : exec (.trainingAttemptEnd) s = execTrainingAttemptEnd s := rfl
@[simp] theorem exec_laneFailure (s : State) : exec (.laneFailure) s = execLaneFailure s := rfl
@[simp] theorem exec_drainingEnd (s : State) : exec (.drainingEnd) s = execDrainingEnd s := rfl
@[simp] theorem exec_flitReceived (s : State) : exec (.flitReceived) s = execFlitReceived s := rfl
@[simp] theorem exec_linkRetryRequest (s : State) : exec (.linkRetryRequest) s = execLinkRetryRequest s := rfl
@[simp] theorem exec_deviceUnreachable (s : State) : exec (.deviceUnreachable) s = execDeviceUnreachable s := rfl
@[simp] theorem exec_peerRequestArrival (s : State) : exec (.peerRequestArrival) s = execPeerRequestArrival s := rfl
@[simp] theorem exec_peerResponseArrival (s : State) : exec (.peerResponseArrival) s = execPeerResponseArrival s := rfl
@[simp] theorem exec_messageArrival (s : State) : exec (.messageArrival) s = execMessageArrival s := rfl
@[simp] theorem exec_messageAnswerArrival (s : State) : exec (.messageAnswerArrival) s = execMessageAnswerArrival s := rfl
@[simp] theorem exec_collFragmentArrival (s : State) : exec (.collFragmentArrival) s = execCollFragmentArrival s := rfl
@[simp] theorem exec_ethernetFrameReceived (s : State) : exec (.ethernetFrameReceived) s = execEthernetFrameReceived s := rfl
@[simp] theorem exec_perrRead (s : State) : exec (.perrRead) s = execPerrRead s := rfl
@[simp] theorem exec_pdiscRead (s : State) : exec (.pdiscRead) s = execPdiscRead s := rfl
@[simp] theorem exec_nsqNdiscRead (s : State) : exec (.nsqNdiscRead) s = execNsqNdiscRead s := rfl
@[simp] theorem exec_hostLinkWrite (s : State) : exec (.hostLinkWrite) s = execHostLinkWrite s := rfl
@[simp] theorem exec_l2RequestAccept (s : State) : exec (.l2RequestAccept) s = execL2RequestAccept s := rfl
@[simp] theorem exec_l2LineReturn (s : State) : exec (.l2LineReturn) s = execL2LineReturn s := rfl
@[simp] theorem exec_dbgctlWrite (s : State) : exec (.dbgctlWrite) s = execDbgctlWrite s := rfl
@[simp] theorem exec_drelRun (s : State) : exec (.drelRun) s = execDrelRun s := rfl
@[simp] theorem exec_drelStep (s : State) : exec (.drelStep) s = execDrelStep s := rfl
@[simp] theorem exec_daccRead (s : State) : exec (.daccRead) s = execDaccRead s := rfl
@[simp] theorem exec_daccWrite (s : State) : exec (.daccWrite) s = execDaccWrite s := rfl
@[simp] theorem exec_traceRecordWrite (s : State) : exec (.traceRecordWrite) s = execTraceRecordWrite s := rfl
@[simp] theorem exec_sampleTake (s : State) : exec (.sampleTake) s = execSampleTake s := rfl
@[simp] theorem exec_sensorSample (s : State) : exec (.sensorSample) s = execSensorSample s := rfl
@[simp] theorem exec_supplyUpdate (s : State) : exec (.supplyUpdate) s = execSupplyUpdate s := rfl
@[simp] theorem exec_throttleEvaluation (s : State) : exec (.throttleEvaluation) s = execThrottleEvaluation s := rfl
@[simp] theorem exec_powerExcursion (s : State) : exec (.powerExcursion) s = execPowerExcursion s := rfl
@[simp] theorem exec_excursionHoldEnd (s : State) : exec (.excursionHoldEnd) s = execExcursionHoldEnd s := rfl
@[simp] theorem exec_telemetrySnapshot (s : State) : exec (.telemetrySnapshot) s = execTelemetrySnapshot s := rfl
@[simp] theorem exec_thermalTrip (s : State) : exec (.thermalTrip) s = execThermalTrip s := rfl
@[simp] theorem exec_functionLevelReset (s : State) : exec (.functionLevelReset) s = execFunctionLevelReset s := rfl
@[simp] theorem exec_powerUp (s : State) : exec (.powerUp) s = execPowerUp s := rfl
@[simp] theorem exec_boot (s : State) : exec (.boot) s = execBoot s := rfl
@[simp] theorem exec_attestationRequest (s : State) : exec (.attestationRequest) s = execAttestationRequest s := rfl
@[simp] theorem exec_correctedSoftError (s : State) : exec (.correctedSoftError) s = execCorrectedSoftError s := rfl
@[simp] theorem exec_uncorrectableSoftError (s : State) : exec (.uncorrectableSoftError) s = execUncorrectableSoftError s := rfl
@[simp] theorem exec_sercntRead (s : State) : exec (.sercntRead) s = execSercntRead s := rfl
@[simp] theorem exec_registerWrite (s : State) : exec (.registerWrite) s = execRegisterWrite s := rfl
@[simp] theorem exec_engineOperationStop (s : State) : exec (.engineOperationStop) s = execEngineOperationStop s := rfl
@[simp] theorem exec_icinvCompletion (s : State) : exec (.icinvCompletion) s = execIcinvCompletion s := rfl
@[simp] theorem exec_attestationReportWritten (s : State) : exec (.attestationReportWritten) s = execAttestationReportWritten s := rfl
@[simp] theorem exec_hostLinkTraining (s : State) : exec (.hostLinkTraining) s = execHostLinkTraining s := rfl
@[simp] theorem exec_gtsSynchronisation (s : State) : exec (.gtsSynchronisation) s = execGtsSynchronisation s := rfl
@[simp] theorem exec_packetRetransmission (s : State) : exec (.packetRetransmission) s = execPacketRetransmission s := rfl

/-! ### The properties of each word -/

@[simp] theorem wordInfo_nop (f : WK) : wordInfo (.nop f) =
    { fmt := 2, c := f.c, s := f.s, pr := f.pr.toNat, pipe := .ct, scopes := 0x1 } := rfl
@[simp] theorem wordInfo_bra (f : WJ) : wordInfo (.bra f) =
    { fmt := 3, c := f.c, s := f.s, pr := f.pr.toNat, pipe := .ct, scopes := 0x1 } := rfl
@[simp] theorem wordInfo_brx (f : WA) : wordInfo (.brx f) =
    { fmt := 0, c := f.c, s := f.s, pr := f.pr.toNat, pipe := .ct, sc := f.sc.toNat, uses := [⟨.x, f.a.toNat, false⟩] } := rfl
@[simp] theorem wordInfo_call (f : WJ) : wordInfo (.call f) =
    { fmt := 3, c := f.c, s := f.s, pr := f.pr.toNat, pipe := .ct, scopes := 0x1, uses := [⟨.w, 14, true⟩] } := rfl
@[simp] theorem wordInfo_callx (f : WA) : wordInfo (.callx f) =
    { fmt := 0, c := f.c, s := f.s, pr := f.pr.toNat, pipe := .ct, sc := f.sc.toNat, uses := [⟨.x, f.a.toNat, false⟩, ⟨.w, 14, true⟩] } := rfl
@[simp] theorem wordInfo_ret (f : WA) : wordInfo (.ret f) =
    { fmt := 0, c := f.c, s := f.s, pr := f.pr.toNat, pipe := .ct, sc := f.sc.toNat } := rfl
@[simp] theorem wordInfo_exit (f : WA) : wordInfo (.exit f) =
    { fmt := 0, c := f.c, s := f.s, pr := f.pr.toNat, pipe := .ct, sc := f.sc.toNat } := rfl
@[simp] theorem wordInfo_yield (f : WK) : wordInfo (.yield f) =
    { fmt := 2, c := f.c, s := f.s, pr := f.pr.toNat, pipe := .ct, scopes := 0x1 } := rfl
@[simp] theorem wordInfo_sleep (f : WK) : wordInfo (.sleep f) =
    { fmt := 2, c := f.c, s := f.s, pr := f.pr.toNat, pipe := .ct, scopes := 0x1 } := rfl
@[simp] theorem wordInfo_pand (f : WA) : wordInfo (.pand f) =
    { fmt := 0, c := f.c, s := f.s, pr := f.pr.toNat, pipe := .ct, sc := f.sc.toNat, uses := [⟨.p, f.d.toNat, true⟩, ⟨.p, f.a.toNat, false⟩, ⟨.p, f.b.toNat, false⟩] } := rfl
@[simp] theorem wordInfo_por (f : WA) : wordInfo (.por f) =
    { fmt := 0, c := f.c, s := f.s, pr := f.pr.toNat, pipe := .ct, sc := f.sc.toNat, uses := [⟨.p, f.d.toNat, true⟩, ⟨.p, f.a.toNat, false⟩, ⟨.p, f.b.toNat, false⟩] } := rfl
@[simp] theorem wordInfo_pxor (f : WA) : wordInfo (.pxor f) =
    { fmt := 0, c := f.c, s := f.s, pr := f.pr.toNat, pipe := .ct, sc := f.sc.toNat, uses := [⟨.p, f.d.toNat, true⟩, ⟨.p, f.a.toNat, false⟩, ⟨.p, f.b.toNat, false⟩] } := rfl
@[simp] theorem wordInfo_pnot (f : WA) : wordInfo (.pnot f) =
    { fmt := 0, c := f.c, s := f.s, pr := f.pr.toNat, pipe := .ct, sc := f.sc.toNat, uses := [⟨.p, f.d.toNat, true⟩, ⟨.p, f.a.toNat, false⟩] } := rfl
@[simp] theorem wordInfo_voteAny (f : WA) : wordInfo (.voteAny f) =
    { fmt := 0, c := f.c, s := f.s, pr := f.pr.toNat, pipe := .ct, sc := f.sc.toNat, uses := [⟨.p, f.d.toNat, true⟩, ⟨.p, f.a.toNat, false⟩] } := rfl
@[simp] theorem wordInfo_voteAll (f : WA) : wordInfo (.voteAll f) =
    { fmt := 0, c := f.c, s := f.s, pr := f.pr.toNat, pipe := .ct, sc := f.sc.toNat, uses := [⟨.p, f.d.toNat, true⟩, ⟨.p, f.a.toNat, false⟩] } := rfl
@[simp] theorem wordInfo_voteBal (f : WA) : wordInfo (.voteBal f) =
    { fmt := 0, c := f.c, s := f.s, pr := f.pr.toNat, pipe := .ct, sc := f.sc.toNat, scopes := 0x3, uses := [⟨.w, f.d.toNat, true⟩, ⟨.p, f.a.toNat, false⟩] } := rfl
@[simp] theorem wordInfo_pset (cond : BitVec 4) (f : WA) : wordInfo (.pset cond f) =
    { fmt := 0, c := f.c, s := f.s, pr := f.pr.toNat, pipe := .v, sc := f.sc.toNat, uses := [⟨.p, f.d.toNat, true⟩, ⟨.w, f.a.toNat, false⟩, ⟨.w, f.b.toNat, false⟩], bad := decide (9 < cond.toNat) } := rfl
@[simp] theorem wordInfo_psetk (cond : BitVec 4) (f : WI) : wordInfo (.psetk cond f) =
    { fmt := 1, c := f.c, s := f.s, pr := f.pr.toNat, pipe := .v, sc := f.sc.toNat, uses := [⟨.p, f.d.toNat, true⟩, ⟨.w, f.a.toNat, false⟩], bad := decide (9 < cond.toNat) } := rfl
@[simp] theorem wordInfo_prd (f : WA) : wordInfo (.prd f) =
    { fmt := 0, c := f.c, s := f.s, pr := f.pr.toNat, pipe := .ct, sc := f.sc.toNat, uses := [⟨.w, f.d.toNat, true⟩, ⟨.p, f.a.toNat, false⟩] } := rfl
@[simp] theorem wordInfo_pwr (f : WA) : wordInfo (.pwr f) =
    { fmt := 0, c := f.c, s := f.s, pr := f.pr.toNat, pipe := .ct, sc := f.sc.toNat, uses := [⟨.p, f.d.toNat, true⟩, ⟨.w, f.a.toNat, false⟩] } := rfl
@[simp] theorem wordInfo_rep (f : WP) : wordInfo (.rep f) =
    { fmt := 7, c := f.c, s := f.s, pr := 3, pipe := .none, scopes := 0x1, bad := decide (f.cnt = 0) } := rfl
@[simp] theorem wordInfo_add (f : WA) : wordInfo (.add f) =
    { fmt := 0, c := f.c, s := f.s, pr := f.pr.toNat, pipe := .v, sc := f.sc.toNat, uses := [⟨.w, f.d.toNat, true⟩, ⟨.w, f.a.toNat, false⟩, ⟨.w, f.b.toNat, false⟩] } := rfl
@[simp] theorem wordInfo_sub (f : WA) : wordInfo (.sub f) =
    { fmt := 0, c := f.c, s := f.s, pr := f.pr.toNat, pipe := .v, sc := f.sc.toNat, uses := [⟨.w, f.d.toNat, true⟩, ⟨.w, f.a.toNat, false⟩, ⟨.w, f.b.toNat, false⟩] } := rfl
@[simp] theorem wordInfo_addk (f : WI) : wordInfo (.addk f) =
    { fmt := 1, c := f.c, s := f.s, pr := f.pr.toNat, pipe := .v, sc := f.sc.toNat, uses := [⟨.w, f.d.toNat, true⟩, ⟨.w, f.a.toNat, false⟩] } := rfl
@[simp] theorem wordInfo_adds (f : WA) : wordInfo (.adds f) =
    { fmt := 0, c := f.c, s := f.s, pr := f.pr.toNat, pipe := .v, sc := f.sc.toNat, uses := [⟨.w, f.d.toNat, true⟩, ⟨.w, f.a.toNat, false⟩, ⟨.w, f.b.toNat, false⟩] } := rfl
@[simp] theorem wordInfo_subs (f : WA) : wordInfo (.subs f) =
    { fmt := 0, c := f.c, s := f.s, pr := f.pr.toNat, pipe := .v, sc := f.sc.toNat, uses := [⟨.w, f.d.toNat, true⟩, ⟨.w, f.a.toNat, false⟩, ⟨.w, f.b.toNat, false⟩] } := rfl
@[simp] theorem wordInfo_mul (f : WA) : wordInfo (.mul f) =
    { fmt := 0, c := f.c, s := f.s, pr := f.pr.toNat, pipe := .v, sc := f.sc.toNat, uses := [⟨.w, f.d.toNat, true⟩, ⟨.w, f.a.toNat, false⟩, ⟨.w, f.b.toNat, false⟩] } := rfl
@[simp] theorem wordInfo_mulh (f : WA) : wordInfo (.mulh f) =
    { fmt := 0, c := f.c, s := f.s, pr := f.pr.toNat, pipe := .v, sc := f.sc.toNat, uses := [⟨.w, f.d.toNat, true⟩, ⟨.w, f.a.toNat, false⟩, ⟨.w, f.b.toNat, false⟩] } := rfl
@[simp] theorem wordInfo_mulhu (f : WA) : wordInfo (.mulhu f) =
    { fmt := 0, c := f.c, s := f.s, pr := f.pr.toNat, pipe := .v, sc := f.sc.toNat, uses := [⟨.w, f.d.toNat, true⟩, ⟨.w, f.a.toNat, false⟩, ⟨.w, f.b.toNat, false⟩] } := rfl
@[simp] theorem wordInfo_mad (f : WA) : wordInfo (.mad f) =
    { fmt := 0, c := f.c, s := f.s, pr := f.pr.toNat, pipe := .v, sc := f.sc.toNat, uses := [⟨.w, f.d.toNat, true⟩, ⟨.w, f.a.toNat, false⟩, ⟨.w, f.b.toNat, false⟩] } := rfl
@[simp] theorem wordInfo_min (f : WA) : wordInfo (.min f) =
    { fmt := 0, c := f.c, s := f.s, pr := f.pr.toNat, pipe := .v, sc := f.sc.toNat, uses := [⟨.w, f.d.toNat, true⟩, ⟨.w, f.a.toNat, false⟩, ⟨.w, f.b.toNat, false⟩] } := rfl
@[simp] theorem wordInfo_max (f : WA) : wordInfo (.max f) =
    { fmt := 0, c := f.c, s := f.s, pr := f.pr.toNat, pipe := .v, sc := f.sc.toNat, uses := [⟨.w, f.d.toNat, true⟩, ⟨.w, f.a.toNat, false⟩, ⟨.w, f.b.toNat, false⟩] } := rfl
@[simp] theorem wordInfo_minu (f : WA) : wordInfo (.minu f) =
    { fmt := 0, c := f.c, s := f.s, pr := f.pr.toNat, pipe := .v, sc := f.sc.toNat, uses := [⟨.w, f.d.toNat, true⟩, ⟨.w, f.a.toNat, false⟩, ⟨.w, f.b.toNat, false⟩] } := rfl
@[simp] theorem wordInfo_maxu (f : WA) : wordInfo (.maxu f) =
    { fmt := 0, c := f.c, s := f.s, pr := f.pr.toNat, pipe := .v, sc := f.sc.toNat, uses := [⟨.w, f.d.toNat, true⟩, ⟨.w, f.a.toNat, false⟩, ⟨.w, f.b.toNat, false⟩] } := rfl
@[simp] theorem wordInfo_and (f : WA) : wordInfo (.and f) =
    { fmt := 0, c := f.c, s := f.s, pr := f.pr.toNat, pipe := .v, sc := f.sc.toNat, uses := [⟨.w, f.d.toNat, true⟩, ⟨.w, f.a.toNat, false⟩, ⟨.w, f.b.toNat, false⟩] } := rfl
@[simp] theorem wordInfo_or (f : WA) : wordInfo (.or f) =
    { fmt := 0, c := f.c, s := f.s, pr := f.pr.toNat, pipe := .v, sc := f.sc.toNat, uses := [⟨.w, f.d.toNat, true⟩, ⟨.w, f.a.toNat, false⟩, ⟨.w, f.b.toNat, false⟩] } := rfl
@[simp] theorem wordInfo_xor (f : WA) : wordInfo (.xor f) =
    { fmt := 0, c := f.c, s := f.s, pr := f.pr.toNat, pipe := .v, sc := f.sc.toNat, uses := [⟨.w, f.d.toNat, true⟩, ⟨.w, f.a.toNat, false⟩, ⟨.w, f.b.toNat, false⟩] } := rfl
@[simp] theorem wordInfo_andn (f : WA) : wordInfo (.andn f) =
    { fmt := 0, c := f.c, s := f.s, pr := f.pr.toNat, pipe := .v, sc := f.sc.toNat, uses := [⟨.w, f.d.toNat, true⟩, ⟨.w, f.a.toNat, false⟩, ⟨.w, f.b.toNat, false⟩] } := rfl
@[simp] theorem wordInfo_shl (f : WA) : wordInfo (.shl f) =
    { fmt := 0, c := f.c, s := f.s, pr := f.pr.toNat, pipe := .v, sc := f.sc.toNat, uses := [⟨.w, f.d.toNat, true⟩, ⟨.w, f.a.toNat, false⟩, ⟨.w, f.b.toNat, false⟩] } := rfl
@[simp] theorem wordInfo_shr (f : WA) : wordInfo (.shr f) =
    { fmt := 0, c := f.c, s := f.s, pr := f.pr.toNat, pipe := .v, sc := f.sc.toNat, uses := [⟨.w, f.d.toNat, true⟩, ⟨.w, f.a.toNat, false⟩, ⟨.w, f.b.toNat, false⟩] } := rfl
@[simp] theorem wordInfo_sar (f : WA) : wordInfo (.sar f) =
    { fmt := 0, c := f.c, s := f.s, pr := f.pr.toNat, pipe := .v, sc := f.sc.toNat, uses := [⟨.w, f.d.toNat, true⟩, ⟨.w, f.a.toNat, false⟩, ⟨.w, f.b.toNat, false⟩] } := rfl
@[simp] theorem wordInfo_shli (f : WI) : wordInfo (.shli f) =
    { fmt := 1, c := f.c, s := f.s, pr := f.pr.toNat, pipe := .v, sc := f.sc.toNat, uses := [⟨.w, f.d.toNat, true⟩, ⟨.w, f.a.toNat, false⟩] } := rfl
@[simp] theorem wordInfo_shri (f : WI) : wordInfo (.shri f) =
    { fmt := 1, c := f.c, s := f.s, pr := f.pr.toNat, pipe := .v, sc := f.sc.toNat, uses := [⟨.w, f.d.toNat, true⟩, ⟨.w, f.a.toNat, false⟩] } := rfl
@[simp] theorem wordInfo_sari (f : WI) : wordInfo (.sari f) =
    { fmt := 1, c := f.c, s := f.s, pr := f.pr.toNat, pipe := .v, sc := f.sc.toNat, uses := [⟨.w, f.d.toNat, true⟩, ⟨.w, f.a.toNat, false⟩] } := rfl
@[simp] theorem wordInfo_sel (f : WA) : wordInfo (.sel f) =
    { fmt := 0, c := f.c, s := f.s, pr := f.pr.toNat, pipe := .v, sc := f.sc.toNat, uses := [⟨.w, f.d.toNat, true⟩, ⟨.w, f.a.toNat, false⟩, ⟨.w, f.b.toNat, false⟩] } := rfl
@[simp] theorem wordInfo_popc (f : WA) : wordInfo (.popc f) =
    { fmt := 0, c := f.c, s := f.s, pr := f.pr.toNat, pipe := .v, sc := f.sc.toNat, uses := [⟨.w, f.d.toNat, true⟩, ⟨.w, f.a.toNat, false⟩] } := rfl
@[simp] theorem wordInfo_clz (f : WA) : wordInfo (.clz f) =
    { fmt := 0, c := f.c, s := f.s, pr := f.pr.toNat, pipe := .v, sc := f.sc.toNat, uses := [⟨.w, f.d.toNat, true⟩, ⟨.w, f.a.toNat, false⟩] } := rfl
@[simp] theorem wordInfo_brev (f : WA) : wordInfo (.brev f) =
    { fmt := 0, c := f.c, s := f.s, pr := f.pr.toNat, pipe := .v, sc := f.sc.toNat, uses := [⟨.w, f.d.toNat, true⟩, ⟨.w, f.a.toNat, false⟩] } := rfl
@[simp] theorem wordInfo_bfx (f : WA) : wordInfo (.bfx f) =
    { fmt := 0, c := f.c, s := f.s, pr := f.pr.toNat, pipe := .v, sc := f.sc.toNat, uses := [⟨.w, f.d.toNat, true⟩, ⟨.w, f.a.toNat, false⟩, ⟨.w, f.b.toNat, false⟩] } := rfl
@[simp] theorem wordInfo_bfxs (f : WA) : wordInfo (.bfxs f) =
    { fmt := 0, c := f.c, s := f.s, pr := f.pr.toNat, pipe := .v, sc := f.sc.toNat, uses := [⟨.w, f.d.toNat, true⟩, ⟨.w, f.a.toNat, false⟩, ⟨.w, f.b.toNat, false⟩] } := rfl
@[simp] theorem wordInfo_bfi (f : WA) : wordInfo (.bfi f) =
    { fmt := 0, c := f.c, s := f.s, pr := f.pr.toNat, pipe := .v, sc := f.sc.toNat, uses := [⟨.w, f.d.toNat, true⟩, ⟨.w, f.a.toNat, false⟩, ⟨.w, f.b.toNat, false⟩] } := rfl
@[simp] theorem wordInfo_mov (f : WA) : wordInfo (.mov f) =
    { fmt := 0, c := f.c, s := f.s, pr := f.pr.toNat, pipe := .v, sc := f.sc.toNat, uses := [⟨.w, f.d.toNat, true⟩, ⟨.w, f.a.toNat, false⟩] } := rfl
@[simp] theorem wordInfo_movk (f : WK) : wordInfo (.movk f) =
    { fmt := 2, c := f.c, s := f.s, pr := f.pr.toNat, pipe := .v, scopes := 0x1, uses := [⟨.w, f.d.toNat, true⟩] } := rfl
@[simp] theorem wordInfo_shlk (f : WK) : wordInfo (.shlk f) =
    { fmt := 2, c := f.c, s := f.s, pr := f.pr.toNat, pipe := .v, scopes := 0x1, uses := [⟨.w, f.d.toNat, true⟩] } := rfl
@[simp] theorem wordInfo_movg (f : WA) : wordInfo (.movg f) =
    { fmt := 0, c := f.c, s := f.s, pr := f.pr.toNat, pipe := .ct, sc := f.sc.toNat, uses := [⟨.g, f.d.toNat, true⟩, ⟨.w, f.a.toNat, false⟩] } := rfl
@[simp] theorem wordInfo_movw (f : WA) : wordInfo (.movw f) =
    { fmt := 0, c := f.c, s := f.s, pr := f.pr.toNat, pipe := .ct, sc := f.sc.toNat, uses := [⟨.w, f.d.toNat, true⟩, ⟨.g, f.a.toNat, false⟩] } := rfl
@[simp] theorem wordInfo_add64 (f : WA) : wordInfo (.add64 f) =
    { fmt := 0, c := f.c, s := f.s, pr := f.pr.toNat, pipe := .v, sc := f.sc.toNat, uses := [⟨.x, f.d.toNat, true⟩, ⟨.x, f.a.toNat, false⟩, ⟨.x, f.b.toNat, false⟩] } := rfl
@[simp] theorem wordInfo_sub64 (f : WA) : wordInfo (.sub64 f) =
    { fmt := 0, c := f.c, s := f.s, pr := f.pr.toNat, pipe := .v, sc := f.sc.toNat, uses := [⟨.x, f.d.toNat, true⟩, ⟨.x, f.a.toNat, false⟩, ⟨.x, f.b.toNat, false⟩] } := rfl
@[simp] theorem wordInfo_addk64 (f : WI) : wordInfo (.addk64 f) =
    { fmt := 1, c := f.c, s := f.s, pr := f.pr.toNat, pipe := .v, sc := f.sc.toNat, uses := [⟨.x, f.d.toNat, true⟩, ⟨.x, f.a.toNat, false⟩] } := rfl
@[simp] theorem wordInfo_shl64 (f : WA) : wordInfo (.shl64 f) =
    { fmt := 0, c := f.c, s := f.s, pr := f.pr.toNat, pipe := .v, sc := f.sc.toNat, uses := [⟨.x, f.d.toNat, true⟩, ⟨.x, f.a.toNat, false⟩, ⟨.w, f.b.toNat, false⟩] } := rfl
@[simp] theorem wordInfo_shr64 (f : WA) : wordInfo (.shr64 f) =
    { fmt := 0, c := f.c, s := f.s, pr := f.pr.toNat, pipe := .v, sc := f.sc.toNat, uses := [⟨.x, f.d.toNat, true⟩, ⟨.x, f.a.toNat, false⟩, ⟨.w, f.b.toNat, false⟩] } := rfl
@[simp] theorem wordInfo_sext64 (f : WA) : wordInfo (.sext64 f) =
    { fmt := 0, c := f.c, s := f.s, pr := f.pr.toNat, pipe := .v, sc := f.sc.toNat, uses := [⟨.x, f.d.toNat, true⟩, ⟨.w, f.a.toNat, false⟩] } := rfl
@[simp] theorem wordInfo_zext64 (f : WA) : wordInfo (.zext64 f) =
    { fmt := 0, c := f.c, s := f.s, pr := f.pr.toNat, pipe := .v, sc := f.sc.toNat, uses := [⟨.x, f.d.toNat, true⟩, ⟨.w, f.a.toNat, false⟩] } := rfl
@[simp] theorem wordInfo_lea (sh : BitVec 3) (f : WA) : wordInfo (.lea sh f) =
    { fmt := 0, c := f.c, s := f.s, pr := f.pr.toNat, pipe := .v, sc := f.sc.toNat, uses := [⟨.x, f.d.toNat, true⟩, ⟨.x, f.a.toNat, false⟩, ⟨.w, f.b.toNat, false⟩] } := rfl
@[simp] theorem wordInfo_fadd (rm : BitVec 2) (f : WA) : wordInfo (.fadd rm f) =
    { fmt := 0, c := f.c, s := f.s, pr := f.pr.toNat, pipe := .v, sc := f.sc.toNat, uses := [⟨.w, f.d.toNat, true⟩, ⟨.w, f.a.toNat, false⟩, ⟨.w, f.b.toNat, false⟩] } := rfl
@[simp] theorem wordInfo_fsub (rm : BitVec 2) (f : WA) : wordInfo (.fsub rm f) =
    { fmt := 0, c := f.c, s := f.s, pr := f.pr.toNat, pipe := .v, sc := f.sc.toNat, uses := [⟨.w, f.d.toNat, true⟩, ⟨.w, f.a.toNat, false⟩, ⟨.w, f.b.toNat, false⟩] } := rfl
@[simp] theorem wordInfo_fmul (rm : BitVec 2) (f : WA) : wordInfo (.fmul rm f) =
    { fmt := 0, c := f.c, s := f.s, pr := f.pr.toNat, pipe := .v, sc := f.sc.toNat, uses := [⟨.w, f.d.toNat, true⟩, ⟨.w, f.a.toNat, false⟩, ⟨.w, f.b.toNat, false⟩] } := rfl
@[simp] theorem wordInfo_ffma (rm : BitVec 2) (f : WA) : wordInfo (.ffma rm f) =
    { fmt := 0, c := f.c, s := f.s, pr := f.pr.toNat, pipe := .v, sc := f.sc.toNat, uses := [⟨.w, f.d.toNat, true⟩, ⟨.w, f.a.toNat, false⟩, ⟨.w, f.b.toNat, false⟩] } := rfl
@[simp] theorem wordInfo_fmin (f : WA) : wordInfo (.fmin f) =
    { fmt := 0, c := f.c, s := f.s, pr := f.pr.toNat, pipe := .v, sc := f.sc.toNat, uses := [⟨.w, f.d.toNat, true⟩, ⟨.w, f.a.toNat, false⟩, ⟨.w, f.b.toNat, false⟩] } := rfl
@[simp] theorem wordInfo_fmax (f : WA) : wordInfo (.fmax f) =
    { fmt := 0, c := f.c, s := f.s, pr := f.pr.toNat, pipe := .v, sc := f.sc.toNat, uses := [⟨.w, f.d.toNat, true⟩, ⟨.w, f.a.toNat, false⟩, ⟨.w, f.b.toNat, false⟩] } := rfl
@[simp] theorem wordInfo_fabs (f : WA) : wordInfo (.fabs f) =
    { fmt := 0, c := f.c, s := f.s, pr := f.pr.toNat, pipe := .v, sc := f.sc.toNat, uses := [⟨.w, f.d.toNat, true⟩, ⟨.w, f.a.toNat, false⟩] } := rfl
@[simp] theorem wordInfo_fneg (f : WA) : wordInfo (.fneg f) =
    { fmt := 0, c := f.c, s := f.s, pr := f.pr.toNat, pipe := .v, sc := f.sc.toNat, uses := [⟨.w, f.d.toNat, true⟩, ⟨.w, f.a.toNat, false⟩] } := rfl
@[simp] theorem wordInfo_fsetEqToLe (cond : BitVec 2) (f : WA) : wordInfo (.fsetEqToLe cond f) =
    { fmt := 0, c := f.c, s := f.s, pr := f.pr.toNat, pipe := .v, sc := f.sc.toNat, uses := [⟨.p, f.d.toNat, true⟩, ⟨.w, f.a.toNat, false⟩, ⟨.w, f.b.toNat, false⟩] } := rfl
@[simp] theorem wordInfo_fsetGtToOr (cond : BitVec 2) (f : WA) : wordInfo (.fsetGtToOr cond f) =
    { fmt := 0, c := f.c, s := f.s, pr := f.pr.toNat, pipe := .v, sc := f.sc.toNat, uses := [⟨.p, f.d.toNat, true⟩, ⟨.w, f.a.toNat, false⟩, ⟨.w, f.b.toNat, false⟩] } := rfl
@[simp] theorem wordInfo_hadd2 (rm : BitVec 2) (f : WA) : wordInfo (.hadd2 rm f) =
    { fmt := 0, c := f.c, s := f.s, pr := f.pr.toNat, pipe := .v, sc := f.sc.toNat, uses := [⟨.w, f.d.toNat, true⟩, ⟨.w, f.a.toNat, false⟩, ⟨.w, f.b.toNat, false⟩] } := rfl
@[simp] theorem wordInfo_hsub2 (rm : BitVec 2) (f : WA) : wordInfo (.hsub2 rm f) =
    { fmt := 0, c := f.c, s := f.s, pr := f.pr.toNat, pipe := .v, sc := f.sc.toNat, uses := [⟨.w, f.d.toNat, true⟩, ⟨.w, f.a.toNat, false⟩, ⟨.w, f.b.toNat, false⟩] } := rfl
@[simp] theorem wordInfo_hmul2 (rm : BitVec 2) (f : WA) : wordInfo (.hmul2 rm f) =
    { fmt := 0, c := f.c, s := f.s, pr := f.pr.toNat, pipe := .v, sc := f.sc.toNat, uses := [⟨.w, f.d.toNat, true⟩, ⟨.w, f.a.toNat, false⟩, ⟨.w, f.b.toNat, false⟩] } := rfl
@[simp] theorem wordInfo_hfma2 (rm : BitVec 2) (f : WA) : wordInfo (.hfma2 rm f) =
    { fmt := 0, c := f.c, s := f.s, pr := f.pr.toNat, pipe := .v, sc := f.sc.toNat, uses := [⟨.w, f.d.toNat, true⟩, ⟨.w, f.a.toNat, false⟩, ⟨.w, f.b.toNat, false⟩] } := rfl
@[simp] theorem wordInfo_hmin2 (f : WA) : wordInfo (.hmin2 f) =
    { fmt := 0, c := f.c, s := f.s, pr := f.pr.toNat, pipe := .v, sc := f.sc.toNat, uses := [⟨.w, f.d.toNat, true⟩, ⟨.w, f.a.toNat, false⟩, ⟨.w, f.b.toNat, false⟩] } := rfl
@[simp] theorem wordInfo_hmax2 (f : WA) : wordInfo (.hmax2 f) =
    { fmt := 0, c := f.c, s := f.s, pr := f.pr.toNat, pipe := .v, sc := f.sc.toNat, uses := [⟨.w, f.d.toNat, true⟩, ⟨.w, f.a.toNat, false⟩, ⟨.w, f.b.toNat, false⟩] } := rfl
@[simp] theorem wordInfo_habs2 (f : WA) : wordInfo (.habs2 f) =
    { fmt := 0, c := f.c, s := f.s, pr := f.pr.toNat, pipe := .v, sc := f.sc.toNat, uses := [⟨.w, f.d.toNat, true⟩, ⟨.w, f.a.toNat, false⟩] } := rfl
@[simp] theorem wordInfo_hneg2 (f : WA) : wordInfo (.hneg2 f) =
    { fmt := 0, c := f.c, s := f.s, pr := f.pr.toNat, pipe := .v, sc := f.sc.toNat, uses := [⟨.w, f.d.toNat, true⟩, ⟨.w, f.a.toNat, false⟩] } := rfl
@[simp] theorem wordInfo_hdot2 (rm : BitVec 2) (f : WA) : wordInfo (.hdot2 rm f) =
    { fmt := 0, c := f.c, s := f.s, pr := f.pr.toNat, pipe := .v, sc := f.sc.toNat, uses := [⟨.w, f.d.toNat, true⟩, ⟨.w, f.a.toNat, false⟩, ⟨.w, f.b.toNat, false⟩] } := rfl
@[simp] theorem wordInfo_cvtBf16F32 (rm : BitVec 2) (f : WA) : wordInfo (.cvtBf16F32 rm f) =
    { fmt := 0, c := f.c, s := f.s, pr := f.pr.toNat, pipe := .v, sc := f.sc.toNat, uses := [⟨.w, f.d.toNat, true⟩, ⟨.w, f.a.toNat, false⟩, ⟨.w, f.b.toNat, false⟩] } := rfl
@[simp] theorem wordInfo_cvtF32Bf16l (f : WA) : wordInfo (.cvtF32Bf16l f) =
    { fmt := 0, c := f.c, s := f.s, pr := f.pr.toNat, pipe := .v, sc := f.sc.toNat, uses := [⟨.w, f.d.toNat, true⟩, ⟨.w, f.a.toNat, false⟩] } := rfl
@[simp] theorem wordInfo_cvtF32Bf16h (f : WA) : wordInfo (.cvtF32Bf16h f) =
    { fmt := 0, c := f.c, s := f.s, pr := f.pr.toNat, pipe := .v, sc := f.sc.toNat, uses := [⟨.w, f.d.toNat, true⟩, ⟨.w, f.a.toNat, false⟩] } := rfl
@[simp] theorem wordInfo_cvtE4m3Bf16 (rm : BitVec 2) (f : WA) : wordInfo (.cvtE4m3Bf16 rm f) =
    { fmt := 0, c := f.c, s := f.s, pr := f.pr.toNat, pipe := .v, sc := f.sc.toNat, uses := [⟨.w, f.d.toNat, true⟩, ⟨.w, f.a.toNat, false⟩, ⟨.w, f.b.toNat, false⟩] } := rfl
@[simp] theorem wordInfo_cvtE5m2Bf16 (rm : BitVec 2) (f : WA) : wordInfo (.cvtE5m2Bf16 rm f) =
    { fmt := 0, c := f.c, s := f.s, pr := f.pr.toNat, pipe := .v, sc := f.sc.toNat, uses := [⟨.w, f.d.toNat, true⟩, ⟨.w, f.a.toNat, false⟩, ⟨.w, f.b.toNat, false⟩] } := rfl
@[simp] theorem wordInfo_cvtBf16E4m3l (f : WA) : wordInfo (.cvtBf16E4m3l f) =
    { fmt := 0, c := f.c, s := f.s, pr := f.pr.toNat, pipe := .v, sc := f.sc.toNat, uses := [⟨.w, f.d.toNat, true⟩, ⟨.w, f.a.toNat, false⟩] } := rfl
@[simp] theorem wordInfo_cvtBf16E4m3h (f : WA) : wordInfo (.cvtBf16E4m3h f) =
    { fmt := 0, c := f.c, s := f.s, pr := f.pr.toNat, pipe := .v, sc := f.sc.toNat, uses := [⟨.w, f.d.toNat, true⟩, ⟨.w, f.a.toNat, false⟩] } := rfl
@[simp] theorem wordInfo_cvtBf16E5m2l (f : WA) : wordInfo (.cvtBf16E5m2l f) =
    { fmt := 0, c := f.c, s := f.s, pr := f.pr.toNat, pipe := .v, sc := f.sc.toNat, uses := [⟨.w, f.d.toNat, true⟩, ⟨.w, f.a.toNat, false⟩] } := rfl
@[simp] theorem wordInfo_cvtBf16E5m2h (f : WA) : wordInfo (.cvtBf16E5m2h f) =
    { fmt := 0, c := f.c, s := f.s, pr := f.pr.toNat, pipe := .v, sc := f.sc.toNat, uses := [⟨.w, f.d.toNat, true⟩, ⟨.w, f.a.toNat, false⟩] } := rfl
@[simp] theorem wordInfo_cvtS32F32 (rm : BitVec 2) (f : WA) : wordInfo (.cvtS32F32 rm f) =
    { fmt := 0, c := f.c, s := f.s, pr := f.pr.toNat, pipe := .v, sc := f.sc.toNat, uses := [⟨.w, f.d.toNat, true⟩, ⟨.w, f.a.toNat, false⟩] } := rfl
@[simp] theorem wordInfo_cvtU32F32 (rm : BitVec 2) (f : WA) : wordInfo (.cvtU32F32 rm f) =
    { fmt := 0, c := f.c, s := f.s, pr := f.pr.toNat, pipe := .v, sc := f.sc.toNat, uses := [⟨.w, f.d.toNat, true⟩, ⟨.w, f.a.toNat, false⟩] } := rfl
@[simp] theorem wordInfo_cvtF32S32 (rm : BitVec 2) (f : WA) : wordInfo (.cvtF32S32 rm f) =
    { fmt := 0, c := f.c, s := f.s, pr := f.pr.toNat, pipe := .v, sc := f.sc.toNat, uses := [⟨.w, f.d.toNat, true⟩, ⟨.w, f.a.toNat, false⟩] } := rfl
@[simp] theorem wordInfo_cvtF32U32 (rm : BitVec 2) (f : WA) : wordInfo (.cvtF32U32 rm f) =
    { fmt := 0, c := f.c, s := f.s, pr := f.pr.toNat, pipe := .v, sc := f.sc.toNat, uses := [⟨.w, f.d.toNat, true⟩, ⟨.w, f.a.toNat, false⟩] } := rfl
@[simp] theorem wordInfo_cvtS4S8 (f : WA) : wordInfo (.cvtS4S8 f) =
    { fmt := 0, c := f.c, s := f.s, pr := f.pr.toNat, pipe := .v, sc := f.sc.toNat, uses := [⟨.w, f.d.toNat, true⟩, ⟨.w, f.a.toNat, false⟩, ⟨.w, f.b.toNat, false⟩] } := rfl
@[simp] theorem wordInfo_cvtS8S4l (f : WA) : wordInfo (.cvtS8S4l f) =
    { fmt := 0, c := f.c, s := f.s, pr := f.pr.toNat, pipe := .v, sc := f.sc.toNat, uses := [⟨.w, f.d.toNat, true⟩, ⟨.w, f.a.toNat, false⟩] } := rfl
@[simp] theorem wordInfo_cvtS8S4h (f : WA) : wordInfo (.cvtS8S4h f) =
    { fmt := 0, c := f.c, s := f.s, pr := f.pr.toNat, pipe := .v, sc := f.sc.toNat, uses := [⟨.w, f.d.toNat, true⟩, ⟨.w, f.a.toNat, false⟩] } := rfl
@[simp] theorem wordInfo_frred (f : WA) : wordInfo (.frred f) =
    { fmt := 0, c := f.c, s := f.s, pr := f.pr.toNat, pipe := .sf, sc := f.sc.toNat, uses := [⟨.x, f.d.toNat, true⟩, ⟨.w, f.a.toNat, false⟩] } := rfl
@[simp] theorem wordInfo_fsinr (f : WA) : wordInfo (.fsinr f) =
    { fmt := 0, c := f.c, s := f.s, pr := f.pr.toNat, pipe := .sf, sc := f.sc.toNat, uses := [⟨.w, f.d.toNat, true⟩, ⟨.w, f.a.toNat, false⟩, ⟨.w, f.b.toNat, false⟩] } := rfl
@[simp] theorem wordInfo_fcosr (f : WA) : wordInfo (.fcosr f) =
    { fmt := 0, c := f.c, s := f.s, pr := f.pr.toNat, pipe := .sf, sc := f.sc.toNat, uses := [⟨.w, f.d.toNat, true⟩, ⟨.w, f.a.toNat, false⟩, ⟨.w, f.b.toNat, false⟩] } := rfl
@[simp] theorem wordInfo_fexp2 (f : WA) : wordInfo (.fexp2 f) =
    { fmt := 0, c := f.c, s := f.s, pr := f.pr.toNat, pipe := .sf, sc := f.sc.toNat, uses := [⟨.w, f.d.toNat, true⟩, ⟨.w, f.a.toNat, false⟩] } := rfl
@[simp] theorem wordInfo_flog2 (f : WA) : wordInfo (.flog2 f) =
    { fmt := 0, c := f.c, s := f.s, pr := f.pr.toNat, pipe := .sf, sc := f.sc.toNat, uses := [⟨.w, f.d.toNat, true⟩, ⟨.w, f.a.toNat, false⟩] } := rfl
@[simp] theorem wordInfo_frcp (f : WA) : wordInfo (.frcp f) =
    { fmt := 0, c := f.c, s := f.s, pr := f.pr.toNat, pipe := .sf, sc := f.sc.toNat, uses := [⟨.w, f.d.toNat, true⟩, ⟨.w, f.a.toNat, false⟩] } := rfl
@[simp] theorem wordInfo_frsq (f : WA) : wordInfo (.frsq f) =
    { fmt := 0, c := f.c, s := f.s, pr := f.pr.toNat, pipe := .sf, sc := f.sc.toNat, uses := [⟨.w, f.d.toNat, true⟩, ⟨.w, f.a.toNat, false⟩] } := rfl
@[simp] theorem wordInfo_fsqrt (f : WA) : wordInfo (.fsqrt f) =
    { fmt := 0, c := f.c, s := f.s, pr := f.pr.toNat, pipe := .sf, sc := f.sc.toNat, uses := [⟨.w, f.d.toNat, true⟩, ⟨.w, f.a.toNat, false⟩] } := rfl
@[simp] theorem wordInfo_lswpP (f : WA) : wordInfo (.lswpP f) =
    { fmt := 0, c := f.c, s := f.s, pr := f.pr.toNat, pipe := .v, sc := f.sc.toNat, scopes := 0x7, uses := [⟨.w, f.d.toNat, true⟩, ⟨.w, f.a.toNat, false⟩] } := rfl
@[simp] theorem wordInfo_lshf (f : WI) : wordInfo (.lshf f) =
    { fmt := 1, c := f.c, s := f.s, pr := f.pr.toNat, pipe := .v, sc := f.sc.toNat, scopes := 0x7, uses := [⟨.w, f.d.toNat, true⟩, ⟨.w, f.a.toNat, false⟩] } := rfl
@[simp] theorem wordInfo_lbcast (f : WI) : wordInfo (.lbcast f) =
    { fmt := 1, c := f.c, s := f.s, pr := f.pr.toNat, pipe := .v, sc := f.sc.toNat, scopes := 0x7, uses := [⟨.w, f.d.toNat, true⟩, ⟨.w, f.a.toNat, false⟩], late := decide (f.sc.toNat < 2 ∧ 31 < f.k.toNat) } := rfl
@[simp] theorem wordInfo_lxor (f : WI) : wordInfo (.lxor f) =
    { fmt := 1, c := f.c, s := f.s, pr := f.pr.toNat, pipe := .v, sc := f.sc.toNat, scopes := 0x7, uses := [⟨.w, f.d.toNat, true⟩, ⟨.w, f.a.toNat, false⟩], late := decide (f.sc.toNat < 2 ∧ 31 < f.k.toNat) } := rfl
@[simp] theorem wordInfo_lidx (f : WA) : wordInfo (.lidx f) =
    { fmt := 0, c := f.c, s := f.s, pr := f.pr.toNat, pipe := .v, sc := f.sc.toNat, scopes := 0x7, uses := [⟨.w, f.d.toNat, true⟩, ⟨.w, f.a.toNat, false⟩, ⟨.w, f.b.toNat, false⟩] } := rfl
@[simp] theorem wordInfo_lrot (f : WI) : wordInfo (.lrot f) =
    { fmt := 1, c := f.c, s := f.s, pr := f.pr.toNat, pipe := .v, sc := f.sc.toNat, scopes := 0x7, uses := [⟨.w, f.d.toNat, true⟩, ⟨.w, f.a.toNat, false⟩] } := rfl
@[simp] theorem wordInfo_ldG (sz : BitVec 3) (f : WM) : wordInfo (.ldG sz f) =
    { fmt := 4, c := f.c, s := f.s, pr := f.pr.toNat, pipe := .me, sc := f.sc.toNat, uses := [⟨ldClass sz, f.d.toNat, true⟩, ⟨.x, f.a.toNat, false⟩], bad := decide (6 < sz.toNat) } := rfl
@[simp] theorem wordInfo_ldS (sz : BitVec 3) (f : WM) : wordInfo (.ldS sz f) =
    { fmt := 4, c := f.c, s := f.s, pr := f.pr.toNat, pipe := .me, sc := f.sc.toNat, uses := [⟨ldClass sz, f.d.toNat, true⟩, ⟨.w, f.a.toNat, false⟩], bad := decide (6 < sz.toNat) } := rfl
@[simp] theorem wordInfo_ldE (sz : BitVec 3) (f : WM) : wordInfo (.ldE sz f) =
    { fmt := 4, c := f.c, s := f.s, pr := f.pr.toNat, pipe := .me, sc := f.sc.toNat, uses := [⟨ldClass sz, f.d.toNat, true⟩, ⟨.w, f.a.toNat, false⟩], bad := decide (6 < sz.toNat) } := rfl
@[simp] theorem wordInfo_stG (sz : BitVec 3) (f : WM) : wordInfo (.stG sz f) =
    { fmt := 4, c := f.c, s := f.s, pr := f.pr.toNat, pipe := .me, sc := f.sc.toNat, uses := [⟨stClass sz, f.d.toNat, false⟩, ⟨.x, f.a.toNat, false⟩], bad := decide (4 < sz.toNat) } := rfl
@[simp] theorem wordInfo_stS (sz : BitVec 3) (f : WM) : wordInfo (.stS sz f) =
    { fmt := 4, c := f.c, s := f.s, pr := f.pr.toNat, pipe := .me, sc := f.sc.toNat, uses := [⟨stClass sz, f.d.toNat, false⟩, ⟨.w, f.a.toNat, false⟩], bad := decide (4 < sz.toNat) } := rfl
@[simp] theorem wordInfo_stE (sz : BitVec 3) (f : WM) : wordInfo (.stE sz f) =
    { fmt := 4, c := f.c, s := f.s, pr := f.pr.toNat, pipe := .me, sc := f.sc.toNat, uses := [⟨stClass sz, f.d.toNat, false⟩, ⟨.w, f.a.toNat, false⟩], bad := decide (4 < sz.toNat) } := rfl
@[simp] theorem wordInfo_prefL1 (f : WM) : wordInfo (.prefL1 f) =
    { fmt := 4, c := f.c, s := f.s, pr := f.pr.toNat, pipe := .me, sc := f.sc.toNat, scopes := 0x1, uses := [⟨.x, f.a.toNat, false⟩] } := rfl
@[simp] theorem wordInfo_prefL2 (f : WM) : wordInfo (.prefL2 f) =
    { fmt := 4, c := f.c, s := f.s, pr := f.pr.toNat, pipe := .me, sc := f.sc.toNat, scopes := 0x1, uses := [⟨.x, f.a.toNat, false⟩] } := rfl
@[simp] theorem wordInfo_atomAdd (ms : BitVec 2) (f : WMA) : wordInfo (.atomAdd ms f) =
    { fmt := 5, c := f.c, s := f.s, pr := f.pr.toNat, pipe := .me, scopes := 0x1, uses := [⟨.w, f.d.toNat, true⟩, ⟨.x, f.a.toNat, false⟩, ⟨.w, f.b.toNat, false⟩] } := rfl
@[simp] theorem wordInfo_atomMin (ms : BitVec 2) (f : WMA) : wordInfo (.atomMin ms f) =
    { fmt := 5, c := f.c, s := f.s, pr := f.pr.toNat, pipe := .me, scopes := 0x1, uses := [⟨.w, f.d.toNat, true⟩, ⟨.x, f.a.toNat, false⟩, ⟨.w, f.b.toNat, false⟩] } := rfl
@[simp] theorem wordInfo_atomMax (ms : BitVec 2) (f : WMA) : wordInfo (.atomMax ms f) =
    { fmt := 5, c := f.c, s := f.s, pr := f.pr.toNat, pipe := .me, scopes := 0x1, uses := [⟨.w, f.d.toNat, true⟩, ⟨.x, f.a.toNat, false⟩, ⟨.w, f.b.toNat, false⟩] } := rfl
@[simp] theorem wordInfo_atomMinu (ms : BitVec 2) (f : WMA) : wordInfo (.atomMinu ms f) =
    { fmt := 5, c := f.c, s := f.s, pr := f.pr.toNat, pipe := .me, scopes := 0x1, uses := [⟨.w, f.d.toNat, true⟩, ⟨.x, f.a.toNat, false⟩, ⟨.w, f.b.toNat, false⟩] } := rfl
@[simp] theorem wordInfo_atomMaxu (ms : BitVec 2) (f : WMA) : wordInfo (.atomMaxu ms f) =
    { fmt := 5, c := f.c, s := f.s, pr := f.pr.toNat, pipe := .me, scopes := 0x1, uses := [⟨.w, f.d.toNat, true⟩, ⟨.x, f.a.toNat, false⟩, ⟨.w, f.b.toNat, false⟩] } := rfl
@[simp] theorem wordInfo_atomAnd (ms : BitVec 2) (f : WMA) : wordInfo (.atomAnd ms f) =
    { fmt := 5, c := f.c, s := f.s, pr := f.pr.toNat, pipe := .me, scopes := 0x1, uses := [⟨.w, f.d.toNat, true⟩, ⟨.x, f.a.toNat, false⟩, ⟨.w, f.b.toNat, false⟩] } := rfl
@[simp] theorem wordInfo_atomOr (ms : BitVec 2) (f : WMA) : wordInfo (.atomOr ms f) =
    { fmt := 5, c := f.c, s := f.s, pr := f.pr.toNat, pipe := .me, scopes := 0x1, uses := [⟨.w, f.d.toNat, true⟩, ⟨.x, f.a.toNat, false⟩, ⟨.w, f.b.toNat, false⟩] } := rfl
@[simp] theorem wordInfo_atomXor (ms : BitVec 2) (f : WMA) : wordInfo (.atomXor ms f) =
    { fmt := 5, c := f.c, s := f.s, pr := f.pr.toNat, pipe := .me, scopes := 0x1, uses := [⟨.w, f.d.toNat, true⟩, ⟨.x, f.a.toNat, false⟩, ⟨.w, f.b.toNat, false⟩] } := rfl
@[simp] theorem wordInfo_atomExch (ms : BitVec 2) (f : WMA) : wordInfo (.atomExch ms f) =
    { fmt := 5, c := f.c, s := f.s, pr := f.pr.toNat, pipe := .me, scopes := 0x1, uses := [⟨.w, f.d.toNat, true⟩, ⟨.x, f.a.toNat, false⟩, ⟨.w, f.b.toNat, false⟩] } := rfl
@[simp] theorem wordInfo_atomCas (ms : BitVec 2) (f : WMA) : wordInfo (.atomCas ms f) =
    { fmt := 5, c := f.c, s := f.s, pr := f.pr.toNat, pipe := .me, scopes := 0x1, uses := [⟨.w, f.d.toNat, true⟩, ⟨.x, f.a.toNat, false⟩, ⟨.pair, f.b.toNat, false⟩] } := rfl
@[simp] theorem wordInfo_atomLd (ms : BitVec 2) (f : WMA) : wordInfo (.atomLd ms f) =
    { fmt := 5, c := f.c, s := f.s, pr := f.pr.toNat, pipe := .me, scopes := 0x1, uses := [⟨.w, f.d.toNat, true⟩, ⟨.x, f.a.toNat, false⟩], bad := decide (f.mo = 2) } := rfl
@[simp] theorem wordInfo_atomSt (ms : BitVec 2) (f : WMA) : wordInfo (.atomSt ms f) =
    { fmt := 5, c := f.c, s := f.s, pr := f.pr.toNat, pipe := .me, scopes := 0x1, uses := [⟨.x, f.a.toNat, false⟩, ⟨.w, f.b.toNat, false⟩], bad := decide (f.mo = 1) } := rfl
@[simp] theorem wordInfo_atomFadd (ms : BitVec 2) (f : WMA) : wordInfo (.atomFadd ms f) =
    { fmt := 5, c := f.c, s := f.s, pr := f.pr.toNat, pipe := .me, scopes := 0x1, uses := [⟨.w, f.d.toNat, true⟩, ⟨.x, f.a.toNat, false⟩, ⟨.w, f.b.toNat, false⟩] } := rfl
@[simp] theorem wordInfo_atomAdd64 (ms : BitVec 2) (f : WMA) : wordInfo (.atomAdd64 ms f) =
    { fmt := 5, c := f.c, s := f.s, pr := f.pr.toNat, pipe := .me, scopes := 0x1, uses := [⟨.x, f.d.toNat, true⟩, ⟨.x, f.a.toNat, false⟩, ⟨.x, f.b.toNat, false⟩] } := rfl
@[simp] theorem wordInfo_fenceE (f : WA) : wordInfo (.fenceE f) =
    { fmt := 0, c := f.c, s := f.s, pr := f.pr.toNat, pipe := .me } := rfl
@[simp] theorem wordInfo_dfence (f : WA) : wordInfo (.dfence f) =
    { fmt := 0, c := f.c, s := f.s, pr := f.pr.toNat, pipe := .me } := rfl
@[simp] theorem wordInfo_drainst (f : WA) : wordInfo (.drainst f) =
    { fmt := 0, c := f.c, s := f.s, pr := f.pr.toNat, pipe := .me } := rfl
@[simp] theorem wordInfo_sfrd (f : WA) : wordInfo (.sfrd f) =
    { fmt := 0, c := f.c, s := f.s, pr := f.pr.toNat, pipe := .me, sc := f.sc.toNat, scopes := 0x3, uses := [⟨.x, f.d.toNat, true⟩], late := decide (5 < f.a.toNat) } := rfl
@[simp] theorem wordInfo_sfpop (f : WA) : wordInfo (.sfpop f) =
    { fmt := 0, c := f.c, s := f.s, pr := f.pr.toNat, pipe := .me, sc := f.sc.toNat, scopes := 0x3 } := rfl
@[simp] theorem wordInfo_sfcnt (f : WA) : wordInfo (.sfcnt f) =
    { fmt := 0, c := f.c, s := f.s, pr := f.pr.toNat, pipe := .me, sc := f.sc.toNat, scopes := 0x3, uses := [⟨.w, f.d.toNat, true⟩] } := rfl
@[simp] theorem wordInfo_smap (f : WA) : wordInfo (.smap f) =
    { fmt := 0, c := f.c, s := f.s, pr := f.pr.toNat, pipe := .me, sc := f.sc.toNat, uses := [⟨.w, f.d.toNat, false⟩, ⟨.x, f.a.toNat, false⟩, ⟨.w, f.b.toNat, false⟩] } := rfl
@[simp] theorem wordInfo_sunmap (f : WA) : wordInfo (.sunmap f) =
    { fmt := 0, c := f.c, s := f.s, pr := f.pr.toNat, pipe := .me, sc := f.sc.toNat, uses := [⟨.w, f.a.toNat, false⟩] } := rfl
@[simp] theorem wordInfo_swb (f : WA) : wordInfo (.swb f) =
    { fmt := 0, c := f.c, s := f.s, pr := f.pr.toNat, pipe := .me, sc := f.sc.toNat, uses := [⟨.w, f.a.toNat, false⟩, ⟨.w, f.b.toNat, false⟩] } := rfl
@[simp] theorem wordInfo_sinv (f : WA) : wordInfo (.sinv f) =
    { fmt := 0, c := f.c, s := f.s, pr := f.pr.toNat, pipe := .me, sc := f.sc.toNat, uses := [⟨.w, f.a.toNat, false⟩, ⟨.w, f.b.toNat, false⟩] } := rfl
@[simp] theorem wordInfo_xacq (f : WA) : wordInfo (.xacq f) =
    { fmt := 0, c := f.c, s := f.s, pr := f.pr.toNat, pipe := .ct, sc := f.sc.toNat, scopes := 0x2 } := rfl
@[simp] theorem wordInfo_xrel (f : WA) : wordInfo (.xrel f) =
    { fmt := 0, c := f.c, s := f.s, pr := f.pr.toNat, pipe := .ct, sc := f.sc.toNat, scopes := 0x2 } := rfl
@[simp] theorem wordInfo_xtry (f : WA) : wordInfo (.xtry f) =
    { fmt := 0, c := f.c, s := f.s, pr := f.pr.toNat, pipe := .ct, sc := f.sc.toNat, scopes := 0x2, uses := [⟨.w, f.d.toNat, true⟩] } := rfl
@[simp] theorem wordInfo_sdecl (f : WA) : wordInfo (.sdecl f) =
    { fmt := 0, c := f.c, s := f.s, pr := f.pr.toNat, pipe := .ct, sc := f.sc.toNat, scopes := 0x2, uses := [⟨.w, f.d.toNat, true⟩, ⟨.w, f.a.toNat, false⟩, ⟨.w, f.b.toNat, false⟩] } := rfl
@[simp] theorem wordInfo_sleave (f : WA) : wordInfo (.sleave f) =
    { fmt := 0, c := f.c, s := f.s, pr := f.pr.toNat, pipe := .ct, sc := f.sc.toNat, scopes := 0x2 } := rfl
@[simp] theorem wordInfo_sinfo (f : WA) : wordInfo (.sinfo f) =
    { fmt := 0, c := f.c, s := f.s, pr := f.pr.toNat, pipe := .ct, sc := f.sc.toNat, scopes := 0x3, uses := [⟨.x, f.d.toNat, true⟩] } := rfl
@[simp] theorem wordInfo_binit (f : WA) : wordInfo (.binit f) =
    { fmt := 0, c := f.c, s := f.s, pr := f.pr.toNat, pipe := .ct, sc := f.sc.toNat, scopes := 0x3, uses := [⟨.w, f.d.toNat, true⟩, ⟨.w, f.a.toNat, false⟩, ⟨.w, f.b.toNat, false⟩] } := rfl
@[simp] theorem wordInfo_barv (f : WA) : wordInfo (.barv f) =
    { fmt := 0, c := f.c, s := f.s, pr := f.pr.toNat, pipe := .ct, sc := f.sc.toNat, uses := [⟨.w, f.d.toNat, true⟩, ⟨.x, f.a.toNat, false⟩, ⟨.w, f.b.toNat, false⟩] } := rfl
@[simp] theorem wordInfo_bwait (f : WA) : wordInfo (.bwait f) =
    { fmt := 0, c := f.c, s := f.s, pr := f.pr.toNat, pipe := .ct, sc := f.sc.toNat, uses := [⟨.w, f.a.toNat, false⟩, ⟨.w, f.b.toNat, false⟩] } := rfl
@[simp] theorem wordInfo_bsync (f : WA) : wordInfo (.bsync f) =
    { fmt := 0, c := f.c, s := f.s, pr := f.pr.toNat, pipe := .ct, sc := f.sc.toNat, uses := [⟨.w, f.d.toNat, true⟩, ⟨.x, f.a.toNat, false⟩, ⟨.w, f.b.toNat, false⟩] } := rfl
@[simp] theorem wordInfo_bgen (f : WA) : wordInfo (.bgen f) =
    { fmt := 0, c := f.c, s := f.s, pr := f.pr.toNat, pipe := .ct, sc := f.sc.toNat, scopes := 0x3, uses := [⟨.x, f.d.toNat, true⟩, ⟨.w, f.b.toNat, false⟩] } := rfl
@[simp] theorem wordInfo_redb (f : WA) : wordInfo (.redb f) =
    { fmt := 0, c := f.c, s := f.s, pr := f.pr.toNat, pipe := .ct, sc := f.sc.toNat, scopes := 0x8, uses := [⟨.w, f.d.toNat, true⟩] } := rfl
@[simp] theorem wordInfo_redw (f : WA) : wordInfo (.redw f) =
    { fmt := 0, c := f.c, s := f.s, pr := f.pr.toNat, pipe := .ct, sc := f.sc.toNat, scopes := 0x8, uses := [⟨.w, f.d.toNat, true⟩, ⟨.w, f.a.toNat, false⟩, ⟨.w, f.b.toNat, false⟩] } := rfl
@[simp] theorem wordInfo_redq (f : WA) : wordInfo (.redq f) =
    { fmt := 0, c := f.c, s := f.s, pr := f.pr.toNat, pipe := .ct, sc := f.sc.toNat, scopes := 0x3, uses := [⟨.x, f.d.toNat, true⟩] } := rfl
@[simp] theorem wordInfo_tmma (f : WA) : wordInfo (.tmma f) =
    { fmt := 0, c := f.c, s := f.s, pr := f.pr.toNat, pipe := .en, sc := f.sc.toNat, uses := [⟨.x, f.d.toNat, true⟩, ⟨.x, f.a.toNat, false⟩, ⟨.x, f.b.toNat, false⟩] } := rfl
@[simp] theorem wordInfo_tzero (f : WA) : wordInfo (.tzero f) =
    { fmt := 0, c := f.c, s := f.s, pr := f.pr.toNat, pipe := .en, sc := f.sc.toNat, uses := [⟨.z, f.d.toNat, false⟩] } := rfl
@[simp] theorem wordInfo_tres (f : WA) : wordInfo (.tres f) =
    { fmt := 0, c := f.c, s := f.s, pr := f.pr.toNat, pipe := .en, sc := f.sc.toNat, uses := [⟨.z, f.d.toNat, false⟩] } := rfl
@[simp] theorem wordInfo_tcmp (f : WA) : wordInfo (.tcmp f) =
    { fmt := 0, c := f.c, s := f.s, pr := f.pr.toNat, pipe := .en, sc := f.sc.toNat, uses := [⟨.x, f.d.toNat, true⟩, ⟨.z, f.a.toNat, false⟩] } := rfl
@[simp] theorem wordInfo_tdrain (rm : BitVec 2) (f : WA) : wordInfo (.tdrain rm f) =
    { fmt := 0, c := f.c, s := f.s, pr := f.pr.toNat, pipe := .en, sc := f.sc.toNat, uses := [⟨.x, f.d.toNat, true⟩, ⟨.x, f.a.toNat, false⟩, ⟨.x, f.b.toNat, false⟩] } := rfl
@[simp] theorem wordInfo_tcmpX (f : WA) : wordInfo (.tcmpX f) =
    { fmt := 0, c := f.c, s := f.s, pr := f.pr.toNat, pipe := .en, sc := f.sc.toNat, uses := [⟨.x, f.d.toNat, true⟩, ⟨.z, f.a.toNat, false⟩] } := rfl
@[simp] theorem wordInfo_tsave (f : WA) : wordInfo (.tsave f) =
    { fmt := 0, c := f.c, s := f.s, pr := f.pr.toNat, pipe := .en, sc := f.sc.toNat, uses := [⟨.x, f.d.toNat, true⟩, ⟨.x, f.a.toNat, false⟩, ⟨.z, f.b.toNat, false⟩] } := rfl
@[simp] theorem wordInfo_tsaveC (f : WA) : wordInfo (.tsaveC f) =
    { fmt := 0, c := f.c, s := f.s, pr := f.pr.toNat, pipe := .en, sc := f.sc.toNat, uses := [⟨.x, f.d.toNat, true⟩, ⟨.x, f.a.toNat, false⟩, ⟨.z, f.b.toNat, false⟩] } := rfl
@[simp] theorem wordInfo_tload (f : WA) : wordInfo (.tload f) =
    { fmt := 0, c := f.c, s := f.s, pr := f.pr.toNat, pipe := .en, sc := f.sc.toNat, uses := [⟨.x, f.d.toNat, true⟩, ⟨.x, f.a.toNat, false⟩, ⟨.z, f.b.toNat, false⟩] } := rfl
@[simp] theorem wordInfo_tplane (f : WA) : wordInfo (.tplane f) =
    { fmt := 0, c := f.c, s := f.s, pr := f.pr.toNat, pipe := .en, sc := f.sc.toNat, uses := [⟨.x, f.d.toNat, true⟩, ⟨.x, f.a.toNat, false⟩, ⟨.w, f.b.toNat, false⟩] } := rfl
@[simp] theorem wordInfo_twait (f : WA) : wordInfo (.twait f) =
    { fmt := 0, c := f.c, s := f.s, pr := f.pr.toNat, pipe := .en, sc := f.sc.toNat, uses := [⟨.w, f.a.toNat, false⟩] } := rfl
@[simp] theorem wordInfo_twaitAll (f : WA) : wordInfo (.twaitAll f) =
    { fmt := 0, c := f.c, s := f.s, pr := f.pr.toNat, pipe := .en, sc := f.sc.toNat } := rfl
@[simp] theorem wordInfo_tstat (f : WA) : wordInfo (.tstat f) =
    { fmt := 0, c := f.c, s := f.s, pr := f.pr.toNat, pipe := .en, sc := f.sc.toNat, uses := [⟨.x, f.d.toNat, true⟩, ⟨.z, f.a.toNat, false⟩] } := rfl
@[simp] theorem wordInfo_tmov (f : WA) : wordInfo (.tmov f) =
    { fmt := 0, c := f.c, s := f.s, pr := f.pr.toNat, pipe := .en, sc := f.sc.toNat, uses := [⟨.z, f.d.toNat, false⟩, ⟨.z, f.a.toNat, false⟩] } := rfl
@[simp] theorem wordInfo_cpy (q : BitVec 2) (f : WA) : wordInfo (.cpy q f) =
    { fmt := 0, c := f.c, s := f.s, pr := f.pr.toNat, pipe := .en, sc := f.sc.toNat, uses := [⟨.x, f.d.toNat, true⟩, ⟨.x, f.a.toNat, false⟩, ⟨.x, f.b.toNat, false⟩] } := rfl
@[simp] theorem wordInfo_cpyN (f : WA) : wordInfo (.cpyN f) =
    { fmt := 0, c := f.c, s := f.s, pr := f.pr.toNat, pipe := .en, sc := f.sc.toNat, uses := [⟨.x, f.d.toNat, true⟩, ⟨.x, f.a.toNat, false⟩, ⟨.x, f.b.toNat, false⟩] } := rfl
@[simp] theorem wordInfo_gath (f : WA) : wordInfo (.gath f) =
    { fmt := 0, c := f.c, s := f.s, pr := f.pr.toNat, pipe := .en, sc := f.sc.toNat, uses := [⟨.x, f.d.toNat, true⟩, ⟨.x, f.a.toNat, false⟩, ⟨.x, f.b.toNat, false⟩] } := rfl
@[simp] theorem wordInfo_cseal (f : WA) : wordInfo (.cseal f) =
    { fmt := 0, c := f.c, s := f.s, pr := f.pr.toNat, pipe := .en, sc := f.sc.toNat, uses := [⟨.w, f.d.toNat, true⟩] } := rfl
@[simp] theorem wordInfo_cwait (f : WI) : wordInfo (.cwait f) =
    { fmt := 1, c := f.c, s := f.s, pr := f.pr.toNat, pipe := .en, sc := f.sc.toNat, late := decide (15 < f.k.toNat) } := rfl
@[simp] theorem wordInfo_sleepP (f : WA) : wordInfo (.sleepP f) =
    { fmt := 0, c := f.c, s := f.s, pr := f.pr.toNat, pipe := .en, sc := f.sc.toNat, scopes := 0x3, uses := [⟨.w, f.a.toNat, false⟩] } := rfl
@[simp] theorem wordInfo_qfence (f : WI) : wordInfo (.qfence f) =
    { fmt := 1, c := f.c, s := f.s, pr := f.pr.toNat, pipe := .en, sc := f.sc.toNat, scopes := 0x1, late := fewTwo f.k.toNat } := rfl
@[simp] theorem wordInfo_coll (f : WA) : wordInfo (.coll f) =
    { fmt := 0, c := f.c, s := f.s, pr := f.pr.toNat, pipe := .en, sc := f.sc.toNat, uses := [⟨.x, f.d.toNat, true⟩, ⟨.x, f.a.toNat, false⟩, ⟨.x, f.b.toNat, false⟩] } := rfl
@[simp] theorem wordInfo_leader (f : WA) : wordInfo (.leader f) =
    { fmt := 0, c := f.c, s := f.s, pr := f.pr.toNat, pipe := .ct, sc := f.sc.toNat, uses := [⟨.p, f.d.toNat, true⟩] } := rfl
@[simp] theorem wordInfo_wpop (f : WA) : wordInfo (.wpop f) =
    { fmt := 0, c := f.c, s := f.s, pr := f.pr.toNat, pipe := .en, sc := f.sc.toNat, scopes := 0x2, uses := [⟨.w, f.d.toNat, true⟩, ⟨.w, f.a.toNat, false⟩] ++ popUses } := rfl
@[simp] theorem wordInfo_wpopSleep (f : WA) : wordInfo (.wpopSleep f) =
    { fmt := 0, c := f.c, s := f.s, pr := f.pr.toNat, pipe := .en, sc := f.sc.toNat, scopes := 0x2, uses := [⟨.w, f.d.toNat, true⟩, ⟨.w, f.a.toNat, false⟩] ++ popUses } := rfl
@[simp] theorem wordInfo_wpush (f : WA) : wordInfo (.wpush f) =
    { fmt := 0, c := f.c, s := f.s, pr := f.pr.toNat, pipe := .en, sc := f.sc.toNat, scopes := 0x2, uses := [⟨.w, f.d.toNat, true⟩, ⟨.w, f.a.toNat, false⟩] } := rfl
@[simp] theorem wordInfo_wlen (f : WA) : wordInfo (.wlen f) =
    { fmt := 0, c := f.c, s := f.s, pr := f.pr.toNat, pipe := .en, sc := f.sc.toNat, scopes := 0x3, uses := [⟨.w, f.d.toNat, true⟩, ⟨.w, f.a.toNat, false⟩] } := rfl
@[simp] theorem wordInfo_amsg (f : WA) : wordInfo (.amsg f) =
    { fmt := 0, c := f.c, s := f.s, pr := f.pr.toNat, pipe := .en, sc := f.sc.toNat, scopes := 0x1, uses := [⟨.x, f.d.toNat, true⟩, ⟨.x, f.a.toNat, false⟩, ⟨.x, f.b.toNat, false⟩] } := rfl
@[simp] theorem wordInfo_ampoll (f : WA) : wordInfo (.ampoll f) =
    { fmt := 0, c := f.c, s := f.s, pr := f.pr.toNat, pipe := .en, sc := f.sc.toNat, scopes := 0x1, uses := [⟨.x, f.d.toNat, true⟩, ⟨.w, f.a.toNat, false⟩] } := rfl
@[simp] theorem wordInfo_amend (f : WA) : wordInfo (.amend f) =
    { fmt := 0, c := f.c, s := f.s, pr := f.pr.toNat, pipe := .en, sc := f.sc.toNat, scopes := 0x2, uses := [⟨.w, f.a.toNat, false⟩] } := rfl
@[simp] theorem wordInfo_bidset (f : WA) : wordInfo (.bidset f) =
    { fmt := 0, c := f.c, s := f.s, pr := f.pr.toNat, pipe := .ct, sc := f.sc.toNat, scopes := 0x3, uses := [⟨.w, f.d.toNat, true⟩, ⟨.x, f.a.toNat, false⟩, ⟨.w, f.b.toNat, false⟩] } := rfl
@[simp] theorem wordInfo_price (f : WA) : wordInfo (.price f) =
    { fmt := 0, c := f.c, s := f.s, pr := f.pr.toNat, pipe := .ct, sc := f.sc.toNat, scopes := 0x3, uses := [⟨.x, f.d.toNat, true⟩, ⟨.w, f.a.toNat, false⟩] } := rfl
@[simp] theorem wordInfo_bidget (f : WA) : wordInfo (.bidget f) =
    { fmt := 0, c := f.c, s := f.s, pr := f.pr.toNat, pipe := .ct, sc := f.sc.toNat, scopes := 0x3, uses := [⟨.x, f.d.toNat, true⟩, ⟨.w, f.a.toNat, false⟩] } := rfl
@[simp] theorem wordInfo_mfs (f : WS) : wordInfo (.mfs f) =
    { fmt := 6, c := f.c, s := f.s, pr := f.pr.toNat, pipe := .ct, sc := f.sc.toNat, scopes := 0x3, uses := [⟨if sregWide f.sreg.toNat then .x else .w, f.d.toNat, true⟩], late := !sregKnown f.sreg.toNat } := rfl
@[simp] theorem wordInfo_mts (f : WS) : wordInfo (.mts f) =
    { fmt := 6, c := f.c, s := f.s, pr := f.pr.toNat, pipe := .ct, sc := f.sc.toNat, scopes := 0x3, uses := [⟨if sregWide f.sreg.toNat then .x else .w, f.d.toNat, false⟩], late := !(sregKnown f.sreg.toNat && sregWritable f.sreg.toNat) } := rfl
@[simp] theorem wordInfo_trap (f : WK) : wordInfo (.trap f) =
    { fmt := 2, c := f.c, s := f.s, pr := f.pr.toNat, pipe := .ct, scopes := 0x1 } := rfl
@[simp] theorem wordInfo_rett (f : WA) : wordInfo (.rett f) =
    { fmt := 0, c := f.c, s := f.s, pr := f.pr.toNat, pipe := .ct, sc := f.sc.toNat, scopes := 0x2, bad := decide (f.pr ≠ 3) } := rfl
@[simp] theorem wordInfo_brk (f : WK) : wordInfo (.brk f) =
    { fmt := 2, c := f.c, s := f.s, pr := f.pr.toNat, pipe := .ct, scopes := 0x1 } := rfl
@[simp] theorem wordInfo_dtload (f : WI) : wordInfo (.dtload f) =
    { fmt := 1, c := f.c, s := f.s, pr := f.pr.toNat, pipe := .ct, sc := f.sc.toNat, scopes := 0x1, uses := [⟨.x, f.a.toNat, false⟩], priv := 1 } := rfl
@[simp] theorem wordInfo_dtsel (f : WI) : wordInfo (.dtsel f) =
    { fmt := 1, c := f.c, s := f.s, pr := f.pr.toNat, pipe := .ct, sc := f.sc.toNat, scopes := 0x1, late := decide (4 < f.k.toNat) } := rfl
@[simp] theorem wordInfo_kchk (f : WA) : wordInfo (.kchk f) =
    { fmt := 0, c := f.c, s := f.s, pr := f.pr.toNat, pipe := .ct, sc := f.sc.toNat, scopes := 0x3, uses := [⟨.w, f.d.toNat, true⟩] } := rfl
@[simp] theorem wordInfo_kcanc (hard : Bool) (lv : BitVec 2) (f : WA) : wordInfo (.kcanc hard lv f) =
    { fmt := 0, c := f.c, s := f.s, pr := f.pr.toNat, pipe := .ct, sc := f.sc.toNat, scopes := 0x3, uses := [⟨.w, f.d.toNat, true⟩, ⟨.w, f.a.toNat, false⟩] } := rfl
@[simp] theorem wordInfo_probe (f : WA) : wordInfo (.probe f) =
    { fmt := 0, c := f.c, s := f.s, pr := f.pr.toNat, pipe := .me, sc := f.sc.toNat, scopes := 0x1, uses := [⟨.x, f.d.toNat, true⟩, ⟨.x, f.a.toNat, false⟩, ⟨.w, f.b.toNat, false⟩] } := rfl
@[simp] theorem wordInfo_tlbi (f : WA) : wordInfo (.tlbi f) =
    { fmt := 0, c := f.c, s := f.s, pr := f.pr.toNat, pipe := .me, sc := f.sc.toNat, scopes := 0x1, uses := [⟨.x, f.a.toNat, false⟩, ⟨.w, f.b.toNat, false⟩], priv := 1 } := rfl
@[simp] theorem wordInfo_icinv (f : WA) : wordInfo (.icinv f) =
    { fmt := 0, c := f.c, s := f.s, pr := f.pr.toNat, pipe := .ct, sc := f.sc.toNat, scopes := 0x1, uses := [⟨.x, f.a.toNat, false⟩, ⟨.w, f.b.toNat, false⟩] } := rfl
@[simp] theorem wordInfo_mcfgr (f : WS) : wordInfo (.mcfgr f) =
    { fmt := 6, c := f.c, s := f.s, pr := f.pr.toNat, pipe := .ct, sc := f.sc.toNat, scopes := 0x1, uses := [⟨.x, f.d.toNat, true⟩], priv := 3 } := rfl
@[simp] theorem wordInfo_mcfgw (f : WS) : wordInfo (.mcfgw f) =
    { fmt := 6, c := f.c, s := f.s, pr := f.pr.toNat, pipe := .ct, sc := f.sc.toNat, scopes := 0x1, uses := [⟨.x, f.d.toNat, false⟩], priv := 3 } := rfl

end Sys2Proof.Machine
end

