-- ==== Sys2Proof/Laws/Mem.lean ====
section
/-!
SUPPORT. Memory: every operation keeps the canonical form, a read after a write gives what was written, and a write leaves every other
byte alone.
-/

namespace Sys2Proof.Machine

theorem memWfFrom_mono {m : List Host.Cell} {lo hi : Nat} (h : lo ≤ hi) (w : memWfFrom hi m = true) : memWfFrom lo m = true := by
  cases m with
  | nil => rfl
  | cons c m =>
    obtain ⟨k, v⟩ := c
    simp only [memWfFrom, Bool.and_eq_true, decide_eq_true_eq] at w ⊢
    exact ⟨⟨by omega, w.1.2⟩, w.2⟩

theorem memGet_below {m : List Host.Cell} {lo a : Nat} (w : memWfFrom lo m = true) (h : a < lo) : memGet m a = memDefault := by
  cases m with
  | nil => rfl
  | cons c m =>
    obtain ⟨k, v⟩ := c
    simp only [memWfFrom, Bool.and_eq_true, decide_eq_true_eq] at w
    have : ¬k = a := by omega
    simp [memGet, this, show a < k by omega]

theorem memSet_wfFrom {m : List Host.Cell} {lo a : Nat} (v : Byte) (w : memWfFrom lo m = true) (h : lo ≤ a) :
    memWfFrom lo (memSet m a v) = true := by
  induction m generalizing lo with
  | nil => by_cases hv : v = memDefault <;> simp [memSet, hv, memWfFrom, h]
  | cons c m ih =>
    obtain ⟨k, u⟩ := c
    simp only [memWfFrom, Bool.and_eq_true, decide_eq_true_eq] at w
    obtain ⟨⟨w1, w2⟩, w3⟩ := w
    unfold memSet
    by_cases hk : k = a
    · subst hk
      by_cases hv : v = memDefault
      · simpa [hv] using memWfFrom_mono (show lo ≤ k + 1 by omega) w3
      · simp [hv, memWfFrom, h, w3]
    · by_cases ha : a < k
      · by_cases hv : v = memDefault
        · simp [hk, ha, hv, memWfFrom, w1, w2, w3]
        · simp [hk, ha, hv, memWfFrom, w2, w3, h, show a + 1 ≤ k by omega]
      · simp [hk, ha, memWfFrom, w1, w2, ih w3 (by omega)]

/-- Storing a byte keeps the canonical form. -/
theorem memSet_wf {m : List Host.Cell} (a : Nat) (v : Byte) (w : Memory.wf m = true) : Memory.wf (memSet m a v) = true :=
  memSet_wfFrom v w (Nat.zero_le a)

theorem memGet_memSet_from {m : List Host.Cell} {lo : Nat} (a x : Nat) (v : Byte) (w : memWfFrom lo m = true) :
    memGet (memSet m a v) x = if x = a then v else memGet m x := by
  induction m generalizing lo with
  | nil =>
    by_cases hv : v = memDefault
    · simp [memSet, hv, memGet]
    · by_cases hx : x = a
      · simp [memSet, hv, memGet, hx]
      · simp [memSet, hv, memGet, hx, Ne.symm hx]
  | cons c m ih =>
    obtain ⟨k, u⟩ := c
    simp only [memWfFrom, Bool.and_eq_true, decide_eq_true_eq] at w
    obtain ⟨⟨w1, w2⟩, w3⟩ := w
    unfold memSet
    by_cases hk : k = a
    · subst hk
      by_cases hv : v = memDefault
      · by_cases hx : x = k
        · subst hx; simpa [hv] using memGet_below w3 (show x < x + 1 by omega)
        · by_cases hlt : x < k
          · simpa [hv, hx, memGet, Ne.symm hx, hlt] using memGet_below w3 (show x < k + 1 by omega)
          · simp [hv, hx, memGet, Ne.symm hx, hlt]
      · by_cases hx : x = k
        · simp [hv, memGet, hx]
        · simp [hv, memGet, hx, Ne.symm hx]
    · by_cases ha : a < k
      · by_cases hv : v = memDefault
        · by_cases hx : x = a
          · subst hx; simp [hk, ha, hv, memGet]
          · simp [hk, ha, hv, hx]
        · by_cases hx : x = a
          · subst hx; simp [hk, ha, hv, memGet]
          · simp only [hk, ha, hv, hx, if_false, if_true, memGet, Ne.symm hx]
            by_cases hlt : x < a
            · have : ¬k = x := by omega
              simp [hlt, this, show x < k by omega]
            · simp [hlt]
      · by_cases hx : x = a
        · subst hx; simp [hk, ha, memGet, ih w3]
        · simp [hk, ha, memGet, ih w3, hx]

/-- A read after a store of one byte. -/
theorem memGet_memSet {m : List Host.Cell} (a x : Nat) (v : Byte) (w : Memory.wf m = true) :
    memGet (memSet m a v) x = if x = a then v else memGet m x := memGet_memSet_from a x v w

/-- Storing bytes keeps the canonical form. -/
theorem memWrite_wf {m : List Host.Cell} (a : Nat) (bs : List Byte) (w : Memory.wf m = true) : Memory.wf (memWrite m a bs) = true := by
  induction bs generalizing m a with
  | nil => exact w
  | cons b bs ih => exact ih (a + 1) (memSet_wf a b w)

/-- A store of bytes leaves every byte outside them alone. -/
theorem memGet_memWrite_outside {m : List Host.Cell} (a x : Nat) (bs : List Byte) (w : Memory.wf m = true)
    (h : x < a ∨ a + bs.length ≤ x) : memGet (memWrite m a bs) x = memGet m x := by
  induction bs generalizing m a with
  | nil => rfl
  | cons b bs ih =>
    simp only [List.length_cons] at h
    rw [memWrite, ih (a + 1) (memSet_wf a b w) (by omega), memGet_memSet a x b w, if_neg (by omega)]

/-- A read after a store of bytes gives what was stored. -/
theorem memGet_memWrite_inside {m : List Host.Cell} (a i : Nat) (bs : List Byte) (w : Memory.wf m = true) (h : i < bs.length) :
    memGet (memWrite m a bs) (a + i) = bs[i] := by
  induction bs generalizing m a i with
  | nil => simp at h
  | cons b bs ih =>
    cases i with
    | zero =>
      rw [memWrite, memGet_memWrite_outside (a + 1) (a + 0) bs (memSet_wf a b w) (by omega), memGet_memSet a (a + 0) b w]
      simp
    | succ i =>
      have := ih (a + 1) i (memSet_wf a b w) (by simpa using h)
      rw [memWrite, show a + (i + 1) = a + 1 + i by omega, this]
      simp

theorem memRead_memWrite {m : List Host.Cell} (a : Nat) (bs : List Byte) (w : Memory.wf m = true) :
    memRead (memWrite m a bs) a bs.length = bs := by
  refine List.ext_getElem (by simp [memRead, upto]) fun i h1 h2 => ?_
  simp [memRead, upto, memGet_memWrite_inside a i bs w h2]

/-- Dropping cells keeps the canonical form. -/
theorem filter_wfFrom {m : List Host.Cell} {lo : Nat} (p : Host.Cell → Bool) (w : memWfFrom lo m = true) : memWfFrom lo (m.filter p) = true := by
  induction m generalizing lo with
  | nil => rfl
  | cons c m ih =>
    obtain ⟨k, v⟩ := c
    simp only [memWfFrom, Bool.and_eq_true, decide_eq_true_eq] at w
    obtain ⟨⟨w1, w2⟩, w3⟩ := w
    by_cases hp : p (k, v) = true
    · simp [hp, memWfFrom, w1, w2, ih w3]
    · simpa [hp] using memWfFrom_mono (show lo ≤ k + 1 by omega) (ih w3)

theorem filter_wf {m : List Host.Cell} (p : Host.Cell → Bool) (w : Memory.wf m = true) : Memory.wf (m.filter p) = true :=
  filter_wfFrom p w

/-- Storing the bytes of a list of cells, each where `f` says, keeps the canonical form. -/
theorem foldl_memSet_wf {α : Type} {m : List Host.Cell} (l : List α) (f : α → Nat) (v : α → Byte) (w : Memory.wf m = true) :
    Memory.wf (l.foldl (fun t c => memSet t (f c) (v c)) m) = true := by
  induction l generalizing m with
  | nil => exact w
  | cons c l ih => exact ih (memSet_wf (f c) (v c) w)

/-- A page move keeps the canonical form. -/
theorem memCopy_wf {m : List Host.Cell} (frm dst len : Nat) (w : Memory.wf m = true) : Memory.wf (memCopy m frm dst len) = true :=
  foldl_memSet_wf _ _ _ (filter_wf _ w)

/-- Writing a region of units keeps the canonical form. -/
theorem regionWrite_wf {m : List Host.Cell} (units : List Nat) (off : Nat) (bs : List Byte) (w : Memory.wf m = true) :
    Memory.wf (regionWrite m units off bs) = true := by
  induction bs generalizing m off with
  | nil => exact w
  | cons b bs ih => exact ih (off + 1) (memSet_wf (sramKey units off) b w)

/-- A write of physical memory keeps the canonical form and touches nothing but memory. -/
theorem physWrite_wf {s : State} (dev pa : Nat) (bs : List Byte) (w : Memory.wf s.mem = true) : Memory.wf (physWrite s dev pa bs).mem = true :=
  memWrite_wf (domAddr dev pa) bs w

theorem physWrite_outside (s : State) (dev pa x : Nat) (bs : List Byte) (w : Memory.wf s.mem = true)
    (h : x < domAddr dev pa ∨ domAddr dev pa + bs.length ≤ x) : memGet (physWrite s dev pa bs).mem x = memGet s.mem x :=
  memGet_memWrite_outside (domAddr dev pa) x bs w h

theorem physWrite_eq (s : State) (dev pa : Nat) (bs : List Byte) :
    physWrite s dev pa bs = { s with mem := memWrite s.mem (domAddr dev pa) bs } := rfl

theorem unitPos_lt {k off : Nat} (h : off < k * 65536) : (unitPos k off).1 < k ∧ (unitPos k off).2 < 65536 := by
  have hk : 0 < k := by rcases Nat.eq_zero_or_pos k with rfl | h' <;> omega
  refine ⟨Nat.mod_lt _ hk, ?_⟩
  have : off / 128 / k < 512 := by rw [Nat.div_lt_iff_lt_mul hk, Nat.div_lt_iff_lt_mul (by omega)]; omega
  simp only [unitPos]; omega

theorem unitPos_inj {k a b : Nat} (e : unitPos k a = unitPos k b) : a = b := by
  simp only [unitPos, Prod.mk.injEq] at e
  have h : a / 128 / k = b / 128 / k := by omega
  have l : a / 128 = b / 128 := by rw [← Nat.div_add_mod (a / 128) k, ← Nat.div_add_mod (b / 128) k, h, e.1]
  omega

/-- Different offsets in a region are different bytes (03 R70, R71). -/
theorem sramKey_inj {units : List Nat} {a b : Nat} (hn : units.Nodup) (ha : a < units.length * 65536) (hb : b < units.length * 65536)
    (e : sramKey units a = sramKey units b) : a = b := by
  have pa := unitPos_lt ha
  have pb := unitPos_lt hb
  simp only [sramKey, List.getD_eq_getElem _ _ pa.1, List.getD_eq_getElem _ _ pb.1] at e
  have e1 : units[(unitPos units.length a).1] = units[(unitPos units.length b).1] := by omega
  exact unitPos_inj (k := units.length) (Prod.ext ((hn.getElem_inj_iff).mp e1) (by omega))

theorem memGet_regionWrite_outside {m : List Host.Cell} (units : List Nat) (off x : Nat) (bs : List Byte) (w : Memory.wf m = true)
    (h : ∀ i, i < bs.length → x ≠ sramKey units (off + i)) : memGet (regionWrite m units off bs) x = memGet m x := by
  induction bs generalizing m off with
  | nil => rfl
  | cons b bs ih =>
    rw [regionWrite, ih (off + 1) (memSet_wf _ b w) fun i hi => by simpa [Nat.add_comm, Nat.add_left_comm] using h (i + 1) (by simpa using hi),
      memGet_memSet _ x b w, if_neg (by simpa using h 0 (by simp))]

/-- A read of a byte of a region after a store of bytes there. -/
theorem memGet_regionWrite {m : List Host.Cell} (units : List Nat) (off o : Nat) (bs : List Byte) (w : Memory.wf m = true)
    (hn : units.Nodup) (h : off + bs.length ≤ units.length * 65536) (ho : o < units.length * 65536) :
    memGet (regionWrite m units off bs) (sramKey units o) =
      if off ≤ o ∧ o < off + bs.length then bs.getD (o - off) 0 else memGet m (sramKey units o) := by
  induction bs generalizing m off with
  | nil => simp [regionWrite, show ¬(off ≤ o ∧ o < off) by omega]
  | cons b bs ih =>
    simp only [List.length_cons] at h ⊢
    rw [regionWrite, ih (off + 1) (memSet_wf _ b w) (by omega), memGet_memSet _ _ b w]
    by_cases e : o = off
    · subst e
      simp
    · have : sramKey units o ≠ sramKey units off := fun k => e (sramKey_inj hn ho (by omega) k)
      rw [if_neg this]
      by_cases r : off + 1 ≤ o ∧ o < off + 1 + bs.length
      · rw [if_pos r, if_pos ⟨by omega, by omega⟩, show o - off = (o - (off + 1)) + 1 by omega, List.getD_cons_succ]
      · rw [if_neg r, if_neg (by omega)]

/-- A read of a region after a store there gives what was stored. -/
theorem regionRead_regionWrite {m : List Host.Cell} (units : List Nat) (off : Nat) (bs : List Byte) (w : Memory.wf m = true)
    (hn : units.Nodup) (h : off + bs.length ≤ units.length * 65536) : regionRead (regionWrite m units off bs) units off bs.length = bs := by
  refine List.ext_getElem (by simp [regionRead, upto]) fun i h1 h2 => ?_
  simp only [regionRead, upto, List.getElem_map, List.getElem_range]
  rw [memGet_regionWrite units off (off + i) bs w hn h (by omega), if_pos ⟨by omega, by omega⟩]
  rw [Nat.add_sub_cancel_left, List.getD_eq_getElem _ _ h2]

theorem crcByte_lt {c : Nat} (b : Byte) (h : c < 2 ^ 32) : crcByte c b < 2 ^ 32 := by
  have step (x : Nat) (hx : x < 2 ^ 32) : (if x % 2 = 1 then x / 2 ^^^ 0x82F63B78 else x / 2) < 2 ^ 32 := by
    split
    · exact Nat.xor_lt_two_pow (by omega) (by omega)
    · omega
  have fold (l : List Nat) : ∀ x, x < 2 ^ 32 → l.foldl (fun c _ => if c % 2 = 1 then c / 2 ^^^ 0x82F63B78 else c / 2) x < 2 ^ 32 := by
    induction l with
    | nil => exact fun x hx => hx
    | cons a l ih => exact fun x hx => ih _ (step x hx)
  exact fold _ _ (Nat.xor_lt_two_pow h (by have := b.isLt; omega))

/-- A CRC has 32 bits. -/
theorem crc32c_lt (bs : List Byte) : crc32c bs < 2 ^ 32 := by
  have fold : ∀ c, c < 2 ^ 32 → bs.foldl crcByte c < 2 ^ 32 := by
    induction bs with
    | nil => exact fun c hc => hc
    | cons b bs ih => exact fun c hc => ih _ (crcByte_lt b hc)
  exact Nat.xor_lt_two_pow (fold _ (by omega)) (by omega)

/-- Byte values. -/
theorem leNat_natLe (n v : Nat) : leNat (natLe n v) = v % 256 ^ n := by
  induction n generalizing v with
  | zero => simp [natLe, leNat, Nat.mod_one]
  | succ n ih =>
    rw [natLe, leNat, ih, pow_succ']
    simp [Nat.mod_mul]

theorem natLe_length (n v : Nat) : (natLe n v).length = n := by
  induction n generalizing v with
  | zero => rfl
  | succ n ih => simp [natLe, ih]

end Sys2Proof.Machine
end

