-- ==== Sys2Proof/Laws/State.lean ====
section
/-!
SUPPORT. What each update of a part of the state leaves alone: one lemma for each field and update, and the value of the field it changes.
-/

namespace Sys2Proof.Machine

variable (s : State)

/-! ### updCtx -/

@[simp] theorem State.updCtx_gts (c : Nat) (f : Ctx → Ctx) : (s.updCtx c f).gts = s.gts := rfl
@[simp] theorem State.updCtx_synced (c : Nat) (f : Ctx → Ctx) : (s.updCtx c f).synced = s.synced := rfl
@[simp] theorem State.updCtx_slew (c : Nat) (f : Ctx → Ctx) : (s.updCtx c f).slew = s.slew := rfl
@[simp] theorem State.updCtx_slewHeld (c : Nat) (f : Ctx → Ctx) : (s.updCtx c f).slewHeld = s.slewHeld := rfl
@[simp] theorem State.updCtx_devNo (c : Nat) (f : Ctx → Ctx) : (s.updCtx c f).devNo = s.devNo := rfl
@[simp] theorem State.updCtx_mem (c : Nat) (f : Ctx → Ctx) : (s.updCtx c f).mem = s.mem := rfl
@[simp] theorem State.updCtx_badLines (c : Nat) (f : Ctx → Ctx) : (s.updCtx c f).badLines = s.badLines := rfl
@[simp] theorem State.updCtx_sram (c : Nat) (f : Ctx → Ctx) : (s.updCtx c f).sram = s.sram := rfl
@[simp] theorem State.updCtx_frr (c : Nat) (f : Ctx → Ctx) : (s.updCtx c f).frr = s.frr := rfl
@[simp] theorem State.updCtx_noPort (c : Nat) (f : Ctx → Ctx) : (s.updCtx c f).noPort = s.noPort := rfl
@[simp] theorem State.updCtx_vfs (c : Nat) (f : Ctx → Ctx) : (s.updCtx c f).vfs = s.vfs := rfl
@[simp] theorem State.updCtx_ctxs (c : Nat) (f : Ctx → Ctx) : (s.updCtx c f).ctxs = tset s.ctxs c (f (s.ctx c)) := rfl
@[simp] theorem State.updCtx_blks (c : Nat) (f : Ctx → Ctx) : (s.updCtx c f).blks = s.blks := rfl
@[simp] theorem State.updCtx_cores (c : Nat) (f : Ctx → Ctx) : (s.updCtx c f).cores = s.cores := rfl
@[simp] theorem State.updCtx_mkt (c : Nat) (f : Ctx → Ctx) : (s.updCtx c f).mkt = s.mkt := rfl
@[simp] theorem State.updCtx_page (c : Nat) (f : Ctx → Ctx) : (s.updCtx c f).page = s.page := rfl
@[simp] theorem State.updCtx_ports (c : Nat) (f : Ctx → Ctx) : (s.updCtx c f).ports = s.ports := rfl
@[simp] theorem State.updCtx_routes (c : Nat) (f : Ctx → Ctx) : (s.updCtx c f).routes = s.routes := rfl
@[simp] theorem State.updCtx_nsqs (c : Nat) (f : Ctx → Ctx) : (s.updCtx c f).nsqs = s.nsqs := rfl
@[simp] theorem State.updCtx_peerSeq (c : Nat) (f : Ctx → Ctx) : (s.updCtx c f).peerSeq = s.peerSeq := rfl
@[simp] theorem State.updCtx_peerReqs (c : Nat) (f : Ctx → Ctx) : (s.updCtx c f).peerReqs = s.peerReqs := rfl
@[simp] theorem State.updCtx_peerIns (c : Nat) (f : Ctx → Ctx) : (s.updCtx c f).peerIns = s.peerIns := rfl
@[simp] theorem State.updCtx_chans (c : Nat) (f : Ctx → Ctx) : (s.updCtx c f).chans = s.chans := rfl
@[simp] theorem State.updCtx_power (c : Nat) (f : Ctx → Ctx) : (s.updCtx c f).power = s.power := rfl
@[simp] theorem State.updCtx_incoming (c : Nat) (f : Ctx → Ctx) : (s.updCtx c f).incoming = s.incoming := rfl
@[simp] theorem State.updCtx_evq (c : Nat) (f : Ctx → Ctx) : (s.updCtx c f).evq = s.evq := rfl
@[simp] theorem State.updCtx_rafters (c : Nat) (f : Ctx → Ctx) : (s.updCtx c f).rafters = s.rafters := rfl
@[simp] theorem State.updCtx_msix (c : Nat) (f : Ctx → Ctx) : (s.updCtx c f).msix = s.msix := rfl
@[simp] theorem State.updCtx_hostOut (c : Nat) (f : Ctx → Ctx) : (s.updCtx c f).hostOut = s.hostOut := rfl
@[simp] theorem State.updCtx_peerOut (c : Nat) (f : Ctx → Ctx) : (s.updCtx c f).peerOut = s.peerOut := rfl
@[simp] theorem State.updCtx_shared (c : Nat) (f : Ctx → Ctx) : (s.updCtx c f).shared = s.shared := rfl
@[simp] theorem State.updCtx_peerHeld (c : Nat) (f : Ctx → Ctx) : (s.updCtx c f).peerHeld = s.peerHeld := rfl
@[simp] theorem State.updCtx_agenda (c : Nat) (f : Ctx → Ctx) : (s.updCtx c f).agenda = s.agenda := rfl
@[simp] theorem State.updCtx_arg (c : Nat) (f : Ctx → Ctx) : (s.updCtx c f).arg = s.arg := rfl
@[simp] theorem State.updCtx_src (c : Nat) (f : Ctx → Ctx) : (s.updCtx c f).src = s.src := rfl
@[simp] theorem State.updCtx_doing (c : Nat) (f : Ctx → Ctx) : (s.updCtx c f).doing = s.doing := rfl
@[simp] theorem State.updCtx_l1 (c : Nat) (f : Ctx → Ctx) : (s.updCtx c f).l1 = s.l1 := rfl
@[simp] theorem State.updCtx_l2 (c : Nat) (f : Ctx → Ctx) : (s.updCtx c f).l2 = s.l2 := rfl
@[simp] theorem State.updCtx_peerGot (c : Nat) (f : Ctx → Ctx) : (s.updCtx c f).peerGot = s.peerGot := rfl
@[simp] theorem State.updCtx_turn (c : Nat) (f : Ctx → Ctx) : (s.updCtx c f).turn = s.turn := rfl
@[simp] theorem State.updCtx_cur (c : Nat) (f : Ctx → Ctx) : (s.updCtx c f).cur = s.cur := rfl
@[simp] theorem State.updCtx_freeCtr (c : Nat) (f : Ctx → Ctx) : (s.updCtx c f).freeCtr = s.freeCtr := rfl
@[simp] theorem State.updCtx_nextId (c : Nat) (f : Ctx → Ctx) : (s.updCtx c f).nextId = s.nextId := rfl

/-! ### updVf -/

@[simp] theorem State.updVf_gts (n : Nat) (f : Vf → Vf) : (s.updVf n f).gts = s.gts := rfl
@[simp] theorem State.updVf_synced (n : Nat) (f : Vf → Vf) : (s.updVf n f).synced = s.synced := rfl
@[simp] theorem State.updVf_slew (n : Nat) (f : Vf → Vf) : (s.updVf n f).slew = s.slew := rfl
@[simp] theorem State.updVf_slewHeld (n : Nat) (f : Vf → Vf) : (s.updVf n f).slewHeld = s.slewHeld := rfl
@[simp] theorem State.updVf_devNo (n : Nat) (f : Vf → Vf) : (s.updVf n f).devNo = s.devNo := rfl
@[simp] theorem State.updVf_mem (n : Nat) (f : Vf → Vf) : (s.updVf n f).mem = s.mem := rfl
@[simp] theorem State.updVf_badLines (n : Nat) (f : Vf → Vf) : (s.updVf n f).badLines = s.badLines := rfl
@[simp] theorem State.updVf_sram (n : Nat) (f : Vf → Vf) : (s.updVf n f).sram = s.sram := rfl
@[simp] theorem State.updVf_frr (n : Nat) (f : Vf → Vf) : (s.updVf n f).frr = s.frr := rfl
@[simp] theorem State.updVf_noPort (n : Nat) (f : Vf → Vf) : (s.updVf n f).noPort = s.noPort := rfl
@[simp] theorem State.updVf_vfs (n : Nat) (f : Vf → Vf) : (s.updVf n f).vfs = tset s.vfs n (f (s.vf n)) := rfl
@[simp] theorem State.updVf_ctxs (n : Nat) (f : Vf → Vf) : (s.updVf n f).ctxs = s.ctxs := rfl
@[simp] theorem State.updVf_blks (n : Nat) (f : Vf → Vf) : (s.updVf n f).blks = s.blks := rfl
@[simp] theorem State.updVf_cores (n : Nat) (f : Vf → Vf) : (s.updVf n f).cores = s.cores := rfl
@[simp] theorem State.updVf_mkt (n : Nat) (f : Vf → Vf) : (s.updVf n f).mkt = s.mkt := rfl
@[simp] theorem State.updVf_page (n : Nat) (f : Vf → Vf) : (s.updVf n f).page = s.page := rfl
@[simp] theorem State.updVf_ports (n : Nat) (f : Vf → Vf) : (s.updVf n f).ports = s.ports := rfl
@[simp] theorem State.updVf_routes (n : Nat) (f : Vf → Vf) : (s.updVf n f).routes = s.routes := rfl
@[simp] theorem State.updVf_nsqs (n : Nat) (f : Vf → Vf) : (s.updVf n f).nsqs = s.nsqs := rfl
@[simp] theorem State.updVf_peerSeq (n : Nat) (f : Vf → Vf) : (s.updVf n f).peerSeq = s.peerSeq := rfl
@[simp] theorem State.updVf_peerReqs (n : Nat) (f : Vf → Vf) : (s.updVf n f).peerReqs = s.peerReqs := rfl
@[simp] theorem State.updVf_peerIns (n : Nat) (f : Vf → Vf) : (s.updVf n f).peerIns = s.peerIns := rfl
@[simp] theorem State.updVf_chans (n : Nat) (f : Vf → Vf) : (s.updVf n f).chans = s.chans := rfl
@[simp] theorem State.updVf_power (n : Nat) (f : Vf → Vf) : (s.updVf n f).power = s.power := rfl
@[simp] theorem State.updVf_incoming (n : Nat) (f : Vf → Vf) : (s.updVf n f).incoming = s.incoming := rfl
@[simp] theorem State.updVf_evq (n : Nat) (f : Vf → Vf) : (s.updVf n f).evq = s.evq := rfl
@[simp] theorem State.updVf_rafters (n : Nat) (f : Vf → Vf) : (s.updVf n f).rafters = s.rafters := rfl
@[simp] theorem State.updVf_msix (n : Nat) (f : Vf → Vf) : (s.updVf n f).msix = s.msix := rfl
@[simp] theorem State.updVf_hostOut (n : Nat) (f : Vf → Vf) : (s.updVf n f).hostOut = s.hostOut := rfl
@[simp] theorem State.updVf_peerOut (n : Nat) (f : Vf → Vf) : (s.updVf n f).peerOut = s.peerOut := rfl
@[simp] theorem State.updVf_shared (n : Nat) (f : Vf → Vf) : (s.updVf n f).shared = s.shared := rfl
@[simp] theorem State.updVf_peerHeld (n : Nat) (f : Vf → Vf) : (s.updVf n f).peerHeld = s.peerHeld := rfl
@[simp] theorem State.updVf_agenda (n : Nat) (f : Vf → Vf) : (s.updVf n f).agenda = s.agenda := rfl
@[simp] theorem State.updVf_arg (n : Nat) (f : Vf → Vf) : (s.updVf n f).arg = s.arg := rfl
@[simp] theorem State.updVf_src (n : Nat) (f : Vf → Vf) : (s.updVf n f).src = s.src := rfl
@[simp] theorem State.updVf_doing (n : Nat) (f : Vf → Vf) : (s.updVf n f).doing = s.doing := rfl
@[simp] theorem State.updVf_l1 (n : Nat) (f : Vf → Vf) : (s.updVf n f).l1 = s.l1 := rfl
@[simp] theorem State.updVf_l2 (n : Nat) (f : Vf → Vf) : (s.updVf n f).l2 = s.l2 := rfl
@[simp] theorem State.updVf_peerGot (n : Nat) (f : Vf → Vf) : (s.updVf n f).peerGot = s.peerGot := rfl
@[simp] theorem State.updVf_turn (n : Nat) (f : Vf → Vf) : (s.updVf n f).turn = s.turn := rfl
@[simp] theorem State.updVf_cur (n : Nat) (f : Vf → Vf) : (s.updVf n f).cur = s.cur := rfl
@[simp] theorem State.updVf_freeCtr (n : Nat) (f : Vf → Vf) : (s.updVf n f).freeCtr = s.freeCtr := rfl
@[simp] theorem State.updVf_nextId (n : Nat) (f : Vf → Vf) : (s.updVf n f).nextId = s.nextId := rfl

/-! ### updCore -/

@[simp] theorem State.updCore_gts (n : Nat) (f : CoreSt → CoreSt) : (s.updCore n f).gts = s.gts := rfl
@[simp] theorem State.updCore_synced (n : Nat) (f : CoreSt → CoreSt) : (s.updCore n f).synced = s.synced := rfl
@[simp] theorem State.updCore_slew (n : Nat) (f : CoreSt → CoreSt) : (s.updCore n f).slew = s.slew := rfl
@[simp] theorem State.updCore_slewHeld (n : Nat) (f : CoreSt → CoreSt) : (s.updCore n f).slewHeld = s.slewHeld := rfl
@[simp] theorem State.updCore_devNo (n : Nat) (f : CoreSt → CoreSt) : (s.updCore n f).devNo = s.devNo := rfl
@[simp] theorem State.updCore_mem (n : Nat) (f : CoreSt → CoreSt) : (s.updCore n f).mem = s.mem := rfl
@[simp] theorem State.updCore_badLines (n : Nat) (f : CoreSt → CoreSt) : (s.updCore n f).badLines = s.badLines := rfl
@[simp] theorem State.updCore_sram (n : Nat) (f : CoreSt → CoreSt) : (s.updCore n f).sram = s.sram := rfl
@[simp] theorem State.updCore_frr (n : Nat) (f : CoreSt → CoreSt) : (s.updCore n f).frr = s.frr := rfl
@[simp] theorem State.updCore_noPort (n : Nat) (f : CoreSt → CoreSt) : (s.updCore n f).noPort = s.noPort := rfl
@[simp] theorem State.updCore_vfs (n : Nat) (f : CoreSt → CoreSt) : (s.updCore n f).vfs = s.vfs := rfl
@[simp] theorem State.updCore_ctxs (n : Nat) (f : CoreSt → CoreSt) : (s.updCore n f).ctxs = s.ctxs := rfl
@[simp] theorem State.updCore_blks (n : Nat) (f : CoreSt → CoreSt) : (s.updCore n f).blks = s.blks := rfl
@[simp] theorem State.updCore_cores (n : Nat) (f : CoreSt → CoreSt) : (s.updCore n f).cores = tset s.cores n (f (s.core n)) := rfl
@[simp] theorem State.updCore_mkt (n : Nat) (f : CoreSt → CoreSt) : (s.updCore n f).mkt = s.mkt := rfl
@[simp] theorem State.updCore_page (n : Nat) (f : CoreSt → CoreSt) : (s.updCore n f).page = s.page := rfl
@[simp] theorem State.updCore_ports (n : Nat) (f : CoreSt → CoreSt) : (s.updCore n f).ports = s.ports := rfl
@[simp] theorem State.updCore_routes (n : Nat) (f : CoreSt → CoreSt) : (s.updCore n f).routes = s.routes := rfl
@[simp] theorem State.updCore_nsqs (n : Nat) (f : CoreSt → CoreSt) : (s.updCore n f).nsqs = s.nsqs := rfl
@[simp] theorem State.updCore_peerSeq (n : Nat) (f : CoreSt → CoreSt) : (s.updCore n f).peerSeq = s.peerSeq := rfl
@[simp] theorem State.updCore_peerReqs (n : Nat) (f : CoreSt → CoreSt) : (s.updCore n f).peerReqs = s.peerReqs := rfl
@[simp] theorem State.updCore_peerIns (n : Nat) (f : CoreSt → CoreSt) : (s.updCore n f).peerIns = s.peerIns := rfl
@[simp] theorem State.updCore_chans (n : Nat) (f : CoreSt → CoreSt) : (s.updCore n f).chans = s.chans := rfl
@[simp] theorem State.updCore_power (n : Nat) (f : CoreSt → CoreSt) : (s.updCore n f).power = s.power := rfl
@[simp] theorem State.updCore_incoming (n : Nat) (f : CoreSt → CoreSt) : (s.updCore n f).incoming = s.incoming := rfl
@[simp] theorem State.updCore_evq (n : Nat) (f : CoreSt → CoreSt) : (s.updCore n f).evq = s.evq := rfl
@[simp] theorem State.updCore_rafters (n : Nat) (f : CoreSt → CoreSt) : (s.updCore n f).rafters = s.rafters := rfl
@[simp] theorem State.updCore_msix (n : Nat) (f : CoreSt → CoreSt) : (s.updCore n f).msix = s.msix := rfl
@[simp] theorem State.updCore_hostOut (n : Nat) (f : CoreSt → CoreSt) : (s.updCore n f).hostOut = s.hostOut := rfl
@[simp] theorem State.updCore_peerOut (n : Nat) (f : CoreSt → CoreSt) : (s.updCore n f).peerOut = s.peerOut := rfl
@[simp] theorem State.updCore_shared (n : Nat) (f : CoreSt → CoreSt) : (s.updCore n f).shared = s.shared := rfl
@[simp] theorem State.updCore_peerHeld (n : Nat) (f : CoreSt → CoreSt) : (s.updCore n f).peerHeld = s.peerHeld := rfl
@[simp] theorem State.updCore_agenda (n : Nat) (f : CoreSt → CoreSt) : (s.updCore n f).agenda = s.agenda := rfl
@[simp] theorem State.updCore_arg (n : Nat) (f : CoreSt → CoreSt) : (s.updCore n f).arg = s.arg := rfl
@[simp] theorem State.updCore_src (n : Nat) (f : CoreSt → CoreSt) : (s.updCore n f).src = s.src := rfl
@[simp] theorem State.updCore_doing (n : Nat) (f : CoreSt → CoreSt) : (s.updCore n f).doing = s.doing := rfl
@[simp] theorem State.updCore_l1 (n : Nat) (f : CoreSt → CoreSt) : (s.updCore n f).l1 = s.l1 := rfl
@[simp] theorem State.updCore_l2 (n : Nat) (f : CoreSt → CoreSt) : (s.updCore n f).l2 = s.l2 := rfl
@[simp] theorem State.updCore_peerGot (n : Nat) (f : CoreSt → CoreSt) : (s.updCore n f).peerGot = s.peerGot := rfl
@[simp] theorem State.updCore_turn (n : Nat) (f : CoreSt → CoreSt) : (s.updCore n f).turn = s.turn := rfl
@[simp] theorem State.updCore_cur (n : Nat) (f : CoreSt → CoreSt) : (s.updCore n f).cur = s.cur := rfl
@[simp] theorem State.updCore_freeCtr (n : Nat) (f : CoreSt → CoreSt) : (s.updCore n f).freeCtr = s.freeCtr := rfl
@[simp] theorem State.updCore_nextId (n : Nat) (f : CoreSt → CoreSt) : (s.updCore n f).nextId = s.nextId := rfl

/-! ### updBlk -/

@[simp] theorem State.updBlk_gts (b : Nat) (f : Block → Block) : (s.updBlk b f).gts = s.gts := rfl
@[simp] theorem State.updBlk_synced (b : Nat) (f : Block → Block) : (s.updBlk b f).synced = s.synced := rfl
@[simp] theorem State.updBlk_slew (b : Nat) (f : Block → Block) : (s.updBlk b f).slew = s.slew := rfl
@[simp] theorem State.updBlk_slewHeld (b : Nat) (f : Block → Block) : (s.updBlk b f).slewHeld = s.slewHeld := rfl
@[simp] theorem State.updBlk_devNo (b : Nat) (f : Block → Block) : (s.updBlk b f).devNo = s.devNo := rfl
@[simp] theorem State.updBlk_mem (b : Nat) (f : Block → Block) : (s.updBlk b f).mem = s.mem := rfl
@[simp] theorem State.updBlk_badLines (b : Nat) (f : Block → Block) : (s.updBlk b f).badLines = s.badLines := rfl
@[simp] theorem State.updBlk_sram (b : Nat) (f : Block → Block) : (s.updBlk b f).sram = s.sram := rfl
@[simp] theorem State.updBlk_frr (b : Nat) (f : Block → Block) : (s.updBlk b f).frr = s.frr := rfl
@[simp] theorem State.updBlk_noPort (b : Nat) (f : Block → Block) : (s.updBlk b f).noPort = s.noPort := rfl
@[simp] theorem State.updBlk_vfs (b : Nat) (f : Block → Block) : (s.updBlk b f).vfs = s.vfs := rfl
@[simp] theorem State.updBlk_ctxs (b : Nat) (f : Block → Block) : (s.updBlk b f).ctxs = s.ctxs := rfl
@[simp] theorem State.updBlk_blks (b : Nat) (f : Block → Block) : (s.updBlk b f).blks = tset s.blks b (f (s.blk b)) := rfl
@[simp] theorem State.updBlk_cores (b : Nat) (f : Block → Block) : (s.updBlk b f).cores = s.cores := rfl
@[simp] theorem State.updBlk_mkt (b : Nat) (f : Block → Block) : (s.updBlk b f).mkt = s.mkt := rfl
@[simp] theorem State.updBlk_page (b : Nat) (f : Block → Block) : (s.updBlk b f).page = s.page := rfl
@[simp] theorem State.updBlk_ports (b : Nat) (f : Block → Block) : (s.updBlk b f).ports = s.ports := rfl
@[simp] theorem State.updBlk_routes (b : Nat) (f : Block → Block) : (s.updBlk b f).routes = s.routes := rfl
@[simp] theorem State.updBlk_nsqs (b : Nat) (f : Block → Block) : (s.updBlk b f).nsqs = s.nsqs := rfl
@[simp] theorem State.updBlk_peerSeq (b : Nat) (f : Block → Block) : (s.updBlk b f).peerSeq = s.peerSeq := rfl
@[simp] theorem State.updBlk_peerReqs (b : Nat) (f : Block → Block) : (s.updBlk b f).peerReqs = s.peerReqs := rfl
@[simp] theorem State.updBlk_peerIns (b : Nat) (f : Block → Block) : (s.updBlk b f).peerIns = s.peerIns := rfl
@[simp] theorem State.updBlk_chans (b : Nat) (f : Block → Block) : (s.updBlk b f).chans = s.chans := rfl
@[simp] theorem State.updBlk_power (b : Nat) (f : Block → Block) : (s.updBlk b f).power = s.power := rfl
@[simp] theorem State.updBlk_incoming (b : Nat) (f : Block → Block) : (s.updBlk b f).incoming = s.incoming := rfl
@[simp] theorem State.updBlk_evq (b : Nat) (f : Block → Block) : (s.updBlk b f).evq = s.evq := rfl
@[simp] theorem State.updBlk_rafters (b : Nat) (f : Block → Block) : (s.updBlk b f).rafters = s.rafters := rfl
@[simp] theorem State.updBlk_msix (b : Nat) (f : Block → Block) : (s.updBlk b f).msix = s.msix := rfl
@[simp] theorem State.updBlk_hostOut (b : Nat) (f : Block → Block) : (s.updBlk b f).hostOut = s.hostOut := rfl
@[simp] theorem State.updBlk_peerOut (b : Nat) (f : Block → Block) : (s.updBlk b f).peerOut = s.peerOut := rfl
@[simp] theorem State.updBlk_shared (b : Nat) (f : Block → Block) : (s.updBlk b f).shared = s.shared := rfl
@[simp] theorem State.updBlk_peerHeld (b : Nat) (f : Block → Block) : (s.updBlk b f).peerHeld = s.peerHeld := rfl
@[simp] theorem State.updBlk_agenda (b : Nat) (f : Block → Block) : (s.updBlk b f).agenda = s.agenda := rfl
@[simp] theorem State.updBlk_arg (b : Nat) (f : Block → Block) : (s.updBlk b f).arg = s.arg := rfl
@[simp] theorem State.updBlk_src (b : Nat) (f : Block → Block) : (s.updBlk b f).src = s.src := rfl
@[simp] theorem State.updBlk_doing (b : Nat) (f : Block → Block) : (s.updBlk b f).doing = s.doing := rfl
@[simp] theorem State.updBlk_l1 (b : Nat) (f : Block → Block) : (s.updBlk b f).l1 = s.l1 := rfl
@[simp] theorem State.updBlk_l2 (b : Nat) (f : Block → Block) : (s.updBlk b f).l2 = s.l2 := rfl
@[simp] theorem State.updBlk_peerGot (b : Nat) (f : Block → Block) : (s.updBlk b f).peerGot = s.peerGot := rfl
@[simp] theorem State.updBlk_turn (b : Nat) (f : Block → Block) : (s.updBlk b f).turn = s.turn := rfl
@[simp] theorem State.updBlk_cur (b : Nat) (f : Block → Block) : (s.updBlk b f).cur = s.cur := rfl
@[simp] theorem State.updBlk_freeCtr (b : Nat) (f : Block → Block) : (s.updBlk b f).freeCtr = s.freeCtr := rfl
@[simp] theorem State.updBlk_nextId (b : Nat) (f : Block → Block) : (s.updBlk b f).nextId = s.nextId := rfl

/-! ### updGrp -/

@[simp] theorem State.updGrp_gts (b j : Nat) (f : Group → Group) : (s.updGrp b j f).gts = s.gts := rfl
@[simp] theorem State.updGrp_synced (b j : Nat) (f : Group → Group) : (s.updGrp b j f).synced = s.synced := rfl
@[simp] theorem State.updGrp_slew (b j : Nat) (f : Group → Group) : (s.updGrp b j f).slew = s.slew := rfl
@[simp] theorem State.updGrp_slewHeld (b j : Nat) (f : Group → Group) : (s.updGrp b j f).slewHeld = s.slewHeld := rfl
@[simp] theorem State.updGrp_devNo (b j : Nat) (f : Group → Group) : (s.updGrp b j f).devNo = s.devNo := rfl
@[simp] theorem State.updGrp_mem (b j : Nat) (f : Group → Group) : (s.updGrp b j f).mem = s.mem := rfl
@[simp] theorem State.updGrp_badLines (b j : Nat) (f : Group → Group) : (s.updGrp b j f).badLines = s.badLines := rfl
@[simp] theorem State.updGrp_sram (b j : Nat) (f : Group → Group) : (s.updGrp b j f).sram = s.sram := rfl
@[simp] theorem State.updGrp_frr (b j : Nat) (f : Group → Group) : (s.updGrp b j f).frr = s.frr := rfl
@[simp] theorem State.updGrp_noPort (b j : Nat) (f : Group → Group) : (s.updGrp b j f).noPort = s.noPort := rfl
@[simp] theorem State.updGrp_vfs (b j : Nat) (f : Group → Group) : (s.updGrp b j f).vfs = s.vfs := rfl
@[simp] theorem State.updGrp_ctxs (b j : Nat) (f : Group → Group) : (s.updGrp b j f).ctxs = s.ctxs := rfl
@[simp] theorem State.updGrp_cores (b j : Nat) (f : Group → Group) : (s.updGrp b j f).cores = s.cores := rfl
@[simp] theorem State.updGrp_mkt (b j : Nat) (f : Group → Group) : (s.updGrp b j f).mkt = s.mkt := rfl
@[simp] theorem State.updGrp_page (b j : Nat) (f : Group → Group) : (s.updGrp b j f).page = s.page := rfl
@[simp] theorem State.updGrp_ports (b j : Nat) (f : Group → Group) : (s.updGrp b j f).ports = s.ports := rfl
@[simp] theorem State.updGrp_routes (b j : Nat) (f : Group → Group) : (s.updGrp b j f).routes = s.routes := rfl
@[simp] theorem State.updGrp_nsqs (b j : Nat) (f : Group → Group) : (s.updGrp b j f).nsqs = s.nsqs := rfl
@[simp] theorem State.updGrp_peerSeq (b j : Nat) (f : Group → Group) : (s.updGrp b j f).peerSeq = s.peerSeq := rfl
@[simp] theorem State.updGrp_peerReqs (b j : Nat) (f : Group → Group) : (s.updGrp b j f).peerReqs = s.peerReqs := rfl
@[simp] theorem State.updGrp_peerIns (b j : Nat) (f : Group → Group) : (s.updGrp b j f).peerIns = s.peerIns := rfl
@[simp] theorem State.updGrp_chans (b j : Nat) (f : Group → Group) : (s.updGrp b j f).chans = s.chans := rfl
@[simp] theorem State.updGrp_power (b j : Nat) (f : Group → Group) : (s.updGrp b j f).power = s.power := rfl
@[simp] theorem State.updGrp_incoming (b j : Nat) (f : Group → Group) : (s.updGrp b j f).incoming = s.incoming := rfl
@[simp] theorem State.updGrp_evq (b j : Nat) (f : Group → Group) : (s.updGrp b j f).evq = s.evq := rfl
@[simp] theorem State.updGrp_rafters (b j : Nat) (f : Group → Group) : (s.updGrp b j f).rafters = s.rafters := rfl
@[simp] theorem State.updGrp_msix (b j : Nat) (f : Group → Group) : (s.updGrp b j f).msix = s.msix := rfl
@[simp] theorem State.updGrp_hostOut (b j : Nat) (f : Group → Group) : (s.updGrp b j f).hostOut = s.hostOut := rfl
@[simp] theorem State.updGrp_peerOut (b j : Nat) (f : Group → Group) : (s.updGrp b j f).peerOut = s.peerOut := rfl
@[simp] theorem State.updGrp_shared (b j : Nat) (f : Group → Group) : (s.updGrp b j f).shared = s.shared := rfl
@[simp] theorem State.updGrp_peerHeld (b j : Nat) (f : Group → Group) : (s.updGrp b j f).peerHeld = s.peerHeld := rfl
@[simp] theorem State.updGrp_agenda (b j : Nat) (f : Group → Group) : (s.updGrp b j f).agenda = s.agenda := rfl
@[simp] theorem State.updGrp_arg (b j : Nat) (f : Group → Group) : (s.updGrp b j f).arg = s.arg := rfl
@[simp] theorem State.updGrp_src (b j : Nat) (f : Group → Group) : (s.updGrp b j f).src = s.src := rfl
@[simp] theorem State.updGrp_doing (b j : Nat) (f : Group → Group) : (s.updGrp b j f).doing = s.doing := rfl
@[simp] theorem State.updGrp_l1 (b j : Nat) (f : Group → Group) : (s.updGrp b j f).l1 = s.l1 := rfl
@[simp] theorem State.updGrp_l2 (b j : Nat) (f : Group → Group) : (s.updGrp b j f).l2 = s.l2 := rfl
@[simp] theorem State.updGrp_peerGot (b j : Nat) (f : Group → Group) : (s.updGrp b j f).peerGot = s.peerGot := rfl
@[simp] theorem State.updGrp_turn (b j : Nat) (f : Group → Group) : (s.updGrp b j f).turn = s.turn := rfl
@[simp] theorem State.updGrp_cur (b j : Nat) (f : Group → Group) : (s.updGrp b j f).cur = s.cur := rfl
@[simp] theorem State.updGrp_freeCtr (b j : Nat) (f : Group → Group) : (s.updGrp b j f).freeCtr = s.freeCtr := rfl
@[simp] theorem State.updGrp_nextId (b j : Nat) (f : Group → Group) : (s.updGrp b j f).nextId = s.nextId := rfl

/-! ### updThr -/

@[simp] theorem State.updThr_gts (b j l : Nat) (f : Thread → Thread) : (s.updThr b j l f).gts = s.gts := rfl
@[simp] theorem State.updThr_synced (b j l : Nat) (f : Thread → Thread) : (s.updThr b j l f).synced = s.synced := rfl
@[simp] theorem State.updThr_slew (b j l : Nat) (f : Thread → Thread) : (s.updThr b j l f).slew = s.slew := rfl
@[simp] theorem State.updThr_slewHeld (b j l : Nat) (f : Thread → Thread) : (s.updThr b j l f).slewHeld = s.slewHeld := rfl
@[simp] theorem State.updThr_devNo (b j l : Nat) (f : Thread → Thread) : (s.updThr b j l f).devNo = s.devNo := rfl
@[simp] theorem State.updThr_mem (b j l : Nat) (f : Thread → Thread) : (s.updThr b j l f).mem = s.mem := rfl
@[simp] theorem State.updThr_badLines (b j l : Nat) (f : Thread → Thread) : (s.updThr b j l f).badLines = s.badLines := rfl
@[simp] theorem State.updThr_sram (b j l : Nat) (f : Thread → Thread) : (s.updThr b j l f).sram = s.sram := rfl
@[simp] theorem State.updThr_frr (b j l : Nat) (f : Thread → Thread) : (s.updThr b j l f).frr = s.frr := rfl
@[simp] theorem State.updThr_noPort (b j l : Nat) (f : Thread → Thread) : (s.updThr b j l f).noPort = s.noPort := rfl
@[simp] theorem State.updThr_vfs (b j l : Nat) (f : Thread → Thread) : (s.updThr b j l f).vfs = s.vfs := rfl
@[simp] theorem State.updThr_ctxs (b j l : Nat) (f : Thread → Thread) : (s.updThr b j l f).ctxs = s.ctxs := rfl
@[simp] theorem State.updThr_cores (b j l : Nat) (f : Thread → Thread) : (s.updThr b j l f).cores = s.cores := rfl
@[simp] theorem State.updThr_mkt (b j l : Nat) (f : Thread → Thread) : (s.updThr b j l f).mkt = s.mkt := rfl
@[simp] theorem State.updThr_page (b j l : Nat) (f : Thread → Thread) : (s.updThr b j l f).page = s.page := rfl
@[simp] theorem State.updThr_ports (b j l : Nat) (f : Thread → Thread) : (s.updThr b j l f).ports = s.ports := rfl
@[simp] theorem State.updThr_routes (b j l : Nat) (f : Thread → Thread) : (s.updThr b j l f).routes = s.routes := rfl
@[simp] theorem State.updThr_nsqs (b j l : Nat) (f : Thread → Thread) : (s.updThr b j l f).nsqs = s.nsqs := rfl
@[simp] theorem State.updThr_peerSeq (b j l : Nat) (f : Thread → Thread) : (s.updThr b j l f).peerSeq = s.peerSeq := rfl
@[simp] theorem State.updThr_peerReqs (b j l : Nat) (f : Thread → Thread) : (s.updThr b j l f).peerReqs = s.peerReqs := rfl
@[simp] theorem State.updThr_peerIns (b j l : Nat) (f : Thread → Thread) : (s.updThr b j l f).peerIns = s.peerIns := rfl
@[simp] theorem State.updThr_chans (b j l : Nat) (f : Thread → Thread) : (s.updThr b j l f).chans = s.chans := rfl
@[simp] theorem State.updThr_power (b j l : Nat) (f : Thread → Thread) : (s.updThr b j l f).power = s.power := rfl
@[simp] theorem State.updThr_incoming (b j l : Nat) (f : Thread → Thread) : (s.updThr b j l f).incoming = s.incoming := rfl
@[simp] theorem State.updThr_evq (b j l : Nat) (f : Thread → Thread) : (s.updThr b j l f).evq = s.evq := rfl
@[simp] theorem State.updThr_rafters (b j l : Nat) (f : Thread → Thread) : (s.updThr b j l f).rafters = s.rafters := rfl
@[simp] theorem State.updThr_msix (b j l : Nat) (f : Thread → Thread) : (s.updThr b j l f).msix = s.msix := rfl
@[simp] theorem State.updThr_hostOut (b j l : Nat) (f : Thread → Thread) : (s.updThr b j l f).hostOut = s.hostOut := rfl
@[simp] theorem State.updThr_peerOut (b j l : Nat) (f : Thread → Thread) : (s.updThr b j l f).peerOut = s.peerOut := rfl
@[simp] theorem State.updThr_shared (b j l : Nat) (f : Thread → Thread) : (s.updThr b j l f).shared = s.shared := rfl
@[simp] theorem State.updThr_peerHeld (b j l : Nat) (f : Thread → Thread) : (s.updThr b j l f).peerHeld = s.peerHeld := rfl
@[simp] theorem State.updThr_agenda (b j l : Nat) (f : Thread → Thread) : (s.updThr b j l f).agenda = s.agenda := rfl
@[simp] theorem State.updThr_arg (b j l : Nat) (f : Thread → Thread) : (s.updThr b j l f).arg = s.arg := rfl
@[simp] theorem State.updThr_src (b j l : Nat) (f : Thread → Thread) : (s.updThr b j l f).src = s.src := rfl
@[simp] theorem State.updThr_doing (b j l : Nat) (f : Thread → Thread) : (s.updThr b j l f).doing = s.doing := rfl
@[simp] theorem State.updThr_l1 (b j l : Nat) (f : Thread → Thread) : (s.updThr b j l f).l1 = s.l1 := rfl
@[simp] theorem State.updThr_l2 (b j l : Nat) (f : Thread → Thread) : (s.updThr b j l f).l2 = s.l2 := rfl
@[simp] theorem State.updThr_peerGot (b j l : Nat) (f : Thread → Thread) : (s.updThr b j l f).peerGot = s.peerGot := rfl
@[simp] theorem State.updThr_turn (b j l : Nat) (f : Thread → Thread) : (s.updThr b j l f).turn = s.turn := rfl
@[simp] theorem State.updThr_cur (b j l : Nat) (f : Thread → Thread) : (s.updThr b j l f).cur = s.cur := rfl
@[simp] theorem State.updThr_freeCtr (b j l : Nat) (f : Thread → Thread) : (s.updThr b j l f).freeCtr = s.freeCtr := rfl
@[simp] theorem State.updThr_nextId (b j l : Nat) (f : Thread → Thread) : (s.updThr b j l f).nextId = s.nextId := rfl

/-! ### updQueue -/

@[simp] theorem State.updQueue_gts (c q : Nat) (f : Queue → Queue) : (s.updQueue c q f).gts = s.gts := rfl
@[simp] theorem State.updQueue_synced (c q : Nat) (f : Queue → Queue) : (s.updQueue c q f).synced = s.synced := rfl
@[simp] theorem State.updQueue_slew (c q : Nat) (f : Queue → Queue) : (s.updQueue c q f).slew = s.slew := rfl
@[simp] theorem State.updQueue_slewHeld (c q : Nat) (f : Queue → Queue) : (s.updQueue c q f).slewHeld = s.slewHeld := rfl
@[simp] theorem State.updQueue_devNo (c q : Nat) (f : Queue → Queue) : (s.updQueue c q f).devNo = s.devNo := rfl
@[simp] theorem State.updQueue_mem (c q : Nat) (f : Queue → Queue) : (s.updQueue c q f).mem = s.mem := rfl
@[simp] theorem State.updQueue_badLines (c q : Nat) (f : Queue → Queue) : (s.updQueue c q f).badLines = s.badLines := rfl
@[simp] theorem State.updQueue_sram (c q : Nat) (f : Queue → Queue) : (s.updQueue c q f).sram = s.sram := rfl
@[simp] theorem State.updQueue_frr (c q : Nat) (f : Queue → Queue) : (s.updQueue c q f).frr = s.frr := rfl
@[simp] theorem State.updQueue_noPort (c q : Nat) (f : Queue → Queue) : (s.updQueue c q f).noPort = s.noPort := rfl
@[simp] theorem State.updQueue_vfs (c q : Nat) (f : Queue → Queue) : (s.updQueue c q f).vfs = s.vfs := rfl
@[simp] theorem State.updQueue_blks (c q : Nat) (f : Queue → Queue) : (s.updQueue c q f).blks = s.blks := rfl
@[simp] theorem State.updQueue_cores (c q : Nat) (f : Queue → Queue) : (s.updQueue c q f).cores = s.cores := rfl
@[simp] theorem State.updQueue_mkt (c q : Nat) (f : Queue → Queue) : (s.updQueue c q f).mkt = s.mkt := rfl
@[simp] theorem State.updQueue_page (c q : Nat) (f : Queue → Queue) : (s.updQueue c q f).page = s.page := rfl
@[simp] theorem State.updQueue_ports (c q : Nat) (f : Queue → Queue) : (s.updQueue c q f).ports = s.ports := rfl
@[simp] theorem State.updQueue_routes (c q : Nat) (f : Queue → Queue) : (s.updQueue c q f).routes = s.routes := rfl
@[simp] theorem State.updQueue_nsqs (c q : Nat) (f : Queue → Queue) : (s.updQueue c q f).nsqs = s.nsqs := rfl
@[simp] theorem State.updQueue_peerSeq (c q : Nat) (f : Queue → Queue) : (s.updQueue c q f).peerSeq = s.peerSeq := rfl
@[simp] theorem State.updQueue_peerReqs (c q : Nat) (f : Queue → Queue) : (s.updQueue c q f).peerReqs = s.peerReqs := rfl
@[simp] theorem State.updQueue_peerIns (c q : Nat) (f : Queue → Queue) : (s.updQueue c q f).peerIns = s.peerIns := rfl
@[simp] theorem State.updQueue_chans (c q : Nat) (f : Queue → Queue) : (s.updQueue c q f).chans = s.chans := rfl
@[simp] theorem State.updQueue_power (c q : Nat) (f : Queue → Queue) : (s.updQueue c q f).power = s.power := rfl
@[simp] theorem State.updQueue_incoming (c q : Nat) (f : Queue → Queue) : (s.updQueue c q f).incoming = s.incoming := rfl
@[simp] theorem State.updQueue_evq (c q : Nat) (f : Queue → Queue) : (s.updQueue c q f).evq = s.evq := rfl
@[simp] theorem State.updQueue_rafters (c q : Nat) (f : Queue → Queue) : (s.updQueue c q f).rafters = s.rafters := rfl
@[simp] theorem State.updQueue_msix (c q : Nat) (f : Queue → Queue) : (s.updQueue c q f).msix = s.msix := rfl
@[simp] theorem State.updQueue_hostOut (c q : Nat) (f : Queue → Queue) : (s.updQueue c q f).hostOut = s.hostOut := rfl
@[simp] theorem State.updQueue_peerOut (c q : Nat) (f : Queue → Queue) : (s.updQueue c q f).peerOut = s.peerOut := rfl
@[simp] theorem State.updQueue_shared (c q : Nat) (f : Queue → Queue) : (s.updQueue c q f).shared = s.shared := rfl
@[simp] theorem State.updQueue_peerHeld (c q : Nat) (f : Queue → Queue) : (s.updQueue c q f).peerHeld = s.peerHeld := rfl
@[simp] theorem State.updQueue_agenda (c q : Nat) (f : Queue → Queue) : (s.updQueue c q f).agenda = s.agenda := rfl
@[simp] theorem State.updQueue_arg (c q : Nat) (f : Queue → Queue) : (s.updQueue c q f).arg = s.arg := rfl
@[simp] theorem State.updQueue_src (c q : Nat) (f : Queue → Queue) : (s.updQueue c q f).src = s.src := rfl
@[simp] theorem State.updQueue_doing (c q : Nat) (f : Queue → Queue) : (s.updQueue c q f).doing = s.doing := rfl
@[simp] theorem State.updQueue_l1 (c q : Nat) (f : Queue → Queue) : (s.updQueue c q f).l1 = s.l1 := rfl
@[simp] theorem State.updQueue_l2 (c q : Nat) (f : Queue → Queue) : (s.updQueue c q f).l2 = s.l2 := rfl
@[simp] theorem State.updQueue_peerGot (c q : Nat) (f : Queue → Queue) : (s.updQueue c q f).peerGot = s.peerGot := rfl
@[simp] theorem State.updQueue_turn (c q : Nat) (f : Queue → Queue) : (s.updQueue c q f).turn = s.turn := rfl
@[simp] theorem State.updQueue_cur (c q : Nat) (f : Queue → Queue) : (s.updQueue c q f).cur = s.cur := rfl
@[simp] theorem State.updQueue_freeCtr (c q : Nat) (f : Queue → Queue) : (s.updQueue c q f).freeCtr = s.freeCtr := rfl
@[simp] theorem State.updQueue_nextId (c q : Nat) (f : Queue → Queue) : (s.updQueue c q f).nextId = s.nextId := rfl

/-! ### updLaunch -/

@[simp] theorem State.updLaunch_gts (c n : Nat) (f : Launch → Launch) : (s.updLaunch c n f).gts = s.gts := rfl
@[simp] theorem State.updLaunch_synced (c n : Nat) (f : Launch → Launch) : (s.updLaunch c n f).synced = s.synced := rfl
@[simp] theorem State.updLaunch_slew (c n : Nat) (f : Launch → Launch) : (s.updLaunch c n f).slew = s.slew := rfl
@[simp] theorem State.updLaunch_slewHeld (c n : Nat) (f : Launch → Launch) : (s.updLaunch c n f).slewHeld = s.slewHeld := rfl
@[simp] theorem State.updLaunch_devNo (c n : Nat) (f : Launch → Launch) : (s.updLaunch c n f).devNo = s.devNo := rfl
@[simp] theorem State.updLaunch_mem (c n : Nat) (f : Launch → Launch) : (s.updLaunch c n f).mem = s.mem := rfl
@[simp] theorem State.updLaunch_badLines (c n : Nat) (f : Launch → Launch) : (s.updLaunch c n f).badLines = s.badLines := rfl
@[simp] theorem State.updLaunch_sram (c n : Nat) (f : Launch → Launch) : (s.updLaunch c n f).sram = s.sram := rfl
@[simp] theorem State.updLaunch_frr (c n : Nat) (f : Launch → Launch) : (s.updLaunch c n f).frr = s.frr := rfl
@[simp] theorem State.updLaunch_noPort (c n : Nat) (f : Launch → Launch) : (s.updLaunch c n f).noPort = s.noPort := rfl
@[simp] theorem State.updLaunch_vfs (c n : Nat) (f : Launch → Launch) : (s.updLaunch c n f).vfs = s.vfs := rfl
@[simp] theorem State.updLaunch_blks (c n : Nat) (f : Launch → Launch) : (s.updLaunch c n f).blks = s.blks := rfl
@[simp] theorem State.updLaunch_cores (c n : Nat) (f : Launch → Launch) : (s.updLaunch c n f).cores = s.cores := rfl
@[simp] theorem State.updLaunch_mkt (c n : Nat) (f : Launch → Launch) : (s.updLaunch c n f).mkt = s.mkt := rfl
@[simp] theorem State.updLaunch_page (c n : Nat) (f : Launch → Launch) : (s.updLaunch c n f).page = s.page := rfl
@[simp] theorem State.updLaunch_ports (c n : Nat) (f : Launch → Launch) : (s.updLaunch c n f).ports = s.ports := rfl
@[simp] theorem State.updLaunch_routes (c n : Nat) (f : Launch → Launch) : (s.updLaunch c n f).routes = s.routes := rfl
@[simp] theorem State.updLaunch_nsqs (c n : Nat) (f : Launch → Launch) : (s.updLaunch c n f).nsqs = s.nsqs := rfl
@[simp] theorem State.updLaunch_peerSeq (c n : Nat) (f : Launch → Launch) : (s.updLaunch c n f).peerSeq = s.peerSeq := rfl
@[simp] theorem State.updLaunch_peerReqs (c n : Nat) (f : Launch → Launch) : (s.updLaunch c n f).peerReqs = s.peerReqs := rfl
@[simp] theorem State.updLaunch_peerIns (c n : Nat) (f : Launch → Launch) : (s.updLaunch c n f).peerIns = s.peerIns := rfl
@[simp] theorem State.updLaunch_chans (c n : Nat) (f : Launch → Launch) : (s.updLaunch c n f).chans = s.chans := rfl
@[simp] theorem State.updLaunch_power (c n : Nat) (f : Launch → Launch) : (s.updLaunch c n f).power = s.power := rfl
@[simp] theorem State.updLaunch_incoming (c n : Nat) (f : Launch → Launch) : (s.updLaunch c n f).incoming = s.incoming := rfl
@[simp] theorem State.updLaunch_evq (c n : Nat) (f : Launch → Launch) : (s.updLaunch c n f).evq = s.evq := rfl
@[simp] theorem State.updLaunch_rafters (c n : Nat) (f : Launch → Launch) : (s.updLaunch c n f).rafters = s.rafters := rfl
@[simp] theorem State.updLaunch_msix (c n : Nat) (f : Launch → Launch) : (s.updLaunch c n f).msix = s.msix := rfl
@[simp] theorem State.updLaunch_hostOut (c n : Nat) (f : Launch → Launch) : (s.updLaunch c n f).hostOut = s.hostOut := rfl
@[simp] theorem State.updLaunch_peerOut (c n : Nat) (f : Launch → Launch) : (s.updLaunch c n f).peerOut = s.peerOut := rfl
@[simp] theorem State.updLaunch_shared (c n : Nat) (f : Launch → Launch) : (s.updLaunch c n f).shared = s.shared := rfl
@[simp] theorem State.updLaunch_peerHeld (c n : Nat) (f : Launch → Launch) : (s.updLaunch c n f).peerHeld = s.peerHeld := rfl
@[simp] theorem State.updLaunch_agenda (c n : Nat) (f : Launch → Launch) : (s.updLaunch c n f).agenda = s.agenda := rfl
@[simp] theorem State.updLaunch_arg (c n : Nat) (f : Launch → Launch) : (s.updLaunch c n f).arg = s.arg := rfl
@[simp] theorem State.updLaunch_src (c n : Nat) (f : Launch → Launch) : (s.updLaunch c n f).src = s.src := rfl
@[simp] theorem State.updLaunch_doing (c n : Nat) (f : Launch → Launch) : (s.updLaunch c n f).doing = s.doing := rfl
@[simp] theorem State.updLaunch_l1 (c n : Nat) (f : Launch → Launch) : (s.updLaunch c n f).l1 = s.l1 := rfl
@[simp] theorem State.updLaunch_l2 (c n : Nat) (f : Launch → Launch) : (s.updLaunch c n f).l2 = s.l2 := rfl
@[simp] theorem State.updLaunch_peerGot (c n : Nat) (f : Launch → Launch) : (s.updLaunch c n f).peerGot = s.peerGot := rfl
@[simp] theorem State.updLaunch_turn (c n : Nat) (f : Launch → Launch) : (s.updLaunch c n f).turn = s.turn := rfl
@[simp] theorem State.updLaunch_cur (c n : Nat) (f : Launch → Launch) : (s.updLaunch c n f).cur = s.cur := rfl
@[simp] theorem State.updLaunch_freeCtr (c n : Nat) (f : Launch → Launch) : (s.updLaunch c n f).freeCtr = s.freeCtr := rfl
@[simp] theorem State.updLaunch_nextId (c n : Nat) (f : Launch → Launch) : (s.updLaunch c n f).nextId = s.nextId := rfl

/-! ### post -/

@[simp] theorem State.post_gts (due src : Nat) (ev : Instr) (a : Arg) : (s.post due src ev a).gts = s.gts := rfl
@[simp] theorem State.post_synced (due src : Nat) (ev : Instr) (a : Arg) : (s.post due src ev a).synced = s.synced := rfl
@[simp] theorem State.post_slew (due src : Nat) (ev : Instr) (a : Arg) : (s.post due src ev a).slew = s.slew := rfl
@[simp] theorem State.post_slewHeld (due src : Nat) (ev : Instr) (a : Arg) : (s.post due src ev a).slewHeld = s.slewHeld := rfl
@[simp] theorem State.post_devNo (due src : Nat) (ev : Instr) (a : Arg) : (s.post due src ev a).devNo = s.devNo := rfl
@[simp] theorem State.post_mem (due src : Nat) (ev : Instr) (a : Arg) : (s.post due src ev a).mem = s.mem := rfl
@[simp] theorem State.post_badLines (due src : Nat) (ev : Instr) (a : Arg) : (s.post due src ev a).badLines = s.badLines := rfl
@[simp] theorem State.post_sram (due src : Nat) (ev : Instr) (a : Arg) : (s.post due src ev a).sram = s.sram := rfl
@[simp] theorem State.post_frr (due src : Nat) (ev : Instr) (a : Arg) : (s.post due src ev a).frr = s.frr := rfl
@[simp] theorem State.post_noPort (due src : Nat) (ev : Instr) (a : Arg) : (s.post due src ev a).noPort = s.noPort := rfl
@[simp] theorem State.post_vfs (due src : Nat) (ev : Instr) (a : Arg) : (s.post due src ev a).vfs = s.vfs := rfl
@[simp] theorem State.post_ctxs (due src : Nat) (ev : Instr) (a : Arg) : (s.post due src ev a).ctxs = s.ctxs := rfl
@[simp] theorem State.post_blks (due src : Nat) (ev : Instr) (a : Arg) : (s.post due src ev a).blks = s.blks := rfl
@[simp] theorem State.post_cores (due src : Nat) (ev : Instr) (a : Arg) : (s.post due src ev a).cores = s.cores := rfl
@[simp] theorem State.post_mkt (due src : Nat) (ev : Instr) (a : Arg) : (s.post due src ev a).mkt = s.mkt := rfl
@[simp] theorem State.post_page (due src : Nat) (ev : Instr) (a : Arg) : (s.post due src ev a).page = s.page := rfl
@[simp] theorem State.post_ports (due src : Nat) (ev : Instr) (a : Arg) : (s.post due src ev a).ports = s.ports := rfl
@[simp] theorem State.post_routes (due src : Nat) (ev : Instr) (a : Arg) : (s.post due src ev a).routes = s.routes := rfl
@[simp] theorem State.post_nsqs (due src : Nat) (ev : Instr) (a : Arg) : (s.post due src ev a).nsqs = s.nsqs := rfl
@[simp] theorem State.post_peerSeq (due src : Nat) (ev : Instr) (a : Arg) : (s.post due src ev a).peerSeq = s.peerSeq := rfl
@[simp] theorem State.post_peerReqs (due src : Nat) (ev : Instr) (a : Arg) : (s.post due src ev a).peerReqs = s.peerReqs := rfl
@[simp] theorem State.post_peerIns (due src : Nat) (ev : Instr) (a : Arg) : (s.post due src ev a).peerIns = s.peerIns := rfl
@[simp] theorem State.post_chans (due src : Nat) (ev : Instr) (a : Arg) : (s.post due src ev a).chans = s.chans := rfl
@[simp] theorem State.post_power (due src : Nat) (ev : Instr) (a : Arg) : (s.post due src ev a).power = s.power := rfl
@[simp] theorem State.post_incoming (due src : Nat) (ev : Instr) (a : Arg) : (s.post due src ev a).incoming = s.incoming := rfl
@[simp] theorem State.post_evq (due src : Nat) (ev : Instr) (a : Arg) : (s.post due src ev a).evq = s.evq := rfl
@[simp] theorem State.post_rafters (due src : Nat) (ev : Instr) (a : Arg) : (s.post due src ev a).rafters = s.rafters := rfl
@[simp] theorem State.post_msix (due src : Nat) (ev : Instr) (a : Arg) : (s.post due src ev a).msix = s.msix := rfl
@[simp] theorem State.post_hostOut (due src : Nat) (ev : Instr) (a : Arg) : (s.post due src ev a).hostOut = s.hostOut := rfl
@[simp] theorem State.post_peerOut (due src : Nat) (ev : Instr) (a : Arg) : (s.post due src ev a).peerOut = s.peerOut := rfl
@[simp] theorem State.post_shared (due src : Nat) (ev : Instr) (a : Arg) : (s.post due src ev a).shared = s.shared := rfl
@[simp] theorem State.post_peerHeld (due src : Nat) (ev : Instr) (a : Arg) : (s.post due src ev a).peerHeld = s.peerHeld := rfl
@[simp] theorem State.post_agenda (due src : Nat) (ev : Instr) (a : Arg) : (s.post due src ev a).agenda = s.agenda ++ [⟨due, src, ev, a⟩] := rfl
@[simp] theorem State.post_arg (due src : Nat) (ev : Instr) (a : Arg) : (s.post due src ev a).arg = s.arg := rfl
@[simp] theorem State.post_src (due src : Nat) (ev : Instr) (a : Arg) : (s.post due src ev a).src = s.src := rfl
@[simp] theorem State.post_doing (due src : Nat) (ev : Instr) (a : Arg) : (s.post due src ev a).doing = s.doing := rfl
@[simp] theorem State.post_l1 (due src : Nat) (ev : Instr) (a : Arg) : (s.post due src ev a).l1 = s.l1 := rfl
@[simp] theorem State.post_l2 (due src : Nat) (ev : Instr) (a : Arg) : (s.post due src ev a).l2 = s.l2 := rfl
@[simp] theorem State.post_peerGot (due src : Nat) (ev : Instr) (a : Arg) : (s.post due src ev a).peerGot = s.peerGot := rfl
@[simp] theorem State.post_turn (due src : Nat) (ev : Instr) (a : Arg) : (s.post due src ev a).turn = s.turn := rfl
@[simp] theorem State.post_cur (due src : Nat) (ev : Instr) (a : Arg) : (s.post due src ev a).cur = s.cur := rfl
@[simp] theorem State.post_freeCtr (due src : Nat) (ev : Instr) (a : Arg) : (s.post due src ev a).freeCtr = s.freeCtr := rfl
@[simp] theorem State.post_nextId (due src : Nat) (ev : Instr) (a : Arg) : (s.post due src ev a).nextId = s.nextId := rfl

/-! ### unpost -/

@[simp] theorem State.unpost_gts (ev : Instr) (a : Arg) : (s.unpost ev a).gts = s.gts := rfl
@[simp] theorem State.unpost_synced (ev : Instr) (a : Arg) : (s.unpost ev a).synced = s.synced := rfl
@[simp] theorem State.unpost_slew (ev : Instr) (a : Arg) : (s.unpost ev a).slew = s.slew := rfl
@[simp] theorem State.unpost_slewHeld (ev : Instr) (a : Arg) : (s.unpost ev a).slewHeld = s.slewHeld := rfl
@[simp] theorem State.unpost_devNo (ev : Instr) (a : Arg) : (s.unpost ev a).devNo = s.devNo := rfl
@[simp] theorem State.unpost_mem (ev : Instr) (a : Arg) : (s.unpost ev a).mem = s.mem := rfl
@[simp] theorem State.unpost_badLines (ev : Instr) (a : Arg) : (s.unpost ev a).badLines = s.badLines := rfl
@[simp] theorem State.unpost_sram (ev : Instr) (a : Arg) : (s.unpost ev a).sram = s.sram := rfl
@[simp] theorem State.unpost_frr (ev : Instr) (a : Arg) : (s.unpost ev a).frr = s.frr := rfl
@[simp] theorem State.unpost_noPort (ev : Instr) (a : Arg) : (s.unpost ev a).noPort = s.noPort := rfl
@[simp] theorem State.unpost_vfs (ev : Instr) (a : Arg) : (s.unpost ev a).vfs = s.vfs := rfl
@[simp] theorem State.unpost_ctxs (ev : Instr) (a : Arg) : (s.unpost ev a).ctxs = s.ctxs := rfl
@[simp] theorem State.unpost_blks (ev : Instr) (a : Arg) : (s.unpost ev a).blks = s.blks := rfl
@[simp] theorem State.unpost_cores (ev : Instr) (a : Arg) : (s.unpost ev a).cores = s.cores := rfl
@[simp] theorem State.unpost_mkt (ev : Instr) (a : Arg) : (s.unpost ev a).mkt = s.mkt := rfl
@[simp] theorem State.unpost_page (ev : Instr) (a : Arg) : (s.unpost ev a).page = s.page := rfl
@[simp] theorem State.unpost_ports (ev : Instr) (a : Arg) : (s.unpost ev a).ports = s.ports := rfl
@[simp] theorem State.unpost_routes (ev : Instr) (a : Arg) : (s.unpost ev a).routes = s.routes := rfl
@[simp] theorem State.unpost_nsqs (ev : Instr) (a : Arg) : (s.unpost ev a).nsqs = s.nsqs := rfl
@[simp] theorem State.unpost_peerSeq (ev : Instr) (a : Arg) : (s.unpost ev a).peerSeq = s.peerSeq := rfl
@[simp] theorem State.unpost_peerReqs (ev : Instr) (a : Arg) : (s.unpost ev a).peerReqs = s.peerReqs := rfl
@[simp] theorem State.unpost_peerIns (ev : Instr) (a : Arg) : (s.unpost ev a).peerIns = s.peerIns := rfl
@[simp] theorem State.unpost_chans (ev : Instr) (a : Arg) : (s.unpost ev a).chans = s.chans := rfl
@[simp] theorem State.unpost_power (ev : Instr) (a : Arg) : (s.unpost ev a).power = s.power := rfl
@[simp] theorem State.unpost_incoming (ev : Instr) (a : Arg) : (s.unpost ev a).incoming = s.incoming := rfl
@[simp] theorem State.unpost_evq (ev : Instr) (a : Arg) : (s.unpost ev a).evq = s.evq := rfl
@[simp] theorem State.unpost_rafters (ev : Instr) (a : Arg) : (s.unpost ev a).rafters = s.rafters := rfl
@[simp] theorem State.unpost_msix (ev : Instr) (a : Arg) : (s.unpost ev a).msix = s.msix := rfl
@[simp] theorem State.unpost_hostOut (ev : Instr) (a : Arg) : (s.unpost ev a).hostOut = s.hostOut := rfl
@[simp] theorem State.unpost_peerOut (ev : Instr) (a : Arg) : (s.unpost ev a).peerOut = s.peerOut := rfl
@[simp] theorem State.unpost_shared (ev : Instr) (a : Arg) : (s.unpost ev a).shared = s.shared := rfl
@[simp] theorem State.unpost_peerHeld (ev : Instr) (a : Arg) : (s.unpost ev a).peerHeld = s.peerHeld := rfl
@[simp] theorem State.unpost_agenda (ev : Instr) (a : Arg) : (s.unpost ev a).agenda = s.agenda.filter (fun e => e.ev ≠ ev ∨ e.arg ≠ a) := rfl
@[simp] theorem State.unpost_arg (ev : Instr) (a : Arg) : (s.unpost ev a).arg = s.arg := rfl
@[simp] theorem State.unpost_src (ev : Instr) (a : Arg) : (s.unpost ev a).src = s.src := rfl
@[simp] theorem State.unpost_doing (ev : Instr) (a : Arg) : (s.unpost ev a).doing = s.doing := rfl
@[simp] theorem State.unpost_l1 (ev : Instr) (a : Arg) : (s.unpost ev a).l1 = s.l1 := rfl
@[simp] theorem State.unpost_l2 (ev : Instr) (a : Arg) : (s.unpost ev a).l2 = s.l2 := rfl
@[simp] theorem State.unpost_peerGot (ev : Instr) (a : Arg) : (s.unpost ev a).peerGot = s.peerGot := rfl
@[simp] theorem State.unpost_turn (ev : Instr) (a : Arg) : (s.unpost ev a).turn = s.turn := rfl
@[simp] theorem State.unpost_cur (ev : Instr) (a : Arg) : (s.unpost ev a).cur = s.cur := rfl
@[simp] theorem State.unpost_freeCtr (ev : Instr) (a : Arg) : (s.unpost ev a).freeCtr = s.freeCtr := rfl
@[simp] theorem State.unpost_nextId (ev : Instr) (a : Arg) : (s.unpost ev a).nextId = s.nextId := rfl

/-! ### tick -/

@[simp] theorem State.tick_gts : (s.tick).gts = s.gts := rfl
@[simp] theorem State.tick_synced : (s.tick).synced = s.synced := rfl
@[simp] theorem State.tick_slew : (s.tick).slew = s.slew := rfl
@[simp] theorem State.tick_slewHeld : (s.tick).slewHeld = s.slewHeld := rfl
@[simp] theorem State.tick_devNo : (s.tick).devNo = s.devNo := rfl
@[simp] theorem State.tick_mem : (s.tick).mem = s.mem := rfl
@[simp] theorem State.tick_badLines : (s.tick).badLines = s.badLines := rfl
@[simp] theorem State.tick_sram : (s.tick).sram = s.sram := rfl
@[simp] theorem State.tick_frr : (s.tick).frr = s.frr := rfl
@[simp] theorem State.tick_noPort : (s.tick).noPort = s.noPort := rfl
@[simp] theorem State.tick_vfs : (s.tick).vfs = s.vfs := rfl
@[simp] theorem State.tick_ctxs : (s.tick).ctxs = s.ctxs := rfl
@[simp] theorem State.tick_blks : (s.tick).blks = s.blks := rfl
@[simp] theorem State.tick_cores : (s.tick).cores = s.cores := rfl
@[simp] theorem State.tick_mkt : (s.tick).mkt = s.mkt := rfl
@[simp] theorem State.tick_page : (s.tick).page = s.page := rfl
@[simp] theorem State.tick_ports : (s.tick).ports = s.ports := rfl
@[simp] theorem State.tick_routes : (s.tick).routes = s.routes := rfl
@[simp] theorem State.tick_nsqs : (s.tick).nsqs = s.nsqs := rfl
@[simp] theorem State.tick_peerSeq : (s.tick).peerSeq = s.peerSeq := rfl
@[simp] theorem State.tick_peerReqs : (s.tick).peerReqs = s.peerReqs := rfl
@[simp] theorem State.tick_peerIns : (s.tick).peerIns = s.peerIns := rfl
@[simp] theorem State.tick_chans : (s.tick).chans = s.chans := rfl
@[simp] theorem State.tick_power : (s.tick).power = s.power := rfl
@[simp] theorem State.tick_incoming : (s.tick).incoming = s.incoming := rfl
@[simp] theorem State.tick_evq : (s.tick).evq = s.evq := rfl
@[simp] theorem State.tick_rafters : (s.tick).rafters = s.rafters := rfl
@[simp] theorem State.tick_msix : (s.tick).msix = s.msix := rfl
@[simp] theorem State.tick_hostOut : (s.tick).hostOut = s.hostOut := rfl
@[simp] theorem State.tick_peerOut : (s.tick).peerOut = s.peerOut := rfl
@[simp] theorem State.tick_l1 : (s.tick).l1 = s.l1 := rfl
@[simp] theorem State.tick_l2 : (s.tick).l2 = s.l2 := rfl
@[simp] theorem State.tick_peerGot : (s.tick).peerGot = s.peerGot := rfl
@[simp] theorem State.tick_src : (s.tick).src = s.src := rfl
@[simp] theorem State.tick_doing : (s.tick).doing = s.doing := rfl
@[simp] theorem State.tick_shared : (s.tick).shared = s.shared := rfl
@[simp] theorem State.tick_peerHeld : (s.tick).peerHeld = s.peerHeld := rfl
@[simp] theorem State.tick_agenda : (s.tick).agenda = s.agenda := rfl
@[simp] theorem State.tick_arg : (s.tick).arg = s.arg := rfl
@[simp] theorem State.tick_turn : (s.tick).turn = s.turn := rfl
@[simp] theorem State.tick_cur : (s.tick).cur = s.cur := rfl
@[simp] theorem State.tick_freeCtr : (s.tick).freeCtr = s.freeCtr + 1 := rfl
@[simp] theorem State.tick_nextId : (s.tick).nextId = s.nextId := rfl

/-! ### updPort -/

@[simp] theorem State.updPort_gts (p : Nat) (f : Port → Port) : (s.updPort p f).gts = s.gts := rfl
@[simp] theorem State.updPort_synced (p : Nat) (f : Port → Port) : (s.updPort p f).synced = s.synced := rfl
@[simp] theorem State.updPort_slew (p : Nat) (f : Port → Port) : (s.updPort p f).slew = s.slew := rfl
@[simp] theorem State.updPort_slewHeld (p : Nat) (f : Port → Port) : (s.updPort p f).slewHeld = s.slewHeld := rfl
@[simp] theorem State.updPort_devNo (p : Nat) (f : Port → Port) : (s.updPort p f).devNo = s.devNo := rfl
@[simp] theorem State.updPort_mem (p : Nat) (f : Port → Port) : (s.updPort p f).mem = s.mem := rfl
@[simp] theorem State.updPort_badLines (p : Nat) (f : Port → Port) : (s.updPort p f).badLines = s.badLines := rfl
@[simp] theorem State.updPort_sram (p : Nat) (f : Port → Port) : (s.updPort p f).sram = s.sram := rfl
@[simp] theorem State.updPort_frr (p : Nat) (f : Port → Port) : (s.updPort p f).frr = s.frr := rfl
@[simp] theorem State.updPort_noPort (p : Nat) (f : Port → Port) : (s.updPort p f).noPort = s.noPort := rfl
@[simp] theorem State.updPort_vfs (p : Nat) (f : Port → Port) : (s.updPort p f).vfs = s.vfs := rfl
@[simp] theorem State.updPort_ctxs (p : Nat) (f : Port → Port) : (s.updPort p f).ctxs = s.ctxs := rfl
@[simp] theorem State.updPort_blks (p : Nat) (f : Port → Port) : (s.updPort p f).blks = s.blks := rfl
@[simp] theorem State.updPort_cores (p : Nat) (f : Port → Port) : (s.updPort p f).cores = s.cores := rfl
@[simp] theorem State.updPort_mkt (p : Nat) (f : Port → Port) : (s.updPort p f).mkt = s.mkt := rfl
@[simp] theorem State.updPort_page (p : Nat) (f : Port → Port) : (s.updPort p f).page = s.page := rfl
@[simp] theorem State.updPort_ports (p : Nat) (f : Port → Port) : (s.updPort p f).ports = tset s.ports p (f (s.port p)) := rfl
@[simp] theorem State.updPort_routes (p : Nat) (f : Port → Port) : (s.updPort p f).routes = s.routes := rfl
@[simp] theorem State.updPort_nsqs (p : Nat) (f : Port → Port) : (s.updPort p f).nsqs = s.nsqs := rfl
@[simp] theorem State.updPort_peerSeq (p : Nat) (f : Port → Port) : (s.updPort p f).peerSeq = s.peerSeq := rfl
@[simp] theorem State.updPort_peerReqs (p : Nat) (f : Port → Port) : (s.updPort p f).peerReqs = s.peerReqs := rfl
@[simp] theorem State.updPort_peerIns (p : Nat) (f : Port → Port) : (s.updPort p f).peerIns = s.peerIns := rfl
@[simp] theorem State.updPort_chans (p : Nat) (f : Port → Port) : (s.updPort p f).chans = s.chans := rfl
@[simp] theorem State.updPort_power (p : Nat) (f : Port → Port) : (s.updPort p f).power = s.power := rfl
@[simp] theorem State.updPort_incoming (p : Nat) (f : Port → Port) : (s.updPort p f).incoming = s.incoming := rfl
@[simp] theorem State.updPort_evq (p : Nat) (f : Port → Port) : (s.updPort p f).evq = s.evq := rfl
@[simp] theorem State.updPort_rafters (p : Nat) (f : Port → Port) : (s.updPort p f).rafters = s.rafters := rfl
@[simp] theorem State.updPort_msix (p : Nat) (f : Port → Port) : (s.updPort p f).msix = s.msix := rfl
@[simp] theorem State.updPort_hostOut (p : Nat) (f : Port → Port) : (s.updPort p f).hostOut = s.hostOut := rfl
@[simp] theorem State.updPort_peerOut (p : Nat) (f : Port → Port) : (s.updPort p f).peerOut = s.peerOut := rfl
@[simp] theorem State.updPort_shared (p : Nat) (f : Port → Port) : (s.updPort p f).shared = s.shared := rfl
@[simp] theorem State.updPort_peerHeld (p : Nat) (f : Port → Port) : (s.updPort p f).peerHeld = s.peerHeld := rfl
@[simp] theorem State.updPort_agenda (p : Nat) (f : Port → Port) : (s.updPort p f).agenda = s.agenda := rfl
@[simp] theorem State.updPort_arg (p : Nat) (f : Port → Port) : (s.updPort p f).arg = s.arg := rfl
@[simp] theorem State.updPort_src (p : Nat) (f : Port → Port) : (s.updPort p f).src = s.src := rfl
@[simp] theorem State.updPort_doing (p : Nat) (f : Port → Port) : (s.updPort p f).doing = s.doing := rfl
@[simp] theorem State.updPort_l1 (p : Nat) (f : Port → Port) : (s.updPort p f).l1 = s.l1 := rfl
@[simp] theorem State.updPort_l2 (p : Nat) (f : Port → Port) : (s.updPort p f).l2 = s.l2 := rfl
@[simp] theorem State.updPort_peerGot (p : Nat) (f : Port → Port) : (s.updPort p f).peerGot = s.peerGot := rfl
@[simp] theorem State.updPort_turn (p : Nat) (f : Port → Port) : (s.updPort p f).turn = s.turn := rfl
@[simp] theorem State.updPort_cur (p : Nat) (f : Port → Port) : (s.updPort p f).cur = s.cur := rfl
@[simp] theorem State.updPort_freeCtr (p : Nat) (f : Port → Port) : (s.updPort p f).freeCtr = s.freeCtr := rfl
@[simp] theorem State.updPort_nextId (p : Nat) (f : Port → Port) : (s.updPort p f).nextId = s.nextId := rfl

/-! ### updNsq -/

@[simp] theorem State.updNsq_gts (n : Nat) (f : Nsq → Nsq) : (s.updNsq n f).gts = s.gts := rfl
@[simp] theorem State.updNsq_synced (n : Nat) (f : Nsq → Nsq) : (s.updNsq n f).synced = s.synced := rfl
@[simp] theorem State.updNsq_slew (n : Nat) (f : Nsq → Nsq) : (s.updNsq n f).slew = s.slew := rfl
@[simp] theorem State.updNsq_slewHeld (n : Nat) (f : Nsq → Nsq) : (s.updNsq n f).slewHeld = s.slewHeld := rfl
@[simp] theorem State.updNsq_devNo (n : Nat) (f : Nsq → Nsq) : (s.updNsq n f).devNo = s.devNo := rfl
@[simp] theorem State.updNsq_mem (n : Nat) (f : Nsq → Nsq) : (s.updNsq n f).mem = s.mem := rfl
@[simp] theorem State.updNsq_badLines (n : Nat) (f : Nsq → Nsq) : (s.updNsq n f).badLines = s.badLines := rfl
@[simp] theorem State.updNsq_sram (n : Nat) (f : Nsq → Nsq) : (s.updNsq n f).sram = s.sram := rfl
@[simp] theorem State.updNsq_frr (n : Nat) (f : Nsq → Nsq) : (s.updNsq n f).frr = s.frr := rfl
@[simp] theorem State.updNsq_noPort (n : Nat) (f : Nsq → Nsq) : (s.updNsq n f).noPort = s.noPort := rfl
@[simp] theorem State.updNsq_vfs (n : Nat) (f : Nsq → Nsq) : (s.updNsq n f).vfs = s.vfs := rfl
@[simp] theorem State.updNsq_ctxs (n : Nat) (f : Nsq → Nsq) : (s.updNsq n f).ctxs = s.ctxs := rfl
@[simp] theorem State.updNsq_blks (n : Nat) (f : Nsq → Nsq) : (s.updNsq n f).blks = s.blks := rfl
@[simp] theorem State.updNsq_cores (n : Nat) (f : Nsq → Nsq) : (s.updNsq n f).cores = s.cores := rfl
@[simp] theorem State.updNsq_mkt (n : Nat) (f : Nsq → Nsq) : (s.updNsq n f).mkt = s.mkt := rfl
@[simp] theorem State.updNsq_page (n : Nat) (f : Nsq → Nsq) : (s.updNsq n f).page = s.page := rfl
@[simp] theorem State.updNsq_ports (n : Nat) (f : Nsq → Nsq) : (s.updNsq n f).ports = s.ports := rfl
@[simp] theorem State.updNsq_routes (n : Nat) (f : Nsq → Nsq) : (s.updNsq n f).routes = s.routes := rfl
@[simp] theorem State.updNsq_nsqs (n : Nat) (f : Nsq → Nsq) : (s.updNsq n f).nsqs = tset s.nsqs n (f (s.nsq n)) := rfl
@[simp] theorem State.updNsq_peerSeq (n : Nat) (f : Nsq → Nsq) : (s.updNsq n f).peerSeq = s.peerSeq := rfl
@[simp] theorem State.updNsq_peerReqs (n : Nat) (f : Nsq → Nsq) : (s.updNsq n f).peerReqs = s.peerReqs := rfl
@[simp] theorem State.updNsq_peerIns (n : Nat) (f : Nsq → Nsq) : (s.updNsq n f).peerIns = s.peerIns := rfl
@[simp] theorem State.updNsq_chans (n : Nat) (f : Nsq → Nsq) : (s.updNsq n f).chans = s.chans := rfl
@[simp] theorem State.updNsq_power (n : Nat) (f : Nsq → Nsq) : (s.updNsq n f).power = s.power := rfl
@[simp] theorem State.updNsq_incoming (n : Nat) (f : Nsq → Nsq) : (s.updNsq n f).incoming = s.incoming := rfl
@[simp] theorem State.updNsq_evq (n : Nat) (f : Nsq → Nsq) : (s.updNsq n f).evq = s.evq := rfl
@[simp] theorem State.updNsq_rafters (n : Nat) (f : Nsq → Nsq) : (s.updNsq n f).rafters = s.rafters := rfl
@[simp] theorem State.updNsq_msix (n : Nat) (f : Nsq → Nsq) : (s.updNsq n f).msix = s.msix := rfl
@[simp] theorem State.updNsq_hostOut (n : Nat) (f : Nsq → Nsq) : (s.updNsq n f).hostOut = s.hostOut := rfl
@[simp] theorem State.updNsq_peerOut (n : Nat) (f : Nsq → Nsq) : (s.updNsq n f).peerOut = s.peerOut := rfl
@[simp] theorem State.updNsq_shared (n : Nat) (f : Nsq → Nsq) : (s.updNsq n f).shared = s.shared := rfl
@[simp] theorem State.updNsq_peerHeld (n : Nat) (f : Nsq → Nsq) : (s.updNsq n f).peerHeld = s.peerHeld := rfl
@[simp] theorem State.updNsq_agenda (n : Nat) (f : Nsq → Nsq) : (s.updNsq n f).agenda = s.agenda := rfl
@[simp] theorem State.updNsq_arg (n : Nat) (f : Nsq → Nsq) : (s.updNsq n f).arg = s.arg := rfl
@[simp] theorem State.updNsq_src (n : Nat) (f : Nsq → Nsq) : (s.updNsq n f).src = s.src := rfl
@[simp] theorem State.updNsq_doing (n : Nat) (f : Nsq → Nsq) : (s.updNsq n f).doing = s.doing := rfl
@[simp] theorem State.updNsq_l1 (n : Nat) (f : Nsq → Nsq) : (s.updNsq n f).l1 = s.l1 := rfl
@[simp] theorem State.updNsq_l2 (n : Nat) (f : Nsq → Nsq) : (s.updNsq n f).l2 = s.l2 := rfl
@[simp] theorem State.updNsq_peerGot (n : Nat) (f : Nsq → Nsq) : (s.updNsq n f).peerGot = s.peerGot := rfl
@[simp] theorem State.updNsq_turn (n : Nat) (f : Nsq → Nsq) : (s.updNsq n f).turn = s.turn := rfl
@[simp] theorem State.updNsq_cur (n : Nat) (f : Nsq → Nsq) : (s.updNsq n f).cur = s.cur := rfl
@[simp] theorem State.updNsq_freeCtr (n : Nat) (f : Nsq → Nsq) : (s.updNsq n f).freeCtr = s.freeCtr := rfl
@[simp] theorem State.updNsq_nextId (n : Nat) (f : Nsq → Nsq) : (s.updNsq n f).nextId = s.nextId := rfl

/-! ### updPower -/

@[simp] theorem State.updPower_gts (f : Power → Power) : (s.updPower f).gts = s.gts := rfl
@[simp] theorem State.updPower_synced (f : Power → Power) : (s.updPower f).synced = s.synced := rfl
@[simp] theorem State.updPower_slew (f : Power → Power) : (s.updPower f).slew = s.slew := rfl
@[simp] theorem State.updPower_slewHeld (f : Power → Power) : (s.updPower f).slewHeld = s.slewHeld := rfl
@[simp] theorem State.updPower_devNo (f : Power → Power) : (s.updPower f).devNo = s.devNo := rfl
@[simp] theorem State.updPower_mem (f : Power → Power) : (s.updPower f).mem = s.mem := rfl
@[simp] theorem State.updPower_badLines (f : Power → Power) : (s.updPower f).badLines = s.badLines := rfl
@[simp] theorem State.updPower_sram (f : Power → Power) : (s.updPower f).sram = s.sram := rfl
@[simp] theorem State.updPower_frr (f : Power → Power) : (s.updPower f).frr = s.frr := rfl
@[simp] theorem State.updPower_noPort (f : Power → Power) : (s.updPower f).noPort = s.noPort := rfl
@[simp] theorem State.updPower_vfs (f : Power → Power) : (s.updPower f).vfs = s.vfs := rfl
@[simp] theorem State.updPower_ctxs (f : Power → Power) : (s.updPower f).ctxs = s.ctxs := rfl
@[simp] theorem State.updPower_blks (f : Power → Power) : (s.updPower f).blks = s.blks := rfl
@[simp] theorem State.updPower_cores (f : Power → Power) : (s.updPower f).cores = s.cores := rfl
@[simp] theorem State.updPower_mkt (f : Power → Power) : (s.updPower f).mkt = s.mkt := rfl
@[simp] theorem State.updPower_page (f : Power → Power) : (s.updPower f).page = s.page := rfl
@[simp] theorem State.updPower_ports (f : Power → Power) : (s.updPower f).ports = s.ports := rfl
@[simp] theorem State.updPower_routes (f : Power → Power) : (s.updPower f).routes = s.routes := rfl
@[simp] theorem State.updPower_nsqs (f : Power → Power) : (s.updPower f).nsqs = s.nsqs := rfl
@[simp] theorem State.updPower_peerSeq (f : Power → Power) : (s.updPower f).peerSeq = s.peerSeq := rfl
@[simp] theorem State.updPower_peerReqs (f : Power → Power) : (s.updPower f).peerReqs = s.peerReqs := rfl
@[simp] theorem State.updPower_peerIns (f : Power → Power) : (s.updPower f).peerIns = s.peerIns := rfl
@[simp] theorem State.updPower_chans (f : Power → Power) : (s.updPower f).chans = s.chans := rfl
@[simp] theorem State.updPower_power (f : Power → Power) : (s.updPower f).power = f s.power := rfl
@[simp] theorem State.updPower_incoming (f : Power → Power) : (s.updPower f).incoming = s.incoming := rfl
@[simp] theorem State.updPower_evq (f : Power → Power) : (s.updPower f).evq = s.evq := rfl
@[simp] theorem State.updPower_rafters (f : Power → Power) : (s.updPower f).rafters = s.rafters := rfl
@[simp] theorem State.updPower_msix (f : Power → Power) : (s.updPower f).msix = s.msix := rfl
@[simp] theorem State.updPower_hostOut (f : Power → Power) : (s.updPower f).hostOut = s.hostOut := rfl
@[simp] theorem State.updPower_peerOut (f : Power → Power) : (s.updPower f).peerOut = s.peerOut := rfl
@[simp] theorem State.updPower_shared (f : Power → Power) : (s.updPower f).shared = s.shared := rfl
@[simp] theorem State.updPower_peerHeld (f : Power → Power) : (s.updPower f).peerHeld = s.peerHeld := rfl
@[simp] theorem State.updPower_agenda (f : Power → Power) : (s.updPower f).agenda = s.agenda := rfl
@[simp] theorem State.updPower_arg (f : Power → Power) : (s.updPower f).arg = s.arg := rfl
@[simp] theorem State.updPower_src (f : Power → Power) : (s.updPower f).src = s.src := rfl
@[simp] theorem State.updPower_doing (f : Power → Power) : (s.updPower f).doing = s.doing := rfl
@[simp] theorem State.updPower_l1 (f : Power → Power) : (s.updPower f).l1 = s.l1 := rfl
@[simp] theorem State.updPower_l2 (f : Power → Power) : (s.updPower f).l2 = s.l2 := rfl
@[simp] theorem State.updPower_peerGot (f : Power → Power) : (s.updPower f).peerGot = s.peerGot := rfl
@[simp] theorem State.updPower_turn (f : Power → Power) : (s.updPower f).turn = s.turn := rfl
@[simp] theorem State.updPower_cur (f : Power → Power) : (s.updPower f).cur = s.cur := rfl
@[simp] theorem State.updPower_freeCtr (f : Power → Power) : (s.updPower f).freeCtr = s.freeCtr := rfl
@[simp] theorem State.updPower_nextId (f : Power → Power) : (s.updPower f).nextId = s.nextId := rfl

/-! ### updCl -/

@[simp] theorem State.updCl_gts (n : Nat) (f : Cluster → Cluster) : (s.updCl n f).gts = s.gts := rfl
@[simp] theorem State.updCl_synced (n : Nat) (f : Cluster → Cluster) : (s.updCl n f).synced = s.synced := rfl
@[simp] theorem State.updCl_slew (n : Nat) (f : Cluster → Cluster) : (s.updCl n f).slew = s.slew := rfl
@[simp] theorem State.updCl_slewHeld (n : Nat) (f : Cluster → Cluster) : (s.updCl n f).slewHeld = s.slewHeld := rfl
@[simp] theorem State.updCl_devNo (n : Nat) (f : Cluster → Cluster) : (s.updCl n f).devNo = s.devNo := rfl
@[simp] theorem State.updCl_mem (n : Nat) (f : Cluster → Cluster) : (s.updCl n f).mem = s.mem := rfl
@[simp] theorem State.updCl_badLines (n : Nat) (f : Cluster → Cluster) : (s.updCl n f).badLines = s.badLines := rfl
@[simp] theorem State.updCl_sram (n : Nat) (f : Cluster → Cluster) : (s.updCl n f).sram = s.sram := rfl
@[simp] theorem State.updCl_frr (n : Nat) (f : Cluster → Cluster) : (s.updCl n f).frr = s.frr := rfl
@[simp] theorem State.updCl_noPort (n : Nat) (f : Cluster → Cluster) : (s.updCl n f).noPort = s.noPort := rfl
@[simp] theorem State.updCl_vfs (n : Nat) (f : Cluster → Cluster) : (s.updCl n f).vfs = s.vfs := rfl
@[simp] theorem State.updCl_ctxs (n : Nat) (f : Cluster → Cluster) : (s.updCl n f).ctxs = s.ctxs := rfl
@[simp] theorem State.updCl_blks (n : Nat) (f : Cluster → Cluster) : (s.updCl n f).blks = s.blks := rfl
@[simp] theorem State.updCl_cores (n : Nat) (f : Cluster → Cluster) : (s.updCl n f).cores = s.cores := rfl
@[simp] theorem State.updCl_mkt (n : Nat) (f : Cluster → Cluster) : (s.updCl n f).mkt = s.mkt := rfl
@[simp] theorem State.updCl_page (n : Nat) (f : Cluster → Cluster) : (s.updCl n f).page = s.page := rfl
@[simp] theorem State.updCl_ports (n : Nat) (f : Cluster → Cluster) : (s.updCl n f).ports = s.ports := rfl
@[simp] theorem State.updCl_routes (n : Nat) (f : Cluster → Cluster) : (s.updCl n f).routes = s.routes := rfl
@[simp] theorem State.updCl_nsqs (n : Nat) (f : Cluster → Cluster) : (s.updCl n f).nsqs = s.nsqs := rfl
@[simp] theorem State.updCl_peerSeq (n : Nat) (f : Cluster → Cluster) : (s.updCl n f).peerSeq = s.peerSeq := rfl
@[simp] theorem State.updCl_peerReqs (n : Nat) (f : Cluster → Cluster) : (s.updCl n f).peerReqs = s.peerReqs := rfl
@[simp] theorem State.updCl_peerIns (n : Nat) (f : Cluster → Cluster) : (s.updCl n f).peerIns = s.peerIns := rfl
@[simp] theorem State.updCl_chans (n : Nat) (f : Cluster → Cluster) : (s.updCl n f).chans = s.chans := rfl
@[simp] theorem State.updCl_incoming (n : Nat) (f : Cluster → Cluster) : (s.updCl n f).incoming = s.incoming := rfl
@[simp] theorem State.updCl_evq (n : Nat) (f : Cluster → Cluster) : (s.updCl n f).evq = s.evq := rfl
@[simp] theorem State.updCl_rafters (n : Nat) (f : Cluster → Cluster) : (s.updCl n f).rafters = s.rafters := rfl
@[simp] theorem State.updCl_msix (n : Nat) (f : Cluster → Cluster) : (s.updCl n f).msix = s.msix := rfl
@[simp] theorem State.updCl_hostOut (n : Nat) (f : Cluster → Cluster) : (s.updCl n f).hostOut = s.hostOut := rfl
@[simp] theorem State.updCl_peerOut (n : Nat) (f : Cluster → Cluster) : (s.updCl n f).peerOut = s.peerOut := rfl
@[simp] theorem State.updCl_shared (n : Nat) (f : Cluster → Cluster) : (s.updCl n f).shared = s.shared := rfl
@[simp] theorem State.updCl_peerHeld (n : Nat) (f : Cluster → Cluster) : (s.updCl n f).peerHeld = s.peerHeld := rfl
@[simp] theorem State.updCl_agenda (n : Nat) (f : Cluster → Cluster) : (s.updCl n f).agenda = s.agenda := rfl
@[simp] theorem State.updCl_arg (n : Nat) (f : Cluster → Cluster) : (s.updCl n f).arg = s.arg := rfl
@[simp] theorem State.updCl_src (n : Nat) (f : Cluster → Cluster) : (s.updCl n f).src = s.src := rfl
@[simp] theorem State.updCl_doing (n : Nat) (f : Cluster → Cluster) : (s.updCl n f).doing = s.doing := rfl
@[simp] theorem State.updCl_l1 (n : Nat) (f : Cluster → Cluster) : (s.updCl n f).l1 = s.l1 := rfl
@[simp] theorem State.updCl_l2 (n : Nat) (f : Cluster → Cluster) : (s.updCl n f).l2 = s.l2 := rfl
@[simp] theorem State.updCl_peerGot (n : Nat) (f : Cluster → Cluster) : (s.updCl n f).peerGot = s.peerGot := rfl
@[simp] theorem State.updCl_turn (n : Nat) (f : Cluster → Cluster) : (s.updCl n f).turn = s.turn := rfl
@[simp] theorem State.updCl_cur (n : Nat) (f : Cluster → Cluster) : (s.updCl n f).cur = s.cur := rfl
@[simp] theorem State.updCl_freeCtr (n : Nat) (f : Cluster → Cluster) : (s.updCl n f).freeCtr = s.freeCtr := rfl
@[simp] theorem State.updCl_nextId (n : Nat) (f : Cluster → Cluster) : (s.updCl n f).nextId = s.nextId := rfl

/-! ### updPage -/

@[simp] theorem State.updPage_gts (f : PageUnit → PageUnit) : (s.updPage f).gts = s.gts := rfl
@[simp] theorem State.updPage_synced (f : PageUnit → PageUnit) : (s.updPage f).synced = s.synced := rfl
@[simp] theorem State.updPage_slew (f : PageUnit → PageUnit) : (s.updPage f).slew = s.slew := rfl
@[simp] theorem State.updPage_slewHeld (f : PageUnit → PageUnit) : (s.updPage f).slewHeld = s.slewHeld := rfl
@[simp] theorem State.updPage_devNo (f : PageUnit → PageUnit) : (s.updPage f).devNo = s.devNo := rfl
@[simp] theorem State.updPage_mem (f : PageUnit → PageUnit) : (s.updPage f).mem = s.mem := rfl
@[simp] theorem State.updPage_badLines (f : PageUnit → PageUnit) : (s.updPage f).badLines = s.badLines := rfl
@[simp] theorem State.updPage_sram (f : PageUnit → PageUnit) : (s.updPage f).sram = s.sram := rfl
@[simp] theorem State.updPage_frr (f : PageUnit → PageUnit) : (s.updPage f).frr = s.frr := rfl
@[simp] theorem State.updPage_noPort (f : PageUnit → PageUnit) : (s.updPage f).noPort = s.noPort := rfl
@[simp] theorem State.updPage_vfs (f : PageUnit → PageUnit) : (s.updPage f).vfs = s.vfs := rfl
@[simp] theorem State.updPage_ctxs (f : PageUnit → PageUnit) : (s.updPage f).ctxs = s.ctxs := rfl
@[simp] theorem State.updPage_blks (f : PageUnit → PageUnit) : (s.updPage f).blks = s.blks := rfl
@[simp] theorem State.updPage_cores (f : PageUnit → PageUnit) : (s.updPage f).cores = s.cores := rfl
@[simp] theorem State.updPage_mkt (f : PageUnit → PageUnit) : (s.updPage f).mkt = s.mkt := rfl
@[simp] theorem State.updPage_page (f : PageUnit → PageUnit) : (s.updPage f).page = f s.page := rfl
@[simp] theorem State.updPage_ports (f : PageUnit → PageUnit) : (s.updPage f).ports = s.ports := rfl
@[simp] theorem State.updPage_routes (f : PageUnit → PageUnit) : (s.updPage f).routes = s.routes := rfl
@[simp] theorem State.updPage_nsqs (f : PageUnit → PageUnit) : (s.updPage f).nsqs = s.nsqs := rfl
@[simp] theorem State.updPage_peerSeq (f : PageUnit → PageUnit) : (s.updPage f).peerSeq = s.peerSeq := rfl
@[simp] theorem State.updPage_peerReqs (f : PageUnit → PageUnit) : (s.updPage f).peerReqs = s.peerReqs := rfl
@[simp] theorem State.updPage_peerIns (f : PageUnit → PageUnit) : (s.updPage f).peerIns = s.peerIns := rfl
@[simp] theorem State.updPage_chans (f : PageUnit → PageUnit) : (s.updPage f).chans = s.chans := rfl
@[simp] theorem State.updPage_power (f : PageUnit → PageUnit) : (s.updPage f).power = s.power := rfl
@[simp] theorem State.updPage_incoming (f : PageUnit → PageUnit) : (s.updPage f).incoming = s.incoming := rfl
@[simp] theorem State.updPage_evq (f : PageUnit → PageUnit) : (s.updPage f).evq = s.evq := rfl
@[simp] theorem State.updPage_rafters (f : PageUnit → PageUnit) : (s.updPage f).rafters = s.rafters := rfl
@[simp] theorem State.updPage_msix (f : PageUnit → PageUnit) : (s.updPage f).msix = s.msix := rfl
@[simp] theorem State.updPage_hostOut (f : PageUnit → PageUnit) : (s.updPage f).hostOut = s.hostOut := rfl
@[simp] theorem State.updPage_peerOut (f : PageUnit → PageUnit) : (s.updPage f).peerOut = s.peerOut := rfl
@[simp] theorem State.updPage_shared (f : PageUnit → PageUnit) : (s.updPage f).shared = s.shared := rfl
@[simp] theorem State.updPage_peerHeld (f : PageUnit → PageUnit) : (s.updPage f).peerHeld = s.peerHeld := rfl
@[simp] theorem State.updPage_agenda (f : PageUnit → PageUnit) : (s.updPage f).agenda = s.agenda := rfl
@[simp] theorem State.updPage_arg (f : PageUnit → PageUnit) : (s.updPage f).arg = s.arg := rfl
@[simp] theorem State.updPage_src (f : PageUnit → PageUnit) : (s.updPage f).src = s.src := rfl
@[simp] theorem State.updPage_doing (f : PageUnit → PageUnit) : (s.updPage f).doing = s.doing := rfl
@[simp] theorem State.updPage_l1 (f : PageUnit → PageUnit) : (s.updPage f).l1 = s.l1 := rfl
@[simp] theorem State.updPage_l2 (f : PageUnit → PageUnit) : (s.updPage f).l2 = s.l2 := rfl
@[simp] theorem State.updPage_peerGot (f : PageUnit → PageUnit) : (s.updPage f).peerGot = s.peerGot := rfl
@[simp] theorem State.updPage_turn (f : PageUnit → PageUnit) : (s.updPage f).turn = s.turn := rfl
@[simp] theorem State.updPage_cur (f : PageUnit → PageUnit) : (s.updPage f).cur = s.cur := rfl
@[simp] theorem State.updPage_freeCtr (f : PageUnit → PageUnit) : (s.updPage f).freeCtr = s.freeCtr := rfl
@[simp] theorem State.updPage_nextId (f : PageUnit → PageUnit) : (s.updPage f).nextId = s.nextId := rfl

/-! ### updMkt -/

@[simp] theorem State.updMkt_gts (f : Market → Market) : (s.updMkt f).gts = s.gts := rfl
@[simp] theorem State.updMkt_synced (f : Market → Market) : (s.updMkt f).synced = s.synced := rfl
@[simp] theorem State.updMkt_slew (f : Market → Market) : (s.updMkt f).slew = s.slew := rfl
@[simp] theorem State.updMkt_slewHeld (f : Market → Market) : (s.updMkt f).slewHeld = s.slewHeld := rfl
@[simp] theorem State.updMkt_devNo (f : Market → Market) : (s.updMkt f).devNo = s.devNo := rfl
@[simp] theorem State.updMkt_mem (f : Market → Market) : (s.updMkt f).mem = s.mem := rfl
@[simp] theorem State.updMkt_badLines (f : Market → Market) : (s.updMkt f).badLines = s.badLines := rfl
@[simp] theorem State.updMkt_sram (f : Market → Market) : (s.updMkt f).sram = s.sram := rfl
@[simp] theorem State.updMkt_frr (f : Market → Market) : (s.updMkt f).frr = s.frr := rfl
@[simp] theorem State.updMkt_noPort (f : Market → Market) : (s.updMkt f).noPort = s.noPort := rfl
@[simp] theorem State.updMkt_vfs (f : Market → Market) : (s.updMkt f).vfs = s.vfs := rfl
@[simp] theorem State.updMkt_ctxs (f : Market → Market) : (s.updMkt f).ctxs = s.ctxs := rfl
@[simp] theorem State.updMkt_blks (f : Market → Market) : (s.updMkt f).blks = s.blks := rfl
@[simp] theorem State.updMkt_cores (f : Market → Market) : (s.updMkt f).cores = s.cores := rfl
@[simp] theorem State.updMkt_mkt (f : Market → Market) : (s.updMkt f).mkt = f s.mkt := rfl
@[simp] theorem State.updMkt_page (f : Market → Market) : (s.updMkt f).page = s.page := rfl
@[simp] theorem State.updMkt_ports (f : Market → Market) : (s.updMkt f).ports = s.ports := rfl
@[simp] theorem State.updMkt_routes (f : Market → Market) : (s.updMkt f).routes = s.routes := rfl
@[simp] theorem State.updMkt_nsqs (f : Market → Market) : (s.updMkt f).nsqs = s.nsqs := rfl
@[simp] theorem State.updMkt_peerSeq (f : Market → Market) : (s.updMkt f).peerSeq = s.peerSeq := rfl
@[simp] theorem State.updMkt_peerReqs (f : Market → Market) : (s.updMkt f).peerReqs = s.peerReqs := rfl
@[simp] theorem State.updMkt_peerIns (f : Market → Market) : (s.updMkt f).peerIns = s.peerIns := rfl
@[simp] theorem State.updMkt_chans (f : Market → Market) : (s.updMkt f).chans = s.chans := rfl
@[simp] theorem State.updMkt_power (f : Market → Market) : (s.updMkt f).power = s.power := rfl
@[simp] theorem State.updMkt_incoming (f : Market → Market) : (s.updMkt f).incoming = s.incoming := rfl
@[simp] theorem State.updMkt_evq (f : Market → Market) : (s.updMkt f).evq = s.evq := rfl
@[simp] theorem State.updMkt_rafters (f : Market → Market) : (s.updMkt f).rafters = s.rafters := rfl
@[simp] theorem State.updMkt_msix (f : Market → Market) : (s.updMkt f).msix = s.msix := rfl
@[simp] theorem State.updMkt_hostOut (f : Market → Market) : (s.updMkt f).hostOut = s.hostOut := rfl
@[simp] theorem State.updMkt_peerOut (f : Market → Market) : (s.updMkt f).peerOut = s.peerOut := rfl
@[simp] theorem State.updMkt_shared (f : Market → Market) : (s.updMkt f).shared = s.shared := rfl
@[simp] theorem State.updMkt_peerHeld (f : Market → Market) : (s.updMkt f).peerHeld = s.peerHeld := rfl
@[simp] theorem State.updMkt_agenda (f : Market → Market) : (s.updMkt f).agenda = s.agenda := rfl
@[simp] theorem State.updMkt_arg (f : Market → Market) : (s.updMkt f).arg = s.arg := rfl
@[simp] theorem State.updMkt_src (f : Market → Market) : (s.updMkt f).src = s.src := rfl
@[simp] theorem State.updMkt_doing (f : Market → Market) : (s.updMkt f).doing = s.doing := rfl
@[simp] theorem State.updMkt_l1 (f : Market → Market) : (s.updMkt f).l1 = s.l1 := rfl
@[simp] theorem State.updMkt_l2 (f : Market → Market) : (s.updMkt f).l2 = s.l2 := rfl
@[simp] theorem State.updMkt_peerGot (f : Market → Market) : (s.updMkt f).peerGot = s.peerGot := rfl
@[simp] theorem State.updMkt_turn (f : Market → Market) : (s.updMkt f).turn = s.turn := rfl
@[simp] theorem State.updMkt_cur (f : Market → Market) : (s.updMkt f).cur = s.cur := rfl
@[simp] theorem State.updMkt_freeCtr (f : Market → Market) : (s.updMkt f).freeCtr = s.freeCtr := rfl
@[simp] theorem State.updMkt_nextId (f : Market → Market) : (s.updMkt f).nextId = s.nextId := rfl

end Sys2Proof.Machine
end

