-- ==== Sys2Proof/Laws/Ops.lean ====
section
/-!
SUPPORT. What the shared operations do: reading blocks, groups and threads after an update, the word that passes its checks, and a write
of registers lane by lane.
-/

namespace Sys2Proof.Machine

/-! ### Parts after an update -/

theorem State.blk_updBlk (s : State) (b c : Nat) (f : Block → Block) : (s.updBlk b f).blk c = if c = b then f (s.blk b) else s.blk c := by
  simp only [State.blk, State.updBlk, tget_tset]

theorem Block.grp_updGrp (k : Block) (j i : Nat) (f : Group → Group) : (k.updGrp j f).grp i = if i = j then f (k.grp j) else k.grp i := by
  simp only [Block.grp, Block.updGrp, tget_tset]

theorem Group.th_updTh (g : Group) (l i : Nat) (f : Thread → Thread) : (g.updTh l f).th i = if i = l then f (g.th l) else g.th i := by
  simp only [Group.th, Group.updTh, tget_tset]

theorem State.grp_updGrp (s : State) (b j c i : Nat) (f : Group → Group) :
    (s.updGrp b j f).grp c i = if c = b ∧ i = j then f (s.grp b j) else s.grp c i := by
  by_cases hc : c = b
  · subst hc; simp [State.grp, State.updGrp, State.blk_updBlk, Block.grp_updGrp]
  · simp [State.grp, State.updGrp, State.blk_updBlk, hc]

theorem State.thr_updGrp (s : State) (b j c i l : Nat) (f : Group → Group) :
    (s.updGrp b j f).thr c i l = if c = b ∧ i = j then (f (s.grp b j)).th l else s.thr c i l := by
  simp only [State.thr, State.grp_updGrp]; split <;> rfl

theorem State.thr_updThr (s : State) (b j l c i n : Nat) (f : Thread → Thread) :
    (s.updThr b j l f).thr c i n = if c = b ∧ i = j ∧ n = l then f (s.thr b j l) else s.thr c i n := by
  simp only [State.thr, State.updThr, State.grp_updGrp]
  by_cases h : c = b ∧ i = j
  · obtain ⟨rfl, rfl⟩ := h
    by_cases hn : n = l <;> simp [Group.th_updTh, hn]
  · have : ¬(c = b ∧ i = j ∧ n = l) := fun k => h ⟨k.1, k.2.1⟩
    simp [h, this]

@[simp] theorem Group.updTh_sansThreads (g : Group) (l : Nat) (f : Thread → Thread) : (g.updTh l f).sansThreads = g.sansThreads := rfl

@[simp] theorem Block.updGrp_sansGroups (k : Block) (j : Nat) (f : Group → Group) : (k.updGrp j f).sansGroups = k.sansGroups := rfl

/-! ### Frames compose -/

theorem SameBytes.refl (s : State) : SameBytes s s := ⟨fun _ => rfl, fun _ => rfl⟩

theorem SameDevice.refl (s : State) : SameDevice s s := ⟨rfl, .refl s⟩

theorem SameDevice.trans {s t u : State} (h : SameDevice s t) (k : SameDevice t u) : SameDevice s u :=
  ⟨k.1.trans h.1, fun a => (k.2.1 a).trans (h.2.1 a), fun a => (k.2.2 a).trans (h.2.2 a)⟩

/-- The issue in progress stays apart from the record of flags. -/
theorem SameDevice.cur {s t : State} (h : SameDevice s t) : { t.cur with raised := [] } = { s.cur with raised := [] } :=
  congrArg State.cur h.1

theorem SameDevice.blkNo {s t : State} (h : SameDevice s t) : t.cur.blk = s.cur.blk :=
  (congrArg Issue.blk h.cur : ({ t.cur with raised := [] } : Issue).blk = ({ s.cur with raised := [] } : Issue).blk)

theorem SameDevice.verdict {s t : State} (h : SameDevice s t) : t.cur.verdict = s.cur.verdict :=
  (congrArg Issue.verdict h.cur : ({ t.cur with raised := [] } : Issue).verdict = ({ s.cur with raised := [] } : Issue).verdict)

theorem SameDevice.members {s t : State} (h : SameDevice s t) : t.cur.members = s.cur.members :=
  (congrArg Issue.members h.cur : ({ t.cur with raised := [] } : Issue).members = ({ s.cur with raised := [] } : Issue).members)

theorem RegsOnly.refl (who : List (Nat × Nat)) (ws ps : List Nat) (s : State) : RegsOnly who ws ps s s :=
  ⟨.refl s, ⟨fun _ => rfl, fun _ _ => rfl⟩, fun _ _ _ => rfl, fun _ _ _ _ _ => rfl, fun _ _ _ _ _ => rfl⟩

theorem RegsOnly.weaken {a b : List (Nat × Nat)} {ws ps : List Nat} {s t : State} (h : RegsOnly a ws ps s t) (k : ∀ m ∈ a, m ∈ b) :
    RegsOnly b ws ps s t :=
  ⟨h.1, h.2.1, h.2.2.1, fun c j l r g => h.2.2.2.1 c j l r (fun e m => g e (k _ m)), fun c j l r g => h.2.2.2.2 c j l r (fun e m => g e (k _ m))⟩

theorem RegsOnly.trans {a : List (Nat × Nat)} {ws ps : List Nat} {s t u : State} (h : RegsOnly a ws ps s t) (k : RegsOnly a ws ps t u) :
    RegsOnly a ws ps s u := by
  obtain ⟨h1, ⟨h2, h3⟩, h4, h5, h6⟩ := h
  obtain ⟨k1, ⟨k2, k3⟩, k4, k5, k6⟩ := k
  have e := h1.blkNo
  exact ⟨h1.trans k1, ⟨fun b => (k2 b).trans (h2 b), fun b j => (k3 b j).trans (h3 b j)⟩, fun b j l => (k4 b j l).trans (h4 b j l),
    fun b j l r g => (k5 b j l r (e ▸ g)).trans (h5 b j l r g), fun b j l r g => (k6 b j l r (e ▸ g)).trans (h6 b j l r g)⟩

/-! ### Writing registers of one lane -/

@[simp] theorem Thread.ww_sansRegs (t : Thread) (r : Nat) (v : Word) : (t.ww r v).sansRegs = t.sansRegs := rfl
@[simp] theorem Thread.wx_sansRegs (t : Thread) (r : Nat) (v : DWord) : (t.wx r v).sansRegs = t.sansRegs := rfl
@[simp] theorem Thread.wp_sansRegs (t : Thread) (r : Nat) (v : Bool) : (t.wp r v).sansRegs = t.sansRegs := rfl

theorem Thread.rw_ww (t : Thread) (r n : Nat) (v : Word) : (t.ww r v).rw n = if n = r then v else t.rw n := by
  simp only [Thread.rw, Thread.ww, tget_tset]
@[simp] theorem Thread.rp_ww (t : Thread) (r n : Nat) (v : Word) : (t.ww r v).rp n = t.rp n := rfl
theorem Thread.rp_wp (t : Thread) (r n : Nat) (v : Bool) : (t.wp r v).rp n = if n = r then v else t.rp n := by
  simp only [Thread.rp, Thread.wp, tget_tset]
@[simp] theorem Thread.rw_wp (t : Thread) (r n : Nat) (v : Bool) : (t.wp r v).rw n = t.rw n := rfl

/-- An x register is two w registers, the low half first (02 R46). -/
theorem Thread.rw_wx (t : Thread) (r n : Nat) (v : DWord) :
    (t.wx r v).rw n = if n = r + 1 then hiWord v else if n = r then loWord v else t.rw n := by
  simp only [Thread.wx, Thread.rw_ww]

@[simp] theorem join_halves (v : DWord) : joinWords (loWord v) (hiWord v) = v := by
  simp only [joinWords, loWord, hiWord]
  apply BitVec.eq_of_getLsbD_eq
  intro i hi
  simp only [BitVec.getLsbD_append, BitVec.getLsbD_extractLsb']
  by_cases h : i < 32
  · simp [h]
  · simp [h, show i - 32 < 32 by omega, show 32 + (i - 32) = i by omega]

@[simp] theorem Thread.rx_wx (t : Thread) (r : Nat) (v : DWord) : (t.wx r v).rx r = v := by
  simp [Thread.rx, Thread.rw_wx]

/-- An update of one thread that keeps everything but registers keeps the rest of the machine. -/
theorem RegsOnly.updThr (s : State) (m : Nat × Nat) (ws ps : List Nat) (f : Thread → Thread)
    (h1 : ∀ t, (f t).sansRegs = t.sansRegs) (h2 : ∀ t r, r ∉ ws → (f t).rw r = t.rw r) (h3 : ∀ t r, r ∉ ps → (f t).rp r = t.rp r) :
    RegsOnly [m] ws ps s (s.updThr s.cur.blk m.1 m.2 f) := by
  refine ⟨⟨rfl, fun _ => rfl, fun _ => rfl⟩, ⟨fun b => ?_, fun b j => ?_⟩, fun b j l => ?_, fun b j l r g => ?_, fun b j l r g => ?_⟩
  · simp only [State.updThr, State.updGrp, State.blk_updBlk]
    split
    · subst_vars; rfl
    · rfl
  · simp only [State.updThr, State.grp_updGrp]
    split
    · next h => obtain ⟨rfl, rfl⟩ := h; rfl
    · rfl
  · rw [State.thr_updThr]
    split
    · next h => obtain ⟨rfl, rfl, rfl⟩ := h; exact h1 _
    · rfl
  · rw [State.thr_updThr]
    split
    · next h => obtain ⟨rfl, rfl, rfl⟩ := h; exact h2 _ _ (g rfl (by simp))
    · rfl
  · rw [State.thr_updThr]
    split
    · next h => obtain ⟨rfl, rfl, rfl⟩ := h; exact h3 _ _ (g rfl (by simp))
    · rfl

/-! ### Every guarded lane in turn -/

/-- Updating threads of a list in turn, each with its own update of registers. -/
theorem foldl_lanes {ws ps : List Nat} (f : Nat × Nat → Thread → Thread)
    (h1 : ∀ m t, (f m t).sansRegs = t.sansRegs) (h2 : ∀ m t r, r ∉ ws → (f m t).rw r = t.rw r) (h3 : ∀ m t r, r ∉ ps → (f m t).rp r = t.rp r)
    (l who : List (Nat × Nat)) (hl : ∀ m ∈ l, m ∈ who) (s : State) :
    RegsOnly who ws ps s (l.foldl (fun t m => t.updThr t.cur.blk m.1 m.2 (f m)) s) := by
  induction l generalizing s with
  | nil => exact RegsOnly.refl who ws ps s
  | cons m l ih =>
    have h := (RegsOnly.updThr s m ws ps (f m) (h1 m) (h2 m) (h3 m)).weaken (b := who) (by simpa using hl m (by simp))
    exact h.trans (ih (fun k hk => hl k (by simp [hk])) _)

/-- After the turns, what a register read answers `f`'s value is that value, for every thread of the list. -/
theorem foldl_lanes_value {α : Type} (f : Nat × Nat → Thread → Thread) (rd : Thread → α) (v : Nat × Nat → α)
    (h : ∀ m t, rd (f m t) = v m) (l : List (Nat × Nat)) (s : State) (m : Nat × Nat) (hm : m ∈ l) :
    rd ((l.foldl (fun t m => t.updThr t.cur.blk m.1 m.2 (f m)) s).thr s.cur.blk m.1 m.2) = v m := by
  have keep : ∀ (l : List (Nat × Nat)) (s : State) (m : Nat × Nat), rd (s.thr s.cur.blk m.1 m.2) = v m →
      rd ((l.foldl (fun t m => t.updThr t.cur.blk m.1 m.2 (f m)) s).thr s.cur.blk m.1 m.2) = v m := by
    intro l
    induction l with
    | nil => intro s m hm; exact hm
    | cons k l ih =>
      intro s m hm
      refine ih (s.updThr s.cur.blk k.1 k.2 (f k)) m ?_
      rw [State.thr_updThr]
      split
      · next e => obtain ⟨-, e1, e2⟩ := e; obtain rfl : m = k := Prod.ext e1 e2; exact h m _
      · exact hm
  induction l generalizing s with
  | nil => simp at hm
  | cons k l ih =>
    by_cases e : m = k
    · subst e
      refine keep l (s.updThr s.cur.blk m.1 m.2 (f m)) m ?_
      simpa [State.thr_updThr] using h m _
    · exact ih (s.updThr s.cur.blk k.1 k.2 (f k)) (by simpa [e] using hm)

/-! ### A word that passes its checks -/

/-- A word that passes the checks of R122 and its own acts on the state in which older loads no longer write its destinations. -/
theorem word_passes {i : Instr} {s : State} {check : State → Check} (effect : State → State) (h : Passes i s) (c : check s = .pass) :
    word i s check effect = effect (cancelDests s i) := by
  unfold word
  rw [h.1, h.2]
  simp [c]

theorem plain_passes {i : Instr} {s : State} (effect : State → State) (h : Passes i s) : plain i s effect = effect (cancelDests s i) :=
  word_passes effect h rfl

/-- A word that a static check stops raises that trap and has no effect (R122). -/
theorem word_traps {i : Instr} {s : State} {check : State → Check} (effect : State → State) {t : TrapInfo} (g : s.cur.go = false) (h : staticTrap s i = some t) :
    word i s check effect = raise s t := by
  unfold word; simp [g, h]

/-! ### Cancelling older loads changes no register (10 R265) -/

@[simp] theorem cancelLoads_thr (g : Group) (rs : List Nat) : (cancelLoads g rs).thr = g.thr := by
  unfold cancelLoads; split <;> rfl

@[simp] theorem cancelLoads_sansThreads (g : Group) (rs : List Nat) : (cancelLoads g rs).sansThreads = g.sansThreads := by
  unfold cancelLoads
  split
  · rfl
  · simp only [Group.sansThreads, List.map_map]
    congr 1
    apply List.map_congr_left
    intro p _
    dsimp only [Function.comp]
    split <;> rfl

/-- Updating groups in a way that keeps their threads keeps every register. -/
theorem RegsOnly.updGrp (who : List (Nat × Nat)) (ws ps : List Nat) (s : State) (b j : Nat) (f : Group → Group)
    (h1 : ∀ g, (f g).thr = g.thr) (h2 : ∀ g, (f g).sansThreads = g.sansThreads) : RegsOnly who ws ps s (s.updGrp b j f) := by
  have e : ∀ c i l, (s.updGrp b j f).thr c i l = s.thr c i l := by
    intro c i l
    rw [State.thr_updGrp]
    split
    · next h => obtain ⟨rfl, rfl⟩ := h; simp [Group.th, h1, State.thr]
    · rfl
  refine ⟨⟨rfl, fun _ => rfl, fun _ => rfl⟩, ⟨fun c => ?_, fun c i => ?_⟩, fun c i l => by rw [e], fun c i l r _ => by rw [e],
    fun c i l r _ => by rw [e]⟩
  · simp only [State.updGrp, State.blk_updBlk]
    split
    · subst_vars; rfl
    · rfl
  · rw [State.grp_updGrp]
    split
    · next h => obtain ⟨rfl, rfl⟩ := h; exact h2 _
    · rfl

theorem RegsOnly.foldl_updGrp (who : List (Nat × Nat)) (ws ps js : List Nat) (f : Group → Group) (h1 : ∀ g, (f g).thr = g.thr)
    (h2 : ∀ g, (f g).sansThreads = g.sansThreads) (s : State) :
    RegsOnly who ws ps s (js.foldl (fun t j => t.updGrp t.cur.blk j f) s) := by
  induction js generalizing s with
  | nil => exact .refl who ws ps s
  | cons j js ih => exact (RegsOnly.updGrp who ws ps s s.cur.blk j f h1 h2).trans (ih _)

theorem cancelDests_frame (who : List (Nat × Nat)) (ws ps : List Nat) (s : State) (i : Instr) : RegsOnly who ws ps s (cancelDests s i) := by
  unfold cancelDests
  dsimp only
  split
  · exact .refl who ws ps s
  · exact RegsOnly.foldl_updGrp who ws ps _ _ (fun g => cancelLoads_thr g _) (fun g => cancelLoads_sansThreads g _) s

theorem busy_frame (who : List (Nat × Nat)) (ws ps : List Nat) (s : State) (n why : Nat) : RegsOnly who ws ps s (busy s n why) := by
  unfold busy State.foldl
  have : ∀ (js : List Nat) (k : Nat) (s t : State), RegsOnly who ws ps s t → RegsOnly who ws ps s
      (js.foldl (fun t j => t.updGrp t.cur.blk j (fun g => { g with notBefore := max g.notBefore (t.gts + k), stall := why })) t) := by
    intro js k
    induction js with
    | nil => exact fun _ _ h => h
    | cons j js ih => exact fun s t h => ih _ _ (h.trans (RegsOnly.updGrp who ws ps t t.cur.blk j _ (fun _ => rfl) (fun _ => rfl)))
  exact this _ _ _ _ (.refl who ws ps s)

/-! ### The registers a word reads stay while it runs -/

/-- Two states in which the issue in progress reads the same registers. -/
theorem RegsOnly.thr_of_none {who : List (Nat × Nat)} {s t : State} (h : RegsOnly who [] [] s t) (b j l r : Nat) :
    (t.thr b j l).rw r = (s.thr b j l).rw r ∧ (t.thr b j l).rp r = (s.thr b j l).rp r :=
  ⟨h.2.2.2.1 b j l r (fun _ _ => by simp), h.2.2.2.2 b j l r (fun _ _ => by simp)⟩

theorem srcThr_of_frame {who : List (Nat × Nat)} {s t : State} (h : RegsOnly who [] [] s t) (c : t.cur = s.cur) (m : Nat × Nat) (r : Nat) :
    rdW t m r = rdW s m r ∧ rdP t m r = rdP s m r := by
  unfold rdW rdP State.srcThr State.srcGrp State.srcBlk
  rw [c]
  cases s.cur.src with
  | some b => exact ⟨rfl, rfl⟩
  | none => exact h.thr_of_none s.cur.blk m.1 m.2 r

theorem cancelDests_cur (s : State) (i : Instr) : (cancelDests s i).cur = s.cur := by
  unfold cancelDests
  dsimp only
  split
  · rfl
  · unfold State.foldl
    have : ∀ (js : List Nat) (f : Group → Group) (t : State), (js.foldl (fun t j => t.updGrp t.cur.blk j f) t).cur = t.cur := by
      intro js f
      induction js with
      | nil => exact fun _ => rfl
      | cons j js ih => exact fun t => ih (t.updGrp t.cur.blk j f)
    exact this _ _ s

@[simp] theorem cancelDests_rdW (s : State) (i : Instr) (m : Nat × Nat) (r : Nat) : rdW (cancelDests s i) m r = rdW s m r :=
  (srcThr_of_frame (cancelDests_frame [] [] [] s i) (cancelDests_cur s i) m r).1

@[simp] theorem cancelDests_rdP (s : State) (i : Instr) (m : Nat × Nat) (r : Nat) : rdP (cancelDests s i) m r = rdP s m r :=
  (srcThr_of_frame (cancelDests_frame [] [] [] s i) (cancelDests_cur s i) m r).2

@[simp] theorem cancelDests_rdX (s : State) (i : Instr) (m : Nat × Nat) (r : Nat) : rdX (cancelDests s i) m r = rdX s m r := by
  have h (n : Nat) := cancelDests_rdW s i m n
  simp only [rdW] at h
  simp only [rdX, Thread.rx, h]

@[simp] theorem cancelDests_guarded (s : State) (i : Instr) (pr : Nat) : guarded (cancelDests s i) pr = guarded s pr := by
  simp only [guarded, guardTrue, cancelDests_cur, cancelDests_rdP]

/-! ### What `lanesW`, `lanesX` and `lanesP` do -/

theorem lanesW_frame (s : State) (pr d : Nat) (v : Nat × Nat → Word) : RegsOnly (guarded s pr) [d] [] s (lanesW s pr d v) :=
  foldl_lanes (fun m t => t.ww d (v m)) (fun _ _ => rfl) (fun m t r h => by simp [Thread.rw_ww, show r ≠ d by simpa using h])
    (fun _ _ _ _ => rfl) _ _ (fun _ h => h) s

theorem lanesW_value (s : State) (pr d : Nat) (v : Nat × Nat → Word) (m : Nat × Nat) (h : m ∈ guarded s pr) :
    ((lanesW s pr d v).thr s.cur.blk m.1 m.2).rw d = v m :=
  foldl_lanes_value (fun m t => t.ww d (v m)) (fun t => t.rw d) v (fun m t => by simp [Thread.rw_ww]) _ s m h

theorem lanesX_frame (s : State) (pr d : Nat) (v : Nat × Nat → DWord) : RegsOnly (guarded s pr) [d, d + 1] [] s (lanesX s pr d v) :=
  foldl_lanes (fun m t => t.wx d (v m)) (fun _ _ => rfl)
    (fun m t r h => by simp only [List.mem_cons, List.not_mem_nil, or_false, not_or] at h; simp [Thread.rw_wx, h.1, h.2])
    (fun _ _ _ _ => rfl) _ _ (fun _ h => h) s

theorem lanesX_value (s : State) (pr d : Nat) (v : Nat × Nat → DWord) (m : Nat × Nat) (h : m ∈ guarded s pr) :
    ((lanesX s pr d v).thr s.cur.blk m.1 m.2).rx d = v m :=
  foldl_lanes_value (fun m t => t.wx d (v m)) (fun t => t.rx d) v (fun m t => by simp) _ s m h

theorem lanesP_frame (s : State) (pr d : Nat) (v : Nat × Nat → Bool) : RegsOnly (guarded s pr) [] [d] s (lanesP s pr d v) :=
  foldl_lanes (fun m t => t.wp d (v m)) (fun _ _ => rfl) (fun _ _ _ _ => rfl)
    (fun m t r h => by simp [Thread.rp_wp, show r ≠ d by simpa using h]) _ _ (fun _ h => h) s

theorem lanesP_value (s : State) (pr d : Nat) (v : Nat × Nat → Bool) (m : Nat × Nat) (h : m ∈ guarded s pr) :
    ((lanesP s pr d v).thr s.cur.blk m.1 m.2).rp d = v m :=
  foldl_lanes_value (fun m t => t.wp d (v m)) (fun t => t.rp d) v (fun m t => by simp [Thread.rp_wp]) _ s m h

/-! ### A word that writes one register of every guarded lane -/

/-- A word without checks of its own that writes w registers: the frame, and the value in every guarded lane. -/
theorem plainW_spec {i : Instr} {s : State} (h : Passes i s) (pr d : Nat) (v : State → Nat × Nat → Word)
    (hv : ∀ m, v (cancelDests s i) m = v s m) :
    RegsOnly (guarded s pr) [d] [] s (plain i s (fun s => lanesW s pr d (v s))) ∧
    ∀ m ∈ guarded s pr, ((plain i s (fun s => lanesW s pr d (v s))).thr s.cur.blk m.1 m.2).rw d = v s m := by
  rw [plain_passes _ h]
  refine ⟨(cancelDests_frame (guarded s pr) [d] [] s i).trans ?_, fun m hm => ?_⟩
  · simpa using lanesW_frame (cancelDests s i) pr d (v (cancelDests s i))
  · simpa [cancelDests_cur, hv] using lanesW_value (cancelDests s i) pr d (v (cancelDests s i)) m (by simpa using hm)

/-- A word without checks of its own that writes x registers. -/
theorem plainX_spec {i : Instr} {s : State} (h : Passes i s) (pr d : Nat) (v : State → Nat × Nat → DWord)
    (hv : ∀ m, v (cancelDests s i) m = v s m) :
    RegsOnly (guarded s pr) [d, d + 1] [] s (plain i s (fun s => lanesX s pr d (v s))) ∧
    ∀ m ∈ guarded s pr, ((plain i s (fun s => lanesX s pr d (v s))).thr s.cur.blk m.1 m.2).rx d = v s m := by
  rw [plain_passes _ h]
  refine ⟨(cancelDests_frame (guarded s pr) [d, d + 1] [] s i).trans ?_, fun m hm => ?_⟩
  · simpa using lanesX_frame (cancelDests s i) pr d (v (cancelDests s i))
  · simpa [cancelDests_cur, hv] using lanesX_value (cancelDests s i) pr d (v (cancelDests s i)) m (by simpa using hm)

/-- A word without checks of its own that writes predicates. -/
theorem plainP_spec {i : Instr} {s : State} (h : Passes i s) (pr d : Nat) (v : State → Nat × Nat → Bool)
    (hv : ∀ m, v (cancelDests s i) m = v s m) :
    RegsOnly (guarded s pr) [] [d] s (plain i s (fun s => lanesP s pr d (v s))) ∧
    ∀ m ∈ guarded s pr, ((plain i s (fun s => lanesP s pr d (v s))).thr s.cur.blk m.1 m.2).rp d = v s m := by
  rw [plain_passes _ h]
  refine ⟨(cancelDests_frame (guarded s pr) [] [d] s i).trans ?_, fun m hm => ?_⟩
  · simpa using lanesP_frame (cancelDests s i) pr d (v (cancelDests s i))
  · simpa [cancelDests_cur, hv] using lanesP_value (cancelDests s i) pr d (v (cancelDests s i)) m (by simpa using hm)

end Sys2Proof.Machine
end

