-- ==== Sys2Proof/Laws/PerInstr.lean ====
section
/-!
SUPPORT. What the encoder does for each instruction: the opcode field of its word is its opcode of R133, and an event has neither.
-/

namespace Sys2Proof

/-- The opcode field of a packed word. -/
theorem opField_packA (op : Nat) (f : WA) (h : op < 1024) : opField (packA op f) = op := by
  have e : BitVec.extractLsb' 20 10 (packA op f) = BitVec.ofNat 10 op := by
    unfold packA
    ext i hi
    simp only [BitVec.getElem_extractLsb', BitVec.getLsbD_append, BitVec.getLsbD_ofNat]
    repeat first
      | rw [if_neg (by omega)]
      | rw [if_pos (by omega)]
    rw [show _ - _ = i by omega]
    simp [hi, BitVec.getElem_eq_testBit_toNat, Nat.testBit_mod_two_pow op 10]
  unfold opField
  rw [e, BitVec.toNat_ofNat]
  omega

/-- The opcode field of a packed word. -/
theorem opField_packI (op : Nat) (f : WI) (h : op < 1024) : opField (packI op f) = op := by
  have e : BitVec.extractLsb' 20 10 (packI op f) = BitVec.ofNat 10 op := by
    unfold packI
    ext i hi
    simp only [BitVec.getElem_extractLsb', BitVec.getLsbD_append, BitVec.getLsbD_ofNat]
    repeat first
      | rw [if_neg (by omega)]
      | rw [if_pos (by omega)]
    rw [show _ - _ = i by omega]
    simp [hi, BitVec.getElem_eq_testBit_toNat, Nat.testBit_mod_two_pow op 10]
  unfold opField
  rw [e, BitVec.toNat_ofNat]
  omega

/-- The opcode field of a packed word. -/
theorem opField_packK (op : Nat) (f : WK) (h : op < 1024) : opField (packK op f) = op := by
  have e : BitVec.extractLsb' 20 10 (packK op f) = BitVec.ofNat 10 op := by
    unfold packK
    ext i hi
    simp only [BitVec.getElem_extractLsb', BitVec.getLsbD_append, BitVec.getLsbD_ofNat]
    repeat first
      | rw [if_neg (by omega)]
      | rw [if_pos (by omega)]
    rw [show _ - _ = i by omega]
    simp [hi, BitVec.getElem_eq_testBit_toNat, Nat.testBit_mod_two_pow op 10]
  unfold opField
  rw [e, BitVec.toNat_ofNat]
  omega

/-- The opcode field of a packed word. -/
theorem opField_packJ (op : Nat) (f : WJ) (h : op < 1024) : opField (packJ op f) = op := by
  have e : BitVec.extractLsb' 20 10 (packJ op f) = BitVec.ofNat 10 op := by
    unfold packJ
    ext i hi
    simp only [BitVec.getElem_extractLsb', BitVec.getLsbD_append, BitVec.getLsbD_ofNat]
    repeat first
      | rw [if_neg (by omega)]
      | rw [if_pos (by omega)]
    rw [show _ - _ = i by omega]
    simp [hi, BitVec.getElem_eq_testBit_toNat, Nat.testBit_mod_two_pow op 10]
  unfold opField
  rw [e, BitVec.toNat_ofNat]
  omega

/-- The opcode field of a packed word. -/
theorem opField_packM (op : Nat) (f : WM) (h : op < 1024) : opField (packM op f) = op := by
  have e : BitVec.extractLsb' 20 10 (packM op f) = BitVec.ofNat 10 op := by
    unfold packM
    ext i hi
    simp only [BitVec.getElem_extractLsb', BitVec.getLsbD_append, BitVec.getLsbD_ofNat]
    repeat first
      | rw [if_neg (by omega)]
      | rw [if_pos (by omega)]
    rw [show _ - _ = i by omega]
    simp [hi, BitVec.getElem_eq_testBit_toNat, Nat.testBit_mod_two_pow op 10]
  unfold opField
  rw [e, BitVec.toNat_ofNat]
  omega

/-- The opcode field of a packed word. -/
theorem opField_packMA (op : Nat) (f : WMA) (h : op < 1024) : opField (packMA op f) = op := by
  have e : BitVec.extractLsb' 20 10 (packMA op f) = BitVec.ofNat 10 op := by
    unfold packMA
    ext i hi
    simp only [BitVec.getElem_extractLsb', BitVec.getLsbD_append, BitVec.getLsbD_ofNat]
    repeat first
      | rw [if_neg (by omega)]
      | rw [if_pos (by omega)]
    rw [show _ - _ = i by omega]
    simp [hi, BitVec.getElem_eq_testBit_toNat, Nat.testBit_mod_two_pow op 10]
  unfold opField
  rw [e, BitVec.toNat_ofNat]
  omega

/-- The opcode field of a packed word. -/
theorem opField_packS (op : Nat) (f : WS) (h : op < 1024) : opField (packS op f) = op := by
  have e : BitVec.extractLsb' 20 10 (packS op f) = BitVec.ofNat 10 op := by
    unfold packS
    ext i hi
    simp only [BitVec.getElem_extractLsb', BitVec.getLsbD_append, BitVec.getLsbD_ofNat]
    repeat first
      | rw [if_neg (by omega)]
      | rw [if_pos (by omega)]
    rw [show _ - _ = i by omega]
    simp [hi, BitVec.getElem_eq_testBit_toNat, Nat.testBit_mod_two_pow op 10]
  unfold opField
  rw [e, BitVec.toNat_ofNat]
  omega

/-- The opcode field of a packed word. -/
theorem opField_packP (op : Nat) (f : WP) (h : op < 1024) : opField (packP op f) = op := by
  have e : BitVec.extractLsb' 20 10 (packP op f) = BitVec.ofNat 10 op := by
    unfold packP
    ext i hi
    simp only [BitVec.getElem_extractLsb', BitVec.getLsbD_append, BitVec.getLsbD_ofNat]
    repeat first
      | rw [if_neg (by omega)]
      | rw [if_pos (by omega)]
    rw [show _ - _ = i by omega]
    simp [hi, BitVec.getElem_eq_testBit_toNat, Nat.testBit_mod_two_pow op 10]
  unfold opField
  rw [e, BitVec.toNat_ofNat]
  omega

end Sys2Proof

namespace Sys2Proof.Laws.Encodes

open Sys2Proof

/-- The opcode field of an instruction's encoding is its opcode, and an event has neither (R133). -/
def Statement (i : Instr) : Prop := (encode i).map opField = opcodeOf i

theorem nop (f : WK) : Statement (.nop f) := congrArg some (opField_packK _ f (by decide))
theorem bra (f : WJ) : Statement (.bra f) := congrArg some (opField_packJ _ f (by decide))
theorem brx (f : WA) : Statement (.brx f) := congrArg some (opField_packA _ f (by decide))
theorem call (f : WJ) : Statement (.call f) := congrArg some (opField_packJ _ f (by decide))
theorem callx (f : WA) : Statement (.callx f) := congrArg some (opField_packA _ f (by decide))
theorem ret (f : WA) : Statement (.ret f) := congrArg some (opField_packA _ f (by decide))
theorem exit (f : WA) : Statement (.exit f) := congrArg some (opField_packA _ f (by decide))
theorem yield (f : WK) : Statement (.yield f) := congrArg some (opField_packK _ f (by decide))
theorem sleep (f : WK) : Statement (.sleep f) := congrArg some (opField_packK _ f (by decide))
theorem pand (f : WA) : Statement (.pand f) := congrArg some (opField_packA _ f (by decide))
theorem por (f : WA) : Statement (.por f) := congrArg some (opField_packA _ f (by decide))
theorem pxor (f : WA) : Statement (.pxor f) := congrArg some (opField_packA _ f (by decide))
theorem pnot (f : WA) : Statement (.pnot f) := congrArg some (opField_packA _ f (by decide))
theorem voteAny (f : WA) : Statement (.voteAny f) := congrArg some (opField_packA _ f (by decide))
theorem voteAll (f : WA) : Statement (.voteAll f) := congrArg some (opField_packA _ f (by decide))
theorem voteBal (f : WA) : Statement (.voteBal f) := congrArg some (opField_packA _ f (by decide))
theorem pset (cond : BitVec 4) (f : WA) : Statement (.pset cond f) := congrArg some (opField_packA _ f (by omega))
theorem psetk (cond : BitVec 4) (f : WI) : Statement (.psetk cond f) := congrArg some (opField_packI _ f (by omega))
theorem prd (f : WA) : Statement (.prd f) := congrArg some (opField_packA _ f (by decide))
theorem pwr (f : WA) : Statement (.pwr f) := congrArg some (opField_packA _ f (by decide))
theorem rep (f : WP) : Statement (.rep f) := congrArg some (opField_packP _ f (by decide))
theorem add (f : WA) : Statement (.add f) := congrArg some (opField_packA _ f (by decide))
theorem sub (f : WA) : Statement (.sub f) := congrArg some (opField_packA _ f (by decide))
theorem addk (f : WI) : Statement (.addk f) := congrArg some (opField_packI _ f (by decide))
theorem adds (f : WA) : Statement (.adds f) := congrArg some (opField_packA _ f (by decide))
theorem subs (f : WA) : Statement (.subs f) := congrArg some (opField_packA _ f (by decide))
theorem mul (f : WA) : Statement (.mul f) := congrArg some (opField_packA _ f (by decide))
theorem mulh (f : WA) : Statement (.mulh f) := congrArg some (opField_packA _ f (by decide))
theorem mulhu (f : WA) : Statement (.mulhu f) := congrArg some (opField_packA _ f (by decide))
theorem mad (f : WA) : Statement (.mad f) := congrArg some (opField_packA _ f (by decide))
theorem min (f : WA) : Statement (.min f) := congrArg some (opField_packA _ f (by decide))
theorem max (f : WA) : Statement (.max f) := congrArg some (opField_packA _ f (by decide))
theorem minu (f : WA) : Statement (.minu f) := congrArg some (opField_packA _ f (by decide))
theorem maxu (f : WA) : Statement (.maxu f) := congrArg some (opField_packA _ f (by decide))
theorem and (f : WA) : Statement (.and f) := congrArg some (opField_packA _ f (by decide))
theorem or (f : WA) : Statement (.or f) := congrArg some (opField_packA _ f (by decide))
theorem xor (f : WA) : Statement (.xor f) := congrArg some (opField_packA _ f (by decide))
theorem andn (f : WA) : Statement (.andn f) := congrArg some (opField_packA _ f (by decide))
theorem shl (f : WA) : Statement (.shl f) := congrArg some (opField_packA _ f (by decide))
theorem shr (f : WA) : Statement (.shr f) := congrArg some (opField_packA _ f (by decide))
theorem sar (f : WA) : Statement (.sar f) := congrArg some (opField_packA _ f (by decide))
theorem shli (f : WI) : Statement (.shli f) := congrArg some (opField_packI _ f (by decide))
theorem shri (f : WI) : Statement (.shri f) := congrArg some (opField_packI _ f (by decide))
theorem sari (f : WI) : Statement (.sari f) := congrArg some (opField_packI _ f (by decide))
theorem sel (f : WA) : Statement (.sel f) := congrArg some (opField_packA _ f (by decide))
theorem popc (f : WA) : Statement (.popc f) := congrArg some (opField_packA _ f (by decide))
theorem clz (f : WA) : Statement (.clz f) := congrArg some (opField_packA _ f (by decide))
theorem brev (f : WA) : Statement (.brev f) := congrArg some (opField_packA _ f (by decide))
theorem bfx (f : WA) : Statement (.bfx f) := congrArg some (opField_packA _ f (by decide))
theorem bfxs (f : WA) : Statement (.bfxs f) := congrArg some (opField_packA _ f (by decide))
theorem bfi (f : WA) : Statement (.bfi f) := congrArg some (opField_packA _ f (by decide))
theorem mov (f : WA) : Statement (.mov f) := congrArg some (opField_packA _ f (by decide))
theorem movk (f : WK) : Statement (.movk f) := congrArg some (opField_packK _ f (by decide))
theorem shlk (f : WK) : Statement (.shlk f) := congrArg some (opField_packK _ f (by decide))
theorem movg (f : WA) : Statement (.movg f) := congrArg some (opField_packA _ f (by decide))
theorem movw (f : WA) : Statement (.movw f) := congrArg some (opField_packA _ f (by decide))
theorem add64 (f : WA) : Statement (.add64 f) := congrArg some (opField_packA _ f (by decide))
theorem sub64 (f : WA) : Statement (.sub64 f) := congrArg some (opField_packA _ f (by decide))
theorem addk64 (f : WI) : Statement (.addk64 f) := congrArg some (opField_packI _ f (by decide))
theorem shl64 (f : WA) : Statement (.shl64 f) := congrArg some (opField_packA _ f (by decide))
theorem shr64 (f : WA) : Statement (.shr64 f) := congrArg some (opField_packA _ f (by decide))
theorem sext64 (f : WA) : Statement (.sext64 f) := congrArg some (opField_packA _ f (by decide))
theorem zext64 (f : WA) : Statement (.zext64 f) := congrArg some (opField_packA _ f (by decide))
theorem lea (sh : BitVec 3) (f : WA) : Statement (.lea sh f) := congrArg some (opField_packA _ f (by omega))
theorem fadd (rm : BitVec 2) (f : WA) : Statement (.fadd rm f) := congrArg some (opField_packA _ f (by omega))
theorem fsub (rm : BitVec 2) (f : WA) : Statement (.fsub rm f) := congrArg some (opField_packA _ f (by omega))
theorem fmul (rm : BitVec 2) (f : WA) : Statement (.fmul rm f) := congrArg some (opField_packA _ f (by omega))
theorem ffma (rm : BitVec 2) (f : WA) : Statement (.ffma rm f) := congrArg some (opField_packA _ f (by omega))
theorem fmin (f : WA) : Statement (.fmin f) := congrArg some (opField_packA _ f (by decide))
theorem fmax (f : WA) : Statement (.fmax f) := congrArg some (opField_packA _ f (by decide))
theorem fabs (f : WA) : Statement (.fabs f) := congrArg some (opField_packA _ f (by decide))
theorem fneg (f : WA) : Statement (.fneg f) := congrArg some (opField_packA _ f (by decide))
theorem fsetEqToLe (cond : BitVec 2) (f : WA) : Statement (.fsetEqToLe cond f) := congrArg some (opField_packA _ f (by omega))
theorem fsetGtToOr (cond : BitVec 2) (f : WA) : Statement (.fsetGtToOr cond f) := congrArg some (opField_packA _ f (by omega))
theorem hadd2 (rm : BitVec 2) (f : WA) : Statement (.hadd2 rm f) := congrArg some (opField_packA _ f (by omega))
theorem hsub2 (rm : BitVec 2) (f : WA) : Statement (.hsub2 rm f) := congrArg some (opField_packA _ f (by omega))
theorem hmul2 (rm : BitVec 2) (f : WA) : Statement (.hmul2 rm f) := congrArg some (opField_packA _ f (by omega))
theorem hfma2 (rm : BitVec 2) (f : WA) : Statement (.hfma2 rm f) := congrArg some (opField_packA _ f (by omega))
theorem hmin2 (f : WA) : Statement (.hmin2 f) := congrArg some (opField_packA _ f (by decide))
theorem hmax2 (f : WA) : Statement (.hmax2 f) := congrArg some (opField_packA _ f (by decide))
theorem habs2 (f : WA) : Statement (.habs2 f) := congrArg some (opField_packA _ f (by decide))
theorem hneg2 (f : WA) : Statement (.hneg2 f) := congrArg some (opField_packA _ f (by decide))
theorem hdot2 (rm : BitVec 2) (f : WA) : Statement (.hdot2 rm f) := congrArg some (opField_packA _ f (by omega))
theorem cvtBf16F32 (rm : BitVec 2) (f : WA) : Statement (.cvtBf16F32 rm f) := congrArg some (opField_packA _ f (by omega))
theorem cvtF32Bf16l (f : WA) : Statement (.cvtF32Bf16l f) := congrArg some (opField_packA _ f (by decide))
theorem cvtF32Bf16h (f : WA) : Statement (.cvtF32Bf16h f) := congrArg some (opField_packA _ f (by decide))
theorem cvtE4m3Bf16 (rm : BitVec 2) (f : WA) : Statement (.cvtE4m3Bf16 rm f) := congrArg some (opField_packA _ f (by omega))
theorem cvtE5m2Bf16 (rm : BitVec 2) (f : WA) : Statement (.cvtE5m2Bf16 rm f) := congrArg some (opField_packA _ f (by omega))
theorem cvtBf16E4m3l (f : WA) : Statement (.cvtBf16E4m3l f) := congrArg some (opField_packA _ f (by decide))
theorem cvtBf16E4m3h (f : WA) : Statement (.cvtBf16E4m3h f) := congrArg some (opField_packA _ f (by decide))
theorem cvtBf16E5m2l (f : WA) : Statement (.cvtBf16E5m2l f) := congrArg some (opField_packA _ f (by decide))
theorem cvtBf16E5m2h (f : WA) : Statement (.cvtBf16E5m2h f) := congrArg some (opField_packA _ f (by decide))
theorem cvtS32F32 (rm : BitVec 2) (f : WA) : Statement (.cvtS32F32 rm f) := congrArg some (opField_packA _ f (by omega))
theorem cvtU32F32 (rm : BitVec 2) (f : WA) : Statement (.cvtU32F32 rm f) := congrArg some (opField_packA _ f (by omega))
theorem cvtF32S32 (rm : BitVec 2) (f : WA) : Statement (.cvtF32S32 rm f) := congrArg some (opField_packA _ f (by omega))
theorem cvtF32U32 (rm : BitVec 2) (f : WA) : Statement (.cvtF32U32 rm f) := congrArg some (opField_packA _ f (by omega))
theorem cvtS4S8 (f : WA) : Statement (.cvtS4S8 f) := congrArg some (opField_packA _ f (by decide))
theorem cvtS8S4l (f : WA) : Statement (.cvtS8S4l f) := congrArg some (opField_packA _ f (by decide))
theorem cvtS8S4h (f : WA) : Statement (.cvtS8S4h f) := congrArg some (opField_packA _ f (by decide))
theorem frred (f : WA) : Statement (.frred f) := congrArg some (opField_packA _ f (by decide))
theorem fsinr (f : WA) : Statement (.fsinr f) := congrArg some (opField_packA _ f (by decide))
theorem fcosr (f : WA) : Statement (.fcosr f) := congrArg some (opField_packA _ f (by decide))
theorem fexp2 (f : WA) : Statement (.fexp2 f) := congrArg some (opField_packA _ f (by decide))
theorem flog2 (f : WA) : Statement (.flog2 f) := congrArg some (opField_packA _ f (by decide))
theorem frcp (f : WA) : Statement (.frcp f) := congrArg some (opField_packA _ f (by decide))
theorem frsq (f : WA) : Statement (.frsq f) := congrArg some (opField_packA _ f (by decide))
theorem fsqrt (f : WA) : Statement (.fsqrt f) := congrArg some (opField_packA _ f (by decide))
theorem lswpP (f : WA) : Statement (.lswpP f) := congrArg some (opField_packA _ f (by decide))
theorem lshf (f : WI) : Statement (.lshf f) := congrArg some (opField_packI _ f (by decide))
theorem lbcast (f : WI) : Statement (.lbcast f) := congrArg some (opField_packI _ f (by decide))
theorem lxor (f : WI) : Statement (.lxor f) := congrArg some (opField_packI _ f (by decide))
theorem lidx (f : WA) : Statement (.lidx f) := congrArg some (opField_packA _ f (by decide))
theorem lrot (f : WI) : Statement (.lrot f) := congrArg some (opField_packI _ f (by decide))
theorem ldG (sz : BitVec 3) (f : WM) : Statement (.ldG sz f) := congrArg some (opField_packM _ f (by omega))
theorem ldS (sz : BitVec 3) (f : WM) : Statement (.ldS sz f) := congrArg some (opField_packM _ f (by omega))
theorem ldE (sz : BitVec 3) (f : WM) : Statement (.ldE sz f) := congrArg some (opField_packM _ f (by omega))
theorem stG (sz : BitVec 3) (f : WM) : Statement (.stG sz f) := congrArg some (opField_packM _ f (by omega))
theorem stS (sz : BitVec 3) (f : WM) : Statement (.stS sz f) := congrArg some (opField_packM _ f (by omega))
theorem stE (sz : BitVec 3) (f : WM) : Statement (.stE sz f) := congrArg some (opField_packM _ f (by omega))
theorem prefL1 (f : WM) : Statement (.prefL1 f) := congrArg some (opField_packM _ f (by decide))
theorem prefL2 (f : WM) : Statement (.prefL2 f) := congrArg some (opField_packM _ f (by decide))
theorem atomAdd (ms : BitVec 2) (f : WMA) : Statement (.atomAdd ms f) := congrArg some (opField_packMA _ f (by omega))
theorem atomMin (ms : BitVec 2) (f : WMA) : Statement (.atomMin ms f) := congrArg some (opField_packMA _ f (by omega))
theorem atomMax (ms : BitVec 2) (f : WMA) : Statement (.atomMax ms f) := congrArg some (opField_packMA _ f (by omega))
theorem atomMinu (ms : BitVec 2) (f : WMA) : Statement (.atomMinu ms f) := congrArg some (opField_packMA _ f (by omega))
theorem atomMaxu (ms : BitVec 2) (f : WMA) : Statement (.atomMaxu ms f) := congrArg some (opField_packMA _ f (by omega))
theorem atomAnd (ms : BitVec 2) (f : WMA) : Statement (.atomAnd ms f) := congrArg some (opField_packMA _ f (by omega))
theorem atomOr (ms : BitVec 2) (f : WMA) : Statement (.atomOr ms f) := congrArg some (opField_packMA _ f (by omega))
theorem atomXor (ms : BitVec 2) (f : WMA) : Statement (.atomXor ms f) := congrArg some (opField_packMA _ f (by omega))
theorem atomExch (ms : BitVec 2) (f : WMA) : Statement (.atomExch ms f) := congrArg some (opField_packMA _ f (by omega))
theorem atomCas (ms : BitVec 2) (f : WMA) : Statement (.atomCas ms f) := congrArg some (opField_packMA _ f (by omega))
theorem atomLd (ms : BitVec 2) (f : WMA) : Statement (.atomLd ms f) := congrArg some (opField_packMA _ f (by omega))
theorem atomSt (ms : BitVec 2) (f : WMA) : Statement (.atomSt ms f) := congrArg some (opField_packMA _ f (by omega))
theorem atomFadd (ms : BitVec 2) (f : WMA) : Statement (.atomFadd ms f) := congrArg some (opField_packMA _ f (by omega))
theorem atomAdd64 (ms : BitVec 2) (f : WMA) : Statement (.atomAdd64 ms f) := congrArg some (opField_packMA _ f (by omega))
theorem fenceE (f : WA) : Statement (.fenceE f) := congrArg some (opField_packA _ f (by decide))
theorem dfence (f : WA) : Statement (.dfence f) := congrArg some (opField_packA _ f (by decide))
theorem drainst (f : WA) : Statement (.drainst f) := congrArg some (opField_packA _ f (by decide))
theorem sfrd (f : WA) : Statement (.sfrd f) := congrArg some (opField_packA _ f (by decide))
theorem sfpop (f : WA) : Statement (.sfpop f) := congrArg some (opField_packA _ f (by decide))
theorem sfcnt (f : WA) : Statement (.sfcnt f) := congrArg some (opField_packA _ f (by decide))
theorem smap (f : WA) : Statement (.smap f) := congrArg some (opField_packA _ f (by decide))
theorem sunmap (f : WA) : Statement (.sunmap f) := congrArg some (opField_packA _ f (by decide))
theorem swb (f : WA) : Statement (.swb f) := congrArg some (opField_packA _ f (by decide))
theorem sinv (f : WA) : Statement (.sinv f) := congrArg some (opField_packA _ f (by decide))
theorem xacq (f : WA) : Statement (.xacq f) := congrArg some (opField_packA _ f (by decide))
theorem xrel (f : WA) : Statement (.xrel f) := congrArg some (opField_packA _ f (by decide))
theorem xtry (f : WA) : Statement (.xtry f) := congrArg some (opField_packA _ f (by decide))
theorem sdecl (f : WA) : Statement (.sdecl f) := congrArg some (opField_packA _ f (by decide))
theorem sleave (f : WA) : Statement (.sleave f) := congrArg some (opField_packA _ f (by decide))
theorem sinfo (f : WA) : Statement (.sinfo f) := congrArg some (opField_packA _ f (by decide))
theorem binit (f : WA) : Statement (.binit f) := congrArg some (opField_packA _ f (by decide))
theorem barv (f : WA) : Statement (.barv f) := congrArg some (opField_packA _ f (by decide))
theorem bwait (f : WA) : Statement (.bwait f) := congrArg some (opField_packA _ f (by decide))
theorem bsync (f : WA) : Statement (.bsync f) := congrArg some (opField_packA _ f (by decide))
theorem bgen (f : WA) : Statement (.bgen f) := congrArg some (opField_packA _ f (by decide))
theorem redb (f : WA) : Statement (.redb f) := congrArg some (opField_packA _ f (by decide))
theorem redw (f : WA) : Statement (.redw f) := congrArg some (opField_packA _ f (by decide))
theorem redq (f : WA) : Statement (.redq f) := congrArg some (opField_packA _ f (by decide))
theorem tmma (f : WA) : Statement (.tmma f) := congrArg some (opField_packA _ f (by decide))
theorem tzero (f : WA) : Statement (.tzero f) := congrArg some (opField_packA _ f (by decide))
theorem tres (f : WA) : Statement (.tres f) := congrArg some (opField_packA _ f (by decide))
theorem tcmp (f : WA) : Statement (.tcmp f) := congrArg some (opField_packA _ f (by decide))
theorem tdrain (rm : BitVec 2) (f : WA) : Statement (.tdrain rm f) := congrArg some (opField_packA _ f (by omega))
theorem tcmpX (f : WA) : Statement (.tcmpX f) := congrArg some (opField_packA _ f (by decide))
theorem tsave (f : WA) : Statement (.tsave f) := congrArg some (opField_packA _ f (by decide))
theorem tsaveC (f : WA) : Statement (.tsaveC f) := congrArg some (opField_packA _ f (by decide))
theorem tload (f : WA) : Statement (.tload f) := congrArg some (opField_packA _ f (by decide))
theorem tplane (f : WA) : Statement (.tplane f) := congrArg some (opField_packA _ f (by decide))
theorem twait (f : WA) : Statement (.twait f) := congrArg some (opField_packA _ f (by decide))
theorem twaitAll (f : WA) : Statement (.twaitAll f) := congrArg some (opField_packA _ f (by decide))
theorem tstat (f : WA) : Statement (.tstat f) := congrArg some (opField_packA _ f (by decide))
theorem tmov (f : WA) : Statement (.tmov f) := congrArg some (opField_packA _ f (by decide))
theorem cpy (q : BitVec 2) (f : WA) : Statement (.cpy q f) := congrArg some (opField_packA _ f (by omega))
theorem cpyN (f : WA) : Statement (.cpyN f) := congrArg some (opField_packA _ f (by decide))
theorem gath (f : WA) : Statement (.gath f) := congrArg some (opField_packA _ f (by decide))
theorem cseal (f : WA) : Statement (.cseal f) := congrArg some (opField_packA _ f (by decide))
theorem cwait (f : WI) : Statement (.cwait f) := congrArg some (opField_packI _ f (by decide))
theorem sleepP (f : WA) : Statement (.sleepP f) := congrArg some (opField_packA _ f (by decide))
theorem qfence (f : WI) : Statement (.qfence f) := congrArg some (opField_packI _ f (by decide))
theorem coll (f : WA) : Statement (.coll f) := congrArg some (opField_packA _ f (by decide))
theorem leader (f : WA) : Statement (.leader f) := congrArg some (opField_packA _ f (by decide))
theorem wpop (f : WA) : Statement (.wpop f) := congrArg some (opField_packA _ f (by decide))
theorem wpopSleep (f : WA) : Statement (.wpopSleep f) := congrArg some (opField_packA _ f (by decide))
theorem wpush (f : WA) : Statement (.wpush f) := congrArg some (opField_packA _ f (by decide))
theorem wlen (f : WA) : Statement (.wlen f) := congrArg some (opField_packA _ f (by decide))
theorem amsg (f : WA) : Statement (.amsg f) := congrArg some (opField_packA _ f (by decide))
theorem ampoll (f : WA) : Statement (.ampoll f) := congrArg some (opField_packA _ f (by decide))
theorem amend (f : WA) : Statement (.amend f) := congrArg some (opField_packA _ f (by decide))
theorem bidset (f : WA) : Statement (.bidset f) := congrArg some (opField_packA _ f (by decide))
theorem price (f : WA) : Statement (.price f) := congrArg some (opField_packA _ f (by decide))
theorem bidget (f : WA) : Statement (.bidget f) := congrArg some (opField_packA _ f (by decide))
theorem mfs (f : WS) : Statement (.mfs f) := congrArg some (opField_packS _ f (by decide))
theorem mts (f : WS) : Statement (.mts f) := congrArg some (opField_packS _ f (by decide))
theorem trap (f : WK) : Statement (.trap f) := congrArg some (opField_packK _ f (by decide))
theorem rett (f : WA) : Statement (.rett f) := congrArg some (opField_packA _ f (by decide))
theorem brk (f : WK) : Statement (.brk f) := congrArg some (opField_packK _ f (by decide))
theorem dtload (f : WI) : Statement (.dtload f) := congrArg some (opField_packI _ f (by decide))
theorem dtsel (f : WI) : Statement (.dtsel f) := congrArg some (opField_packI _ f (by decide))
theorem kchk (f : WA) : Statement (.kchk f) := congrArg some (opField_packA _ f (by decide))
theorem kcanc (hard : Bool) (lv : BitVec 2) (f : WA) : Statement (.kcanc hard lv f) := congrArg some (opField_packA _ f (by split <;> omega))
theorem probe (f : WA) : Statement (.probe f) := congrArg some (opField_packA _ f (by decide))
theorem tlbi (f : WA) : Statement (.tlbi f) := congrArg some (opField_packA _ f (by decide))
theorem icinv (f : WA) : Statement (.icinv f) := congrArg some (opField_packA _ f (by decide))
theorem mcfgr (f : WS) : Statement (.mcfgr f) := congrArg some (opField_packS _ f (by decide))
theorem mcfgw (f : WS) : Statement (.mcfgw f) := congrArg some (opField_packS _ f (by decide))
theorem create : Statement .create := rfl
theorem activate : Statement .activate := rfl
theorem suspend : Statement .suspend := rfl
theorem resume : Statement .resume := rfl
theorem destroy : Statement .destroy := rfl
theorem migrate : Statement .migrate := rfl
theorem contextCommandComplete : Statement .contextCommandComplete := rfl
theorem migrationComplete : Statement .migrationComplete := rfl
theorem migrationAborted : Statement .migrationAborted := rfl
theorem vfcfgWrite : Statement .vfcfgWrite := rfl
theorem watchdogExpiry : Statement .watchdogExpiry := rfl
theorem resetComplete : Statement .resetComplete := rfl
theorem noticeAppend : Statement .noticeAppend := rfl
theorem energyPeriodBoundary : Statement .energyPeriodBoundary := rfl
theorem sealing : Statement .sealing := rfl
theorem publication : Statement .publication := rfl
theorem intervalBoundary : Statement .intervalBoundary := rfl
theorem handoverEnd : Statement .handoverEnd := rfl
theorem priceExchangeReceived : Statement .priceExchangeReceived := rfl
theorem peerPriceEntryExpiry : Statement .peerPriceEntryExpiry := rfl
theorem doorbell : Statement .doorbell := rfl
theorem qcfgWrite : Statement .qcfgWrite := rfl
theorem retry : Statement .retry := rfl
theorem skip : Statement .skip := rfl
theorem rafterEventTake : Statement .rafterEventTake := rfl
theorem launchPacket : Statement .launchPacket := rfl
theorem feedPacket : Statement .feedPacket := rfl
theorem fencePacket : Statement .fencePacket := rfl
theorem waitPacket : Statement .waitPacket := rfl
theorem waitReevaluation : Statement .waitReevaluation := rfl
theorem waitTimeout : Statement .waitTimeout := rfl
theorem indirectPacket : Statement .indirectPacket := rfl
theorem copyPacket : Statement .copyPacket := rfl
theorem signalPacket : Statement .signalPacket := rfl
theorem cancelPacket : Statement .cancelPacket := rfl
theorem markPacket : Statement .markPacket := rfl
theorem dtloadPacket : Statement .dtloadPacket := rfl
theorem dispatchDecision : Statement .dispatchDecision := rfl
theorem powerGatingBegin : Statement .powerGatingBegin := rfl
theorem gatingCommit : Statement .gatingCommit := rfl
theorem coreWake : Statement .coreWake := rfl
theorem blockExit : Statement .blockExit := rfl
theorem blockResume : Statement .blockResume := rfl
theorem trapEntry : Statement .trapEntry := rfl
theorem switchMarkerComplete : Statement .switchMarkerComplete := rfl
theorem loadResultReturn : Statement .loadResultReturn := rfl
theorem sleepWake : Statement .sleepWake := rfl
theorem yieldEnd : Statement .yieldEnd := rfl
theorem storeQueuePerform : Statement .storeQueuePerform := rfl
theorem mapFillComplete : Statement .mapFillComplete := rfl
theorem engineOperationTurn : Statement .engineOperationTurn := rfl
theorem engineOperationComplete : Statement .engineOperationComplete := rfl
theorem promiseWake : Statement .promiseWake := rfl
theorem tmmaTurn : Statement .tmmaTurn := rfl
theorem tzeroTurn : Statement .tzeroTurn := rfl
theorem tresTurn : Statement .tresTurn := rfl
theorem tcmpTurn : Statement .tcmpTurn := rfl
theorem tcmpXTurn : Statement .tcmpXTurn := rfl
theorem tdrainTurn : Statement .tdrainTurn := rfl
theorem tsaveTurn : Statement .tsaveTurn := rfl
theorem tsaveCTurn : Statement .tsaveCTurn := rfl
theorem tloadTurn : Statement .tloadTurn := rfl
theorem tplaneTurn : Statement .tplaneTurn := rfl
theorem tmovTurn : Statement .tmovTurn := rfl
theorem bridleGenerationComplete : Statement .bridleGenerationComplete := rfl
theorem pageReWalk : Statement .pageReWalk := rfl
theorem pageRequest : Statement .pageRequest := rfl
theorem prqdoneWrite : Statement .prqdoneWrite := rfl
theorem gutterDrain : Statement .gutterDrain := rfl
theorem pageMove : Statement .pageMove := rfl
theorem pageMoveComplete : Statement .pageMoveComplete := rfl
theorem tlbih : Statement .tlbih := rfl
theorem tlbiCompletion : Statement .tlbiCompletion := rfl
theorem frrCommit : Statement .frrCommit := rfl
theorem portEnable : Statement .portEnable := rfl
theorem portDisable : Statement .portDisable := rfl
theorem retrain : Statement .retrain := rfl
theorem portDrain : Statement .portDrain := rfl
theorem trainingAttemptEnd : Statement .trainingAttemptEnd := rfl
theorem laneFailure : Statement .laneFailure := rfl
theorem drainingEnd : Statement .drainingEnd := rfl
theorem flitReceived : Statement .flitReceived := rfl
theorem linkRetryRequest : Statement .linkRetryRequest := rfl
theorem deviceUnreachable : Statement .deviceUnreachable := rfl
theorem peerRequestArrival : Statement .peerRequestArrival := rfl
theorem peerResponseArrival : Statement .peerResponseArrival := rfl
theorem messageArrival : Statement .messageArrival := rfl
theorem messageAnswerArrival : Statement .messageAnswerArrival := rfl
theorem collFragmentArrival : Statement .collFragmentArrival := rfl
theorem ethernetFrameReceived : Statement .ethernetFrameReceived := rfl
theorem perrRead : Statement .perrRead := rfl
theorem pdiscRead : Statement .pdiscRead := rfl
theorem nsqNdiscRead : Statement .nsqNdiscRead := rfl
theorem hostLinkWrite : Statement .hostLinkWrite := rfl
theorem l2RequestAccept : Statement .l2RequestAccept := rfl
theorem l2LineReturn : Statement .l2LineReturn := rfl
theorem dbgctlWrite : Statement .dbgctlWrite := rfl
theorem drelRun : Statement .drelRun := rfl
theorem drelStep : Statement .drelStep := rfl
theorem daccRead : Statement .daccRead := rfl
theorem daccWrite : Statement .daccWrite := rfl
theorem traceRecordWrite : Statement .traceRecordWrite := rfl
theorem sampleTake : Statement .sampleTake := rfl
theorem sensorSample : Statement .sensorSample := rfl
theorem supplyUpdate : Statement .supplyUpdate := rfl
theorem throttleEvaluation : Statement .throttleEvaluation := rfl
theorem powerExcursion : Statement .powerExcursion := rfl
theorem excursionHoldEnd : Statement .excursionHoldEnd := rfl
theorem telemetrySnapshot : Statement .telemetrySnapshot := rfl
theorem thermalTrip : Statement .thermalTrip := rfl
theorem functionLevelReset : Statement .functionLevelReset := rfl
theorem powerUp : Statement .powerUp := rfl
theorem boot : Statement .boot := rfl
theorem attestationRequest : Statement .attestationRequest := rfl
theorem correctedSoftError : Statement .correctedSoftError := rfl
theorem uncorrectableSoftError : Statement .uncorrectableSoftError := rfl
theorem sercntRead : Statement .sercntRead := rfl
theorem registerWrite : Statement .registerWrite := rfl
theorem engineOperationStop : Statement .engineOperationStop := rfl
theorem icinvCompletion : Statement .icinvCompletion := rfl
theorem attestationReportWritten : Statement .attestationReportWritten := rfl
theorem hostLinkTraining : Statement .hostLinkTraining := rfl
theorem gtsSynchronisation : Statement .gtsSynchronisation := rfl
theorem packetRetransmission : Statement .packetRetransmission := rfl

end Sys2Proof.Laws.Encodes
end

