-- ==== Sys2Proof/Tests/Slice0.lean ====
section
/-!
SUPPORT. Tests: ill-formed terms that the checks refuse, words of the manual decoded, worked examples of the manual, and for each
obligation with hypotheses a concrete state and operands that meet them, clause by clause.
-/

namespace Sys2Proof.Tests

open Sys2Proof Sys2Proof.Machine Sys2Proof.Claims

/-! ### Small terms and states -/

def wA (d a b : BitVec 5) (sc : BitVec 2 := 0) : WA := ⟨false, false, sc, 3, false, d, a, b⟩
def wI (d a : BitVec 5) (k : BitVec 6) (sc : BitVec 2 := 0) : WI := ⟨false, false, sc, 3, d, a, k⟩
def wK (k : BitVec 13) (d : BitVec 5 := 0) : WK := ⟨false, false, 3, d, k⟩
def wM (d a : BitVec 5) (off : BitVec 6) : WM := ⟨false, false, 0, 3, d, a, off⟩
def wMA (d a b : BitVec 5) : WMA := ⟨false, false, 0, 3, false, d, a, b⟩
def wS (d : BitVec 5) (n : BitVec 11) : WS := ⟨false, false, 0, 3, d, n⟩

/-- A group with two ACTIVE threads whose registers are `w`. -/
def group2 (w : Tab Word) : Group := { thr := [(0, { pc := 0x44, mode := .active, w := w }), (1, { pc := 0x44, mode := .active, w := w })] }

/-- Block 1 of context 0 on core 0 with one such group, an issue of both threads at 0x40 in progress. -/
def st (w : Tab Word) (g : Group → Group := id) (k : Block → Block := id) (x : Ctx → Ctx := id) : State :=
  { ctxs := [(0, x { st := .running })], blks := [(1, k { ctx := 0, grps := 1, core := some 0, groups := [(0, g (group2 w))] })], nextId := 5
    cur := { blk := 1, j := 0, head := 0x40, pc := 0x40, next := 0x44, members := [(0, 0), (0, 1)], groups := [0] } }

/-- A state with the operands of an event. -/
def on (a : Arg) (s : State := {}) : State := { s with arg := a }

/-- A step that answers a next state with a property. -/
def goes (o : Out) (p : State → Bool) : Bool := match o with | .next t => p t | _ => false

/-! ### Well-formedness: one refused term for each check -/

theorem test_wf_subfield_refused : WellFormed (.pset 10 (wA 0 1 2)) = false := by decide
theorem test_wf_scope_refused : WellFormed (.redb (wA 1 0 0)) = false := by decide
theorem test_wf_value_refused : WellFormed (.lbcast (wI 1 2 32)) = false := by decide
theorem test_wf_reserved_refused : WellFormed (.atomLd 0 ⟨false, false, 2, 3, false, 1, 2, 4⟩) = false := by decide
theorem test_wf_class_refused : WellFormed (.add64 (wA 1 2 4)) = false := by decide
theorem test_wf_accepts : WellFormed (.add64 (wA 2 4 6)) = true := by decide

/-! ### Words of the manual -/

theorem test_decode_sfrd : decode 0x63A3_2841 = .ok (.sfrd ⟨false, true, 0, 3, false, 10, 2, 1⟩) := by decide
theorem test_decode_exit : decode 0x0067_0000 = .ok (.exit ⟨false, false, 1, 3, false, 0, 0, 0⟩) := by decide
theorem test_decode_ampoll : decode 0x3113_2980 = .ok (.ampoll ⟨false, false, 0, 3, false, 10, 12, 0⟩) := by decide
theorem test_decode_amend : decode 0x3127_00A0 = .ok (.amend ⟨false, false, 1, 3, false, 0, 5, 0⟩) := by decide
theorem test_decode_leader : decode 0x30BB_0400 = .ok (.leader ⟨false, false, 2, 3, false, 1, 0, 0⟩) := by decide
theorem test_decode_cwait : decode 0x707B_0000 = .ok (.cwait ⟨false, true, 2, 3, 0, 0, 0⟩) := by decide
theorem test_decode_movg : decode 0x061B_2080 = .ok (.movg ⟨false, false, 2, 3, false, 8, 4, 0⟩) := by decide
theorem test_decode_sleep : decode 0x008C_1E85 = .ok (.sleep ⟨false, false, 3, 0, 7813⟩) := by decide
theorem test_decode_yield : decode 0x007C_0004 = .ok (.yield ⟨false, false, 3, 0, 4⟩) := by decide
theorem test_decode_tdrain : decode 0x2C4B_08C8 = .ok (.tdrain 0 ⟨false, false, 2, 3, false, 2, 6, 8⟩) := by decide
theorem test_decode_lea : decode 0x0733_10C8 = .ok (.lea 3 ⟨false, false, 0, 3, false, 4, 6, 8⟩) := by decide
theorem test_decode_xtry : decode 0x2467_1400 = .ok (.xtry ⟨false, false, 1, 3, false, 5, 0, 0⟩) := by decide
theorem test_decode_pref : decode 0x1B13_0102 = .ok (.prefL2 ⟨false, false, 0, 3, 0, 4, 2⟩) := by decide
theorem test_decode_fence : decode 0x2383_0000 = .ok (.fenceE ⟨false, false, 0, 3, false, 0, 0, 0⟩) := by decide
theorem test_decode_redw : decode 0x286F_152A = .ok (.redw ⟨false, false, 3, 3, false, 5, 9, 10⟩) := by decide
theorem test_decode_brk : decode 0x344C_0000 = .ok (.brk ⟨false, false, 3, 0, 0⟩) := by decide
theorem test_decode_rett : decode 0x3437_0000 = .ok (.rett ⟨false, false, 1, 3, false, 0, 0, 0⟩) := by decide
theorem test_encode_psetk : encode (.psetk 0 (wI 1 1 0)) = some 0x0203_0840 := by decide
theorem test_table_word : decodeTableWord 32 0x0203_0840 = some (.psetk 0 (wI 1 1 0)) := by decide

/-! ### Worked examples of the manual -/

/-- 14: LEA.3 of x6 = 0x0000_7F00_0000_0000 and w8 = 0xFFFF_FFFE is 0x0000_7EFF_FFFF_FFF0. -/
theorem test_lea : goes (exec (.lea 3 (wA 4 6 8)) (st [(6, 0), (7, 0x7F00), (8, 0xFFFF_FFFE)]))
    (fun t => decide ((t.thr 1 0 1).rx 4 = 0x0000_7EFF_FFFF_FFF0)) = true := by decide

/-- 14 R336: ADD wraps modulo 2^32, a source may be the destination. -/
theorem test_add_wraps : goes (exec (.add (wA 1 1 2)) (st [(1, 0xFFFF_FFFF), (2, 2)])) (fun t => decide ((t.thr 1 0 0).rw 1 = 1)) = true := by decide

/-- 14 R338: field descriptor 0x0C1C names a field of 4 bits at 28 (48 cut to what remains). -/
theorem test_bfx : goes (exec (.bfx (wA 1 2 3)) (st [(2, 0xA000_0001), (3, 0x0C1C)])) (fun t => decide ((t.thr 1 0 0).rw 1 = 0xA)) = true := by decide

/-- 14 R339: SHLK shifts by 13 and takes its constant: MOVK 0x12, SHLK 0xF00 gives 0x0002_4F00. -/
theorem test_shlk : goes (exec (.shlk (wK 0xF00 6)) (st [(6, 0x12)])) (fun t => decide ((t.thr 1 0 0).rw 6 = 0x0002_4F00)) = true := by decide

/-- 15: 1 + 1 = 2 in FP32, no flag. -/
theorem test_fadd : goes (exec (.fadd 0 (wA 1 2 3)) (st [(2, 0x3F80_0000), (3, 0x3F80_0000)]))
    (fun t => decide ((t.thr 1 0 0).rw 1 = 0x4000_0000 ∧ (t.grp 1 0).fpc = 0)) = true := by decide

/-- 02 R42: infinity minus infinity is the default NaN and raises NV. -/
theorem test_fsub_invalid : goes (exec (.fsub 0 (wA 1 2 2)) (st [(2, 0x7F80_0000)]))
    (fun t => decide ((t.grp 1 0).fpc ≠ 0)) = true := by decide

/-! ### Witnesses: words -/

theorem wit_encoding : ∃ (i : Instr) (w : BitVec 32), subfieldOk i = true ∧ encode i = some w :=
  ⟨.pset 9 (wA 2 31 31), _, rfl, rfl⟩

theorem wit_decoding : (∃ (w : BitVec 32) (i : Instr), decode w = .ok i) ∧ (∃ (w : BitVec 32) (e : DecodeError), decode w = .error e) :=
  ⟨⟨0, _, rfl⟩, 0xFFFF_FFFF, _, rfl⟩

theorem wit_integer :
    (∃ (i : Instr) (d : Nat) (v : (Nat → Word) → Word) (s : State), wordResult i = some (d, v) ∧ Passes i s) ∧
    (∃ (i : Instr) (d : Nat) (v : (Nat → Word) → DWord) (s : State), pairResult i = some (d, v) ∧ Passes i s) :=
  ⟨⟨.shl (wA 1 2 3), 1, _, st [(2, 1), (3, 255)], rfl, rfl, rfl⟩, .add64 (wA 2 4 6), 2, _, st [(4, 1)], rfl, rfl, rfl⟩

theorem wit_predicates :
    (∃ (i : Instr) (d : Nat) (v : (Nat → Word) → (Nat → Bool) → Bool) (s : State), predResult i = some (d, v) ∧ Passes i s) ∧
    (∃ (i : Instr) (d : Nat) (r : Bool) (s : State), voteResult s i = some (d, r) ∧ Passes i s) :=
  ⟨⟨.pset 2 (wA 1 2 3), 1, _, st [], rfl, rfl, rfl⟩, .voteAll (wA 0 1 0 1), 0, _, st [], rfl, rfl, rfl⟩

theorem wit_cross_class :
    (∃ (i : Instr) (d : Nat) (v : Nat × Nat → Word) (s : State), crossResult s i = some (d, v) ∧ Passes i s) ∧
    (∃ (f : WA) (s : State) (m : Nat × Nat), Passes (.movg f) s ∧ lowest s f.pr.toNat = some m ∧ s.cur.groups.Nodup ∧
      (converged s = true ∨ tget false (s.grp s.cur.blk s.cur.j).gflag f.d.toNat = false ∨ (s.grp s.cur.blk s.cur.j).udt = false)) :=
  ⟨⟨.prd (wA 1 2 0), 1, _, st [], rfl, rfl, rfl⟩, wA 8 4 0 1, st [(4, 9)], (0, 0), ⟨rfl, rfl⟩, rfl, by decide, by decide⟩

theorem wit_floating_point :
    (∃ (i : Instr) (d : Nat) (v : Bool → Bool → (Nat → Nat) → FRes) (s : State), floatResult i = some (d, v) ∧ Passes i s) ∧
    (∃ (f : WA) (s : State), Passes (.frred f) s) ∧
    (∃ (i : Instr) (c : Nat) (f : WA) (s : State), fsetForm i = some (c, f) ∧ Passes i s) :=
  ⟨⟨.ffma 3 (wA 1 2 3), 1, _, st [], rfl, rfl, rfl⟩, ⟨wA 2 1 0, st [], rfl, rfl⟩, .fsetGtToOr 3 (wA 1 2 3), 7, wA 1 2 3, st [], rfl, rfl, rfl⟩

theorem wit_lane_exchange : (∃ (i : Instr) (d a : Nat) (src : Nat → Nat → Nat → Option Nat) (s : State), laneSource i = some (d, a, src) ∧ Passes i s ∧
    (∀ m ∈ s.cur.members, laneConstant i < 32 * (laneGroups s (wordInfo i).sc m).length ∧ m.1 ∈ laneGroups s (wordInfo i).sc m) ∧
    ∀ m ∈ guarded s (wordInfo i).pr, ∀ n, laneFrom s i src m = some n → a ∉ (s.srcThr n).bad) ∧
    (∃ (i : Instr) (d a : Nat) (src : Nat → Nat → Nat → Option Nat) (s : State), laneSource i = some (d, a, src) ∧ Passes i s ∧
    (∀ m ∈ s.cur.members, laneConstant i < 32 * (laneGroups s (wordInfo i).sc m).length ∧ m.1 ∈ laneGroups s (wordInfo i).sc m) ∧
    (∃ m ∈ guarded s (wordInfo i).pr, ∃ n, laneFrom s i src m = some n ∧ a ∈ (s.srcThr n).bad) ∧ s.cur.go = false) ∧
    ∃ (f : WI) (i : Instr) (s : State), (i = .lbcast f ∨ i = .lxor f) ∧ f.sc.toNat < 2 ∧ 32 ≤ f.k.toNat ∧ xregOk s i = true ∧ s.cur.go = false :=
  ⟨⟨.lbcast (wI 1 2 31), 1, 2, _, st [], rfl, ⟨rfl, rfl⟩, by decide, fun m hm n h => by
      have g : m.1 = 0 := (by decide : ∀ m ∈ guarded (st []) (wordInfo (.lbcast (wI 1 2 31))).pr, m.1 = 0) m hm
      obtain rfl : (0, 31) = n := by simpa [laneFrom, laneGroups, wordInfo, wI, g] using h
      decide⟩,
    ⟨.lbcast (wI 1 2 1), 1, 2, _, st [] (fun g => g.updTh 1 (fun t => { t with bad := [2] })), rfl, ⟨rfl, rfl⟩, by decide,
      ⟨(0, 0), by decide, (0, 1), by decide, by decide⟩, rfl⟩,
    wI 1 2 32 1, _, st [], .inr rfl, by decide, by decide, rfl, rfl⟩

theorem wit_transfers :
    (∃ (i : Instr) (s : State), (∀ m, (transferTarget s m i).isSome = true) ∧ Passes i s ∧ ∀ m ∈ guarded s (wordInfo i).pr, targetLegal s m i = true) ∧
    (∃ (f : WJ) (s : State), Checked (.bra f) s ∧ guarded s f.pr.toNat ≠ [] ∧ branchSum s f < 0) ∧
    (∃ (f : WJ) (s : State), Checked (.call f) s ∧ guarded s f.pr.toNat ≠ [] ∧ 2 ^ 48 ≤ branchSum s f) ∧
    (∃ (f : WA) (s : State), Checked (.brx f) s ∧ Checked (.callx f) s ∧ ∃ m ∈ guarded s f.pr.toNat, 2 ^ 48 ≤ (rdX s m f.a.toNat).toNat) ∧
    (∃ (f : WA) (s : State), Checked (.brx f) s ∧ Checked (.callx f) s ∧ (∀ m ∈ guarded s f.pr.toNat, (rdX s m f.a.toNat).toNat < 2 ^ 48) ∧
      ∃ m ∈ guarded s f.pr.toNat, (rdX s m f.a.toNat).toNat % 4 ≠ 0) ∧
    (∃ (f : WA) (s : State), Checked (.ret f) s ∧ ∃ m ∈ guarded s f.pr.toNat, (rdW s m 14).toNat % 4 ≠ 0) :=
  ⟨⟨.brx (wA 0 2 0), st [(2, 8), (3, 0xFFFF)], fun _ => rfl, ⟨rfl, rfl⟩, by decide⟩,
    ⟨⟨false, false, 3, -17⟩, st [], ⟨⟨rfl, rfl⟩, rfl⟩, by decide, by decide⟩,
    ⟨⟨false, false, 3, 1⟩, { st [] with cur := { (st []).cur with pc := 0xFFFF_FFFF_FFFC } }, ⟨⟨rfl, rfl⟩, rfl⟩, by decide, by decide⟩,
    ⟨wA 0 2 0, st [(3, 0x1_0000)], ⟨⟨rfl, rfl⟩, rfl⟩, ⟨⟨rfl, rfl⟩, rfl⟩, by decide⟩,
    ⟨wA 0 2 0, st [(2, 1), (3, 0xFFFF)], ⟨⟨rfl, rfl⟩, rfl⟩, ⟨⟨rfl, rfl⟩, rfl⟩, by decide, by decide⟩,
    wA 0 0 0, st [(14, 1)], ⟨⟨rfl, rfl⟩, rfl⟩, by decide⟩

theorem wit_exit : ∃ (f : WA) (s : State), Passes (.exit f) s ∧ unsettled s true = [] ∧
    (∀ m ∈ s.cur.members, settledGroup (s.blk s.cur.blk) (s.grp s.cur.blk m.1) (s.lanesOfGroup m.1) true = true) ∧ (∀ m ∈ guarded s f.pr.toNat, (s.grp s.cur.blk m.1).done = false) ∧ (f.sc = 0 ∨ ∀ m ∈ guarded s f.pr.toNat, (s.grp s.cur.blk m.1).hm = false) :=
  ⟨wA 0 0 0, st [], ⟨rfl, rfl⟩, by decide, by decide, by decide, .inl rfl⟩

theorem wit_nop : (∃ (f : WK) (s : State), Passes (.nop f) s) ∧ ∃ (f : WK) (u v : FWord) (i : Instr), u.ins = some (.nop f) ∧ v.ins = some i ∧
    (wordInfo i).pipe = .ct :=
  ⟨⟨wK 8191, st [], rfl, rfl⟩, wK 0, ⟨0, 0, some (.nop (wK 0)), 0, 0⟩, ⟨4, 0, some (.pand (wA 0 1 2)), 9, 0⟩, _, rfl, rfl, rfl⟩

theorem wit_rep_yield_sleep :
    (∃ (f : WP) (s : State), Passes (.rep f) s) ∧ (∃ (f : WK) (s : State), Passes (.yield f) s) ∧
    (∃ (f : WK) (s : State), f.k = 0 ∧ Passes (.sleep f) s) ∧
    (∃ (f : WK) (s : State), Passes (.sleep f) s ∧ f.k ≠ 0 ∧ (s.blk s.cur.blk).marked = false) :=
  ⟨⟨⟨false, false, 15, 3, 3, 3, 0⟩, st [], rfl, rfl⟩, ⟨wK 0, st [], rfl, rfl⟩, ⟨wK 0, st [], rfl, rfl, rfl⟩, wK 1, st [], ⟨rfl, rfl⟩, by decide, rfl⟩

/-- The block with one scratchpad unit and one eaves unit. -/
def pads (k : Block) : Block := { k with units := [0], eunits := [100], xunits := [] }

theorem wit_loads : ∃ (i : Instr) (sp : Nat) (sz : BitVec 3) (f : WM) (s : State), loadForm i = some (sp, sz, f) ∧ Passes i s ∧
    loadCheck s sp (loadSize sz) f = .pass :=
  ⟨.ldS 4 (wM 1 2 0), 1, 4, wM 1 2 0, st [(2, 0xFFFC)] id pads, rfl, ⟨rfl, rfl⟩, by decide⟩

theorem wit_stores : ∃ (i : Instr) (sp : Nat) (sz : BitVec 3) (f : WM) (s : State), storeForm i = some (sp, sz, f) ∧ Passes i s ∧
    storeCheck s sp (storeSize sz) f = .pass :=
  ⟨.stS 2 (wM 1 2 0), 1, 2, wM 1 2 0, st [(2, 0xFFFC)] id pads, rfl, ⟨rfl, rfl⟩, by decide⟩

theorem wit_atomics : ∃ (i : Instr) (op : Nat) (ms : BitVec 2) (f : WMA) (s : State), atomForm i = some (op, ms, f) ∧ Passes i s ∧ atomCheck s op f = .pass :=
  ⟨.atomAdd 0 (wMA 1 2 4), 0, 0, wMA 1 2 4, st [(2, 8), (3, 0xFE00_0000)] id pads, rfl, ⟨rfl, rfl⟩, by decide⟩

theorem wit_prefetches : ∃ (i : Instr) (f : WM) (s : State), prefetchForm i = some f ∧ Passes i s ∧
    ∀ m ∈ guarded s f.pr.toNat, canonicalAddr (laneAddress s m 0 f.a.toNat 128 f.off) = true :=
  ⟨.prefL2 (wM 0 2 1), _, st [(2, 64)], rfl, ⟨rfl, rfl⟩, by decide⟩

theorem wit_misaligned :
    (∃ (sz : BitVec 3) (f : WM) (s : State), Checked (.ldG sz f) s ∧
      ∃ m ∈ guarded s f.pr.toNat, laneAddress s m 0 f.a.toNat (loadBytes sz) f.off % loadBytes sz ≠ 0) ∧
    (∃ (sz : BitVec 3) (f : WM) (s : State), Checked (.stG sz f) s ∧
      ∃ m ∈ guarded s f.pr.toNat, laneAddress s m 0 f.a.toNat (storeBytes sz) f.off % storeBytes sz ≠ 0) ∧
    (∃ (ms : BitVec 2) (f : WMA) (s : State), Checked (.atomAdd ms f) s ∧ ∃ m ∈ guarded s f.pr.toNat, (rdX s m f.a.toNat).toNat % 4 ≠ 0) :=
  ⟨⟨4, wM 1 2 0, st [(2, 2)], ⟨⟨rfl, rfl⟩, rfl⟩, by decide⟩, ⟨2, wM 1 2 0, st [(2, 2)], ⟨⟨rfl, rfl⟩, rfl⟩, by decide⟩, 0, wMA 1 2 4, st [(2, 1)],
    ⟨⟨rfl, rfl⟩, rfl⟩, by decide⟩

/-- A store queue with a faulted entry behind an older store. -/
def drainy (g : Group) : Group := { g with sq := [{ id := 1, kind := .store, seq := 0 }, { id := 2, kind := .store, seq := 1, fault := some 0xA }] }

/-- A store of lane 1 that awaits the answer of its home. -/
def unanswered (g : Group) : Group := { g with sq := [{ id := 1, kind := .store, seq := 0, sent := true, accs := [{ lane := 1, addr := 8, st := 3 }] }] }

/-- A handler that store-fault records caused, with one record. -/
def recordy (g : Group) : Group :=
  { g with hm := true, sfh := true, aside := [{ id := 2, kind := .store, seq := 1, fault := some 0xA, accs := [{ lane := 0, addr := 8, st := 2, syn := 1 }] }] }

theorem wit_fences :
    (∃ (f : WA) (s : State), Passes (.fenceE f) s) ∧
    (∃ (f : WA) (s : State), Passes (.drainst f) s ∧ (∀ m ∈ s.cur.members, draining (s.srcGrp m.1) = false) ∧
      (∀ m ∈ s.cur.members, dueAt s.srcBlk (s.srcGrp m.1) Point.drainst = none) ∧ maskDueList s = []) ∧
    (∃ (f : WA) (s : State), Passes (.drainst f) s ∧ guarded s f.pr.toNat ≠ [] ∧ (∃ m ∈ s.cur.members, draining (s.srcGrp m.1) = true) ∧
      s.cur.go = false) ∧
    (∃ (f : WA) (s : State), Passes (.dfence f) s ∧ guarded s f.pr.toNat ≠ [] ∧ unacknowledged s f.pr.toNat = true ∧ s.cur.go = false) ∧
    (∃ (f : WA) (s : State), Passes (.dfence f) s ∧ guarded s f.pr.toNat ≠ [] ∧ unacknowledged s f.pr.toNat = false ∧
      ∀ m ∈ s.cur.members, dueAt s.srcBlk (s.srcGrp m.1) Point.dfence = none) ∧
    (∃ (f : WA) (s : State), Passes (.drainst f) s ∧ guarded s f.pr.toNat = []) :=
  ⟨⟨wA 0 0 0, st [], rfl, rfl⟩, ⟨wA 0 0 0, st [], ⟨rfl, rfl⟩, by decide, by decide, by decide⟩,
    ⟨wA 0 0 0, st [] drainy, ⟨rfl, rfl⟩, by decide, by decide, rfl⟩,
    ⟨wA 0 0 0, st [] unanswered, ⟨rfl, rfl⟩, by decide, by decide, rfl⟩, ⟨wA 0 0 0, st [], ⟨rfl, rfl⟩, by decide, by decide, by decide⟩, ⟨false, false, 0, 0, false, 0, 0, 0⟩, st [], ⟨rfl, rfl⟩, by decide⟩

theorem wit_store_fault_records :
    (∃ (f : WA) (s : State), Passes (.sfrd f) s ∧ ∀ m ∈ s.cur.members, (s.srcGrp m.1).hm = true ∧ (s.srcGrp m.1).sfh = true) ∧
    (∃ (f : WA) (s : State), Passes (.sfpop f) s ∧ (∀ m ∈ s.cur.members, (s.srcGrp m.1).hm = true ∧ (s.srcGrp m.1).sfh = true) ∧
      ∃ e, headRecord (s.grp s.cur.blk 0) = some e) ∧
    (∃ (f : WA) (s : State), Passes (.sfcnt f) s ∧ ∀ m ∈ s.cur.members, (s.srcGrp m.1).hm = true ∧ (s.srcGrp m.1).sfh = true) ∧
    (∃ (f : WA) (s : State), Checked (.sfcnt f) s ∧ ∃ m ∈ s.cur.members, (s.srcGrp m.1).hm = false) :=
  ⟨⟨wA 2 5 1, st [] recordy, ⟨rfl, rfl⟩, by decide⟩, ⟨wA 0 0 2, st [] recordy, ⟨rfl, rfl⟩, by decide, _, rfl⟩,
    ⟨wA 1 0 3, st [] recordy, ⟨rfl, rfl⟩, by decide⟩, wA 1 0 3, st [], ⟨⟨rfl, rfl⟩, rfl⟩, by decide⟩

/-- A block whose map entry 15 is valid over lines 0 to 1. -/
def mapped (k : Block) : Block := { pads k with maps := [(15, { v := true, nlm1 := 1, valid := [0, 1], dirty := [(1, 255)] })] }

theorem wit_maps :
    (∃ (f : WA) (s : State) (m : Nat × Nat), Passes (.smap f) s ∧ lowest s f.pr.toNat = some m ∧ smapCheck s f = .pass) ∧
    (∃ (f : WA) (s : State) (m : Nat × Nat), Passes (.sinv f) s ∧ lowest s f.pr.toNat = some m ∧
      ((s.blk s.cur.blk).map ((rdW s m f.a.toNat).toNat / 2 ^ 16 % 16)).v = true ∧
      (rdW s m f.b.toNat).toNat % 2 ^ 16 + (rdW s m f.b.toNat).toNat / 2 ^ 16 ≤ ((s.blk s.cur.blk).map ((rdW s m f.a.toNat).toNat / 2 ^ 16 % 16)).nlm1) ∧
    (∃ (f : WA) (s : State) (m : Nat × Nat), Passes (.swb f) s ∧ lowest s f.pr.toNat = some m ∧ (s.grp s.cur.blk m.1).sq.length < 16 ∧
      (rdW s m f.b.toNat).toNat % 2 ^ 16 + (rdW s m f.b.toNat).toNat / 2 ^ 16 ≤ ((s.blk s.cur.blk).map ((rdW s m f.a.toNat).toNat / 2 ^ 16 % 16)).nlm1 ∧
      ((s.blk s.cur.blk).map ((rdW s m f.a.toNat).toNat / 2 ^ 16 % 16)).v = true) ∧
    (∃ (f : WA) (s : State) (m : Nat × Nat), Passes (.sunmap f) s ∧ lowest s f.pr.toNat = some m ∧ (s.grp s.cur.blk m.1).sq.length < 16 ∧
      ((s.blk s.cur.blk).map ((rdW s m f.a.toNat).toNat / 2 ^ 16 % 16)).v = false) :=
  ⟨⟨wA 1 2 4, st [(1, 0xF_0001), (2, 0x100)] id pads, (0, 0), ⟨rfl, rfl⟩, rfl, by decide⟩,
    ⟨wA 0 1 2, st [(1, 0xF_0000), (2, 0x1_0000)] id mapped, (0, 0), ⟨rfl, rfl⟩, rfl, by decide, by decide⟩,
    ⟨wA 0 1 2, st [(1, 0xF_0000), (2, 1)] id mapped, (0, 0), ⟨rfl, rfl⟩, rfl, by decide, by decide, by decide⟩,
    wA 0 1 2, st [(1, 0xE_0000)] id mapped, (0, 0), ⟨rfl, rfl⟩, rfl, by decide, by decide⟩

/-- A block of a kernel with register blocks. -/
def blocky (k : Block) : Block := { k with xreg := true }

theorem wit_register_blocks :
    (∃ (f : WA) (s : State) (n : Nat), Passes (.xacq f) s ∧ (s.blk s.cur.blk).xreg = true ∧ (s.blk s.cur.blk).marked = false ∧
      guardedGroups s f.pr.toNat = [0] ∧ (s.grp s.cur.blk 0).xgran = none ∧ (s.core (s.blkCore s.cur.blk)).xacqQ = [] ∧
      (granulesFree s (s.blkCore s.cur.blk)).head? = some n) ∧
    (∃ (f : WA) (s : State), Passes (.xacq f) s ∧ (s.blk s.cur.blk).xreg = true ∧ guardedGroups s f.pr.toNat = [0] ∧
      (s.grp s.cur.blk 0).xgran.isSome = true) ∧
    (∃ (f : WA) (s : State), Passes (.xacq f) s ∧ (s.blk s.cur.blk).xreg = true ∧ guardedGroups s f.pr.toNat = [0] ∧
      (s.grp s.cur.blk 0).xgran = none ∧ (s.core (s.blkCore s.cur.blk)).xacqQ ≠ [] ∧ (s.blk s.cur.blk).marked = false) ∧
    (∃ (f : WA) (s : State), Passes (.xtry f) s ∧ (s.blk s.cur.blk).xreg = true ∧ guardedGroups s f.pr.toNat = [0]) ∧
    (∃ (f : WA) (s : State), Passes (.xrel f) s ∧ (s.blk s.cur.blk).xreg = true ∧ unsettled s false = [] ∧
      (∀ j ∈ guardedGroups s f.pr.toNat, settledGroup (s.blk s.cur.blk) (s.grp s.cur.blk j) (s.lanesOfGroup j) false = true) ∧
      ∀ j ∈ guardedGroups s f.pr.toNat, (s.cur.blk, j) ∉ (s.core (s.blkCore s.cur.blk)).xacqQ) :=
  ⟨⟨wA 0 0 0 1, st [] id blocky, _, ⟨rfl, rfl⟩, rfl, rfl, by decide, rfl, rfl, rfl⟩,
    ⟨wA 0 0 0 1, st [] (fun g => { g with xgran := some 7 }) blocky, ⟨rfl, rfl⟩, rfl, by decide, rfl⟩,
    ⟨wA 0 0 0 1, { st [] id blocky with cores := [(0, { xacqQ := [(9, 0)] })] }, ⟨rfl, rfl⟩, rfl, by decide, rfl, by decide, rfl⟩,
    ⟨wA 5 0 0 1, st [] id blocky, ⟨rfl, rfl⟩, rfl, by decide⟩,
    wA 0 0 0 1, st [] (fun g => { g with xgran := some 7 }) blocky, ⟨rfl, rfl⟩, rfl, by decide, by decide, by decide⟩

/-- Tag 3 with one declarer of the two it needs. -/
def half (k : Block) : Block := { k with grps := 2, groups := k.groups ++ [(1, { group2 [] with wait := .sdecl 3 2 1 [0, 1] })], sets := [(3, { k := 2, declarers := [1] })] }

/-- A set of tag 3 of group 0 and as many others. -/
def inSet3 (ms : List Nat) (k : Block) : Block :=
  { k with groups := [(0, { group2 [] with inSet := some 3 }), (1, { group2 [] with inSet := some 3 }), (2, { group2 [] with inSet := some 3 })], sets := [(3, { k := 3, members := ms })] }

theorem wit_sets :
    (∃ (f : WA) (s : State) (tag k : Nat), Passes (.sdecl f) s ∧ declArgs s f = some (tag, k) ∧ declCheckWord s f = .pass ∧
      (s.blk s.cur.blk).marked = false ∧ (tget {} (s.blk s.cur.blk).sets tag).declarers.length + 1 ≠ k) ∧
    (∃ (f : WA) (s : State) (tag k : Nat), Passes (.sdecl f) s ∧ declArgs s f = some (tag, k) ∧ declCheckWord s f = .pass ∧
      (s.blk s.cur.blk).marked = false ∧ (tget {} (s.blk s.cur.blk).sets tag).declarers.length + 1 = k ∧
      ∃ j ∈ (tget {} (s.blk s.cur.blk).sets tag).declarers, j ≠ s.cur.j ∧ ∃ d ls, (s.grp s.cur.blk j).wait = .sdecl tag k d ls) ∧
    (∃ (f : WA) (s : State) (tag : Nat), Passes (.sleave f) s ∧ guardedGroups s f.pr.toNat = [0] ∧ (s.grp s.cur.blk 0).inSet = some tag ∧
      2 ≤ ((tget {} (s.blk s.cur.blk).sets tag).members.filter (· ≠ 0)).length) ∧
    (∃ (f : WA) (s : State) (tag : Nat), Passes (.sleave f) s ∧ guardedGroups s f.pr.toNat = [0] ∧ (s.grp s.cur.blk 0).inSet = some tag ∧
      ((tget {} (s.blk s.cur.blk).sets tag).members.filter (· ≠ 0)).length ≤ 1) ∧
    (∃ (f : WA) (s : State), Passes (.sinfo f) s ∧ guarded s f.pr.toNat ≠ [] ∧ (s.grp s.cur.blk 0).inSet = none) ∧
    (∃ (f : WA) (s : State) (tag : Nat), Passes (.sinfo f) s ∧ guarded s f.pr.toNat ≠ [] ∧ (s.grp s.cur.blk 0).inSet = some tag ∧
      ((tget {} (s.blk s.cur.blk).sets tag).members.map (fun j => 2 ^ j)).sum < 2 ^ 32) :=
  ⟨⟨wA 1 2 3 1, st [(2, 3), (3, 2)] id (fun k => { k with grps := 2, groups := k.groups ++ [(1, group2 [])] }), 3, 2, ⟨rfl, rfl⟩, by decide, by decide, rfl, by decide⟩,
    ⟨wA 1 2 3 1, st [(2, 3), (3, 2)] id half, 3, 2, ⟨rfl, rfl⟩, by decide, by decide, rfl, by decide, 1, by decide, by decide, _, _, rfl⟩,
    ⟨wA 0 0 0 1, st [] id (inSet3 [0, 1, 2]), 3, ⟨rfl, rfl⟩, by decide, rfl, by decide⟩,
    ⟨wA 0 0 0 1, st [] id (inSet3 [0, 1]), 3, ⟨rfl, rfl⟩, by decide, rfl, by decide⟩,
    ⟨wA 2 0 0, st [], ⟨rfl, rfl⟩, by decide, rfl⟩, wA 2 0 0, st [] id (inSet3 [0, 1, 2]), 3, ⟨rfl, rfl⟩, by decide, rfl, by decide⟩

theorem wit_barrier_generation :
    (∃ (b : Block) (n : Nat), (b.bar n).st = 1 ∧ (b.bar n).enga = (b.bar n).eng ∧
      ∀ j ∈ b.groupIds, ∀ l, l < 32 → (b.bar n).member.getLsbD (32 + j) = true → (b.bar n).member.getLsbD l = true →
        (j, l) ∈ (b.bar n).who ∨ ((b.grp j).th l).mode = .exited) ∧
    (∃ (b : Block) (n : Nat), (b.bar n).st ≠ 1) :=
  ⟨⟨{ groups := [(0, group2 [])], bars := [(15, { gen := 65535, st := 1, member := 0x1_0000_0003, arr := 2, who := [(0, 0), (0, 1)] })] }, 15, rfl, rfl,
    by decide⟩, {}, 0, by decide⟩

/-- Barrier 2 FILLING for lanes 0 and 1 of group 0, none arrived. -/
def filling (k : Block) : Block := { k with bars := [(2, { gen := 7, st := 1, member := 0x1_0000_0003 })] }

theorem wit_arrivals :
    (∃ (f : WA) (s : State), Passes (.barv f) s ∧ arrivalCheck s f = .pass ∧ s.cur.members.Nodup ∧ NoWaiters s ∧ guarded s f.pr.toNat ≠ []) ∧
    (∃ (f : WA) (s : State), Passes (.bsync f) s ∧ arrivalCheck s f = .pass ∧ syncScope s f = .pass ∧ s.cur.members.Nodup ∧
      (s.blk s.cur.blk).marked = false ∧ NoWaiters s ∧ guarded s f.pr.toNat ≠ []) := by
  have nw : NoWaiters (st [(4, 3), (5, 1), (6, 2)] id filling) := by
    rintro (_ | j) <;> rfl
  exact ⟨⟨wA 1 4 6, st [(4, 3), (5, 1), (6, 2)] id filling, ⟨rfl, rfl⟩, by decide, by decide, nw, by decide⟩,
    wA 1 4 6, st [(4, 3), (5, 1), (6, 2)] id filling, ⟨rfl, rfl⟩, by decide, by decide, by decide, rfl, nw, by decide⟩

theorem wit_barriers_set_up :
    (∃ (f : WA) (s : State) (m : Nat × Nat), Passes (.binit f) s ∧ lowest s f.pr.toNat = some m ∧
      (∀ k ∈ guarded s f.pr.toNat, (rdW s k f.a.toNat).toNat ≤ 15) ∧ (rdW s m f.b.toNat).toNat ≤ 255 ∧
      ((s.blk s.cur.blk).bar (rdW s m f.a.toNat).toNat).st = 1) ∧
    (∃ (f : WA) (s : State) (m : Nat × Nat), Passes (.binit f) s ∧ lowest s f.pr.toNat = some m ∧
      (∀ k ∈ guarded s f.pr.toNat, (rdW s k f.a.toNat).toNat ≤ 15) ∧ (rdW s m f.b.toNat).toNat ≤ 255 ∧
      ((s.blk s.cur.blk).bar (rdW s m f.a.toNat).toNat).st = 0) ∧
    (∃ (f : WA) (s : State) (m : Nat × Nat), Passes (.binit f) s ∧ lowest s f.pr.toNat = some m ∧
      (∀ k ∈ guarded s f.pr.toNat, (rdW s k f.a.toNat).toNat ≤ 15) ∧ (rdW s m f.b.toNat).toNat ≤ 255 ∧
      ((s.blk s.cur.blk).bar (rdW s m f.a.toNat).toNat).st = 2) ∧
    (∃ (f : WA) (s : State), Passes (.bwait f) s ∧ (∀ k ∈ guarded s f.pr.toNat, (rdW s k f.b.toNat).toNat ≤ 15) ∧ waitCheck s f = .pass ∧
      (s.blk s.cur.blk).marked = false ∧
      ∃ m ∈ guarded s f.pr.toNat, genPassed ((s.blk s.cur.blk).bar (rdW s m f.b.toNat).toNat).gen ((rdW s m f.a.toNat).toNat % 65536) = false) ∧
    (∃ (f : WA) (s : State) (m : Nat × Nat), Passes (.bgen f) s ∧ lowest s f.pr.toNat = some m ∧
      ∀ k ∈ guarded s f.pr.toNat, (rdW s k f.b.toNat).toNat ≤ 15) :=
  ⟨⟨wA 1 2 3, st [(2, 2), (3, 255)] id filling, (0, 0), ⟨rfl, rfl⟩, rfl, by decide, by decide, rfl⟩,
    ⟨wA 1 2 3, st [(2, 15), (3, 255)], (0, 0), ⟨rfl, rfl⟩, rfl, by decide, by decide, rfl⟩,
    ⟨wA 1 2 3, st [(2, 15)] id (fun k => { k with bars := [(15, { gen := 65535, st := 2, arr := 3 })] }), (0, 0), ⟨rfl, rfl⟩, rfl, by decide, by decide, rfl⟩,
    ⟨wA 0 1 2, st [(2, 15)], ⟨rfl, rfl⟩, by decide, by decide, rfl, by decide⟩,
    wA 2 0 4, st [(4, 15)], (0, 0), ⟨rfl, rfl⟩, rfl, by decide⟩

/-- A launch that holds channel 1, with its block. -/
def channelled (x : Ctx) : Ctx := { x with launches := [(0, { chan := some 1, feedsN := 2, feeds := [(1, { depth := 2 })] })] }
def launched (k : Block) : Block := { pads k with launch := some 0 }

theorem wit_bridle :
    (∃ (f : WA) (s : State), Passes (.redb f) s ∧ (channelOf s s.cur.blk).isSome = true ∧ contributionCheck s = .pass ∧
      (s.blk s.cur.blk).marked = false) ∧
    (∃ (f : WA) (s : State) (m : Nat × Nat), Passes (.redw f) s ∧ (channelOf s s.cur.blk).isSome = true ∧ lowest s f.pr.toNat = some m ∧
      redwCheck s f = .pass ∧ contributionCheck s = .pass ∧ (s.blk s.cur.blk).marked = false ∧ s.cur.verdict = 0) ∧
    (∃ (f : WA) (s : State) (n : Nat), Passes (.redq f) s ∧ channelOf s s.cur.blk = some n) ∧
    (∃ (f : WA) (s : State), Checked (.redb f) s ∧ s.cur.verdict = 0 ∧ channelOf s s.cur.blk = none) :=
  ⟨⟨wA 1 0 0 3, st [] id launched channelled, ⟨rfl, rfl⟩, rfl, by decide, rfl⟩,
    ⟨wA 1 2 3 3, st [(2, 0xFF80), (3, 0x0F)] id launched channelled, (0, 0), ⟨rfl, rfl⟩, rfl, rfl, by decide, by decide, rfl, rfl⟩,
    ⟨wA 2 0 0, st [] id launched channelled, 1, ⟨rfl, rfl⟩, rfl⟩, wA 1 0 0 3, st [], ⟨⟨rfl, rfl⟩, rfl⟩, rfl, rfl⟩

theorem wit_market_words :
    (∃ (f : WA) (s : State) (m : Nat × Nat), Passes (.bidset f) s ∧ lowest s f.pr.toNat = some m ∧ 4 < (rdW s m f.b.toNat).toNat) ∧
    (∃ (f : WA) (s : State) (m : Nat × Nat), Passes (.bidset f) s ∧ lowest s f.pr.toNat = some m ∧ (rdW s m f.b.toNat).toNat ≤ 4 ∧
      classUnits (rdW s m f.b.toNat).toNat < (rdX s m f.a.toNat).toNat / 2 ^ 32 % 2 ^ 12) ∧
    (∃ (f : WA) (s : State) (m : Nat × Nat), Passes (.bidset f) s ∧ lowest s f.pr.toNat = some m ∧ (rdW s m f.b.toNat).toNat ≤ 4 ∧
      (rdX s m f.a.toNat).toNat < 2 ^ 58 ∧ (rdX s m f.a.toNat).toNat / 2 ^ 44 = 0 ∧
      (rdX s m f.a.toNat).toNat / 2 ^ 32 % 2 ^ 12 ≤ classUnits (rdW s m f.b.toNat).toNat) ∧
    (∃ (f : WA) (s : State) (m : Nat × Nat), lowest s f.pr.toNat = some m ∧ Passes (.price f) s) ∧
    (∃ (f : WA) (s : State) (m : Nat × Nat), lowest s f.pr.toNat = some m ∧ Passes (.bidget f) s) :=
  ⟨⟨wA 1 2 4, st [(4, 5)], (0, 0), ⟨rfl, rfl⟩, rfl, by decide⟩, ⟨wA 1 2 4, st [(3, 65)], (0, 0), ⟨rfl, rfl⟩, rfl, by decide, by decide⟩,
    ⟨wA 1 2 4, st [(2, 9), (3, 64)], (0, 0), ⟨rfl, rfl⟩, rfl, by decide, by decide, by decide, by decide⟩,
    ⟨wA 2 1 0, st [(1, 4)], (0, 0), rfl, rfl, rfl⟩, wA 2 1 0, st [(1, 4)], (0, 0), rfl, rfl, rfl⟩

theorem wit_feeds :
    (∃ (f : WA) (s : State) (m : Nat × Nat) (c n : Nat), Passes (.wpop f) s ∧ lowest s f.pr.toNat = some m ∧ feedLaunch s = some (c, n) ∧
      (rdW s m f.a.toNat).toNat < ((s.ctx c).launch n).feedsN ∧ (s.feed c n (rdW s m f.a.toNat).toNat).recs = []) ∧
    (∃ (f : WA) (s : State) (m : Nat × Nat) (c n : Nat), Passes (.wpopSleep f) s ∧ lowest s f.pr.toNat = some m ∧ feedLaunch s = some (c, n) ∧
      (rdW s m f.a.toNat).toNat < ((s.ctx c).launch n).feedsN ∧ (s.blk s.cur.blk).marked = false) ∧
    (∃ (f : WA) (s : State) (m : Nat × Nat) (c n : Nat), Passes (.wpush f) s ∧ lowest s f.pr.toNat = some m ∧ feedLaunch s = some (c, n) ∧
      (rdW s m f.a.toNat).toNat < ((s.ctx c).launch n).feedsN ∧ reportCheck s f.pr.toNat Point.arrival arriving 9 = .pass) ∧
    (∃ (f : WA) (s : State) (m : Nat × Nat) (c n : Nat), Passes (.wlen f) s ∧ lowest s f.pr.toNat = some m ∧ feedLaunch s = some (c, n) ∧
      (rdW s m f.a.toNat).toNat < ((s.ctx c).launch n).feedsN) :=
  ⟨⟨wA 1 2 0 1, st [(2, 1)] id launched channelled, (0, 0), 0, 0, ⟨rfl, rfl⟩, rfl, rfl, by decide, rfl⟩,
    ⟨wA 1 2 0 1, st [(2, 1)] id launched channelled, (0, 0), 0, 0, ⟨rfl, rfl⟩, rfl, rfl, by decide, rfl⟩,
    ⟨wA 1 2 0 1, st [(2, 1)] id launched channelled, (0, 0), 0, 0, ⟨rfl, rfl⟩, rfl, rfl, by decide, rfl⟩,
    wA 1 2 0, st [(2, 1)] id launched channelled, (0, 0), 0, 0, ⟨rfl, rfl⟩, rfl, rfl, by decide⟩

/-- A block with four tiles. -/
def tiled (k : Block) : Block := { pads k with acc := 4 }

theorem wit_tile_words :
    (∃ (i : Instr) (f : WA) (op : TileOp) (s : State) (m : Nat × Nat), lowest s f.pr.toNat = some m ∧ tileCommand s m i = some (f, .pass, op) ∧
      Passes i s ∧ (s.blk s.cur.blk).err = false ∧ (s.core (s.blkCore s.cur.blk)).tileQ = []) ∧
    (∃ (i : Instr) (f : WA) (op : TileOp) (s : State) (m : Nat × Nat), lowest s f.pr.toNat = some m ∧ tileCommand s m i = some (f, .pass, op) ∧
      Passes i s ∧ (s.blk s.cur.blk).err = true) ∧
    (∃ (f : WA) (s : State), Passes (.tstat f) s ∧ f.a.toNat < (s.blk s.cur.blk).acc) ∧
    (∃ (f : WA) (s : State) (m : Nat × Nat), Passes (.twait f) s ∧ lowest s f.pr.toNat = some m ∧
      ticketDone (s.blk s.cur.blk) (rdW s m f.a.toNat).toNat = true) :=
  ⟨⟨.tzero (wA 3 0 0), wA 3 0 0, _, st [] id tiled, (0, 0), rfl, rfl, ⟨rfl, rfl⟩, rfl, rfl⟩,
    ⟨.tcmp (wA 2 3 0), wA 2 3 0, _, st [] id (fun k => { tiled k with err := true }), (0, 0), rfl, rfl, ⟨rfl, rfl⟩, rfl⟩,
    ⟨wA 2 3 0, st [] id tiled, ⟨rfl, rfl⟩, by decide⟩,
    wA 0 2 0, st [(2, 0xFFFF_FFFF)] id tiled, (0, 0), ⟨rfl, rfl⟩, rfl, by decide⟩

/-- An issue of one thread alone. -/
def alone (s : State) : State := { s with cur := { s.cur with members := [(0, 0)] } }

/-- The lowest memory mapped onto itself, with bytes at an address. -/
def paged (a : Nat) (bs : List Byte) (s : State) (x : Ctx → Ctx := id) : State :=
  { s with src := 768, mem := memWrite (fetchImage [] 0 0) a bs, vfs := [(0, { en := true, idcnt := 1, hroot := 0x40000 })]
           ctxs := [(0, x { st := .running, groot := 0x60000 })] }

/-- A global load of lane 0 alone whose line lies on this device and in no cache. -/
theorem wit_load_asks : ∃ (sz : BitVec 3) (f : WM) (s : State) (m : Nat × Nat) (pa : Nat) (e : TlbEntry), Passes (.ldG sz f) s ∧
    loadCheck s 0 (loadSize sz) f = .pass ∧ m ∈ guarded s f.pr.toNat ∧
    translate s (s.blk s.cur.blk).ctx (vaOf (laneAddress s m 0 f.a.toNat (loadBytes sz) f.off)) aLOAD (s.blk s.cur.blk).priv = .ok s.devNo pa e ∧
    pa.testBit 39 = false ∧ inL1 s (s.blkCore s.cur.blk) (vaOf (laneAddress s m 0 f.a.toNat (loadBytes sz) f.off)) pa = false := by
  have t : translate (paged 0 [] (st [(2, 0x3000)])) 0 0x3000 aLOAD 0 = .ok 0 0x3000 ⟨0, 0, 0x3000, 0x1F, 3, 0x3000, 0xF, 3⟩ := by decide +kernel
  exact ⟨4, wM 1 2 0, paged 0 [] (st [(2, 0x3000)]), (0, 0), 0x3000, _, ⟨rfl, rfl⟩, by decide, by decide, t, by decide, by decide⟩

/-- One thread whose x4 names a layout record: 4 bytes from scratchpad offset 0x100 to 0x200. -/
def copying : State :=
  paged 0x3000 (List.replicate 36 0 ++ natLe 4 4 ++ List.replicate 8 0 ++ natLe 8 0xFE00_0000_0000_0200 ++ natLe 8 0xFE00_0000_0000_0100) (alone (st [(4, 0x3000)] id pads))

theorem wit_engine_words :
    (∃ (i : Instr) (kind : EngKind) (q : Nat) (f : WA) (s : State) (m : Nat × Nat), engineForm i = some (kind, q, f) ∧ Passes i s ∧
      engineCheck s f kind q = .pass ∧ guarded s f.pr.toNat = [m] ∧ (s.core (s.blkCore s.cur.blk)).entering = [] ∧
      (s.engQ (s.blkCore s.cur.blk) q).length < engDepth q) ∧
    (∃ (f : WI) (s : State), Passes (.qfence f) s ∧ guarded s f.pr.toNat ≠ [] ∧
      ∀ q ∈ fenceQueues f.k.toNat, (s.engQ (s.blkCore s.cur.blk) q).length < engDepth q) ∧
    (∃ (f : WA) (s : State), Passes (.cseal f) s ∧ s.cur.members.Nodup ∧ ∀ m ∈ guarded s f.pr.toNat, (s.thr s.cur.blk m.1 m.2).sealed.length < 16) ∧
    (∃ (f : WI) (s : State), Passes (.cwait f) s ∧ dueList s f.pr.toNat Point.cwait = [] ∧
      ∀ m ∈ guarded s f.pr.toNat, (s.thr s.cur.blk m.1 m.2).sealed.length ≤ f.k.toNat) ∧
    (∃ (f : WI) (s : State), Passes (.cwait f) s ∧ dueList s f.pr.toNat Point.cwait = [] ∧ s.cur.go = false ∧
      ∃ m ∈ guarded s f.pr.toNat, f.k.toNat < (s.thr s.cur.blk m.1 m.2).sealed.length) ∧
    (∃ (f : WA) (s : State), Passes (.sleepP f) s ∧ dueList s f.pr.toNat Point.cwait = [] ∧ (s.blk s.cur.blk).marked = false ∧
      namedBatches s f 0 = []) ∧
    (∃ (f : WA) (s : State), Passes (.leader f) s) :=
  ⟨⟨.cpy 3 (wA 2 4 6), .cpy, 3, wA 2 4 6, copying, (0, 0), rfl, ⟨rfl, rfl⟩, by decide +kernel, rfl, rfl, by decide⟩,
    ⟨wI 0 0 3, st [], ⟨rfl, rfl⟩, by decide, by decide⟩, ⟨wA 1 0 0, st [], ⟨rfl, rfl⟩, by decide, by decide⟩,
    ⟨wI 0 0 0, st [], ⟨rfl, rfl⟩, by decide, by decide⟩,
    ⟨wI 0 0 0, st [] (fun g => g.updTh 0 (fun t => { t with sealed := [⟨0, 1, 0⟩] })), ⟨rfl, rfl⟩, by decide, rfl, by decide⟩,
    ⟨wA 0 1 0, st [], ⟨rfl, rfl⟩, by decide, rfl, by decide⟩, wA 1 0 0, st [], rfl, rfl⟩

/-- Device 3 is reached by port 5. -/
def linked (s : State) : State := { s with routes := [(3, 32#64)], ports := [(5, { st := 2, valid := true, dev := 3 })] }

theorem wit_messages :
    (∃ (f : WA) (s : State), Passes (.amsg f) s ∧ amsgCheck s f = .pass ∧ s.cur.members.Nodup ∧
      ∀ m ∈ guarded s f.pr.toNat, (rdX s m f.a.toNat).toNat % 2 ^ 10 = s.devNo) ∧
    (∃ (f : WA) (s : State), Passes (.amsg f) s ∧ amsgCheck s f = .pass ∧ s.cur.members.Nodup ∧
      ∀ m ∈ guarded s f.pr.toNat, (rdX s m f.a.toNat).toNat % 2 ^ 10 ≠ s.devNo ∧ usablePorts s ((rdX s m f.a.toNat).toNat % 2 ^ 10) ≠ []) ∧
    (∃ (f : WA) (s : State), Passes (.amsg f) s ∧ amsgCheck s f = .pass ∧ s.cur.members.Nodup ∧
      ∀ m ∈ guarded s f.pr.toNat, (rdX s m f.a.toNat).toNat % 2 ^ 10 ≠ s.devNo ∧ usablePorts s ((rdX s m f.a.toNat).toNat % 2 ^ 10) = []) ∧
    (∃ (f : WA) (s : State), Passes (.ampoll f) s) ∧
    (∃ (f : WA) (s : State) (m : Nat × Nat) (sender : List Nat), Passes (.amend f) s ∧ lowest s f.pr.toNat = some m ∧
      (s.blk s.cur.blk).sender = some sender ∧ amendCheck s f = .pass ∧ (s.grp s.cur.blk m.1).done = false ∧ sender.getD 0 0 = s.devNo) :=
  ⟨⟨wA 2 4 6, st [(4, 0x3FFF_FC00), (6, 0xFF00), (7, 256)] id pads, ⟨rfl, rfl⟩, by decide, by decide, by decide⟩,
    ⟨wA 2 4 6, linked (st [(4, 0x3FFF_FC03), (6, 0xFF00), (7, 256)] id pads), ⟨rfl, rfl⟩, by decide, by decide, by decide⟩,
    ⟨wA 2 4 6, st [(4, 0x3FFF_FC03), (6, 0xFF00), (7, 256)] id pads, ⟨rfl, rfl⟩, by decide, by decide, by decide⟩, ⟨wA 2 4 0, st [], rfl, rfl⟩,
    wA 0 5 0 1, st [] id (fun k => { k with sender := some [0, 1, 2, 3, 4, 5] }), (0, 0), _, ⟨rfl, rfl⟩, rfl, rfl, by decide, rfl, rfl⟩

theorem wit_privileged : ∃ (i : Instr) (s : State), illStatic i = false ∧ s.cur.go = false ∧ (s.grp s.cur.blk s.cur.j).priv < (leastPrivilege i).1 :=
  ⟨.mts (wS 2 0x01A), st [] (fun g => { g with priv := 1 }), by decide, rfl, by decide⟩

theorem wit_system_registers :
    (∃ (f : WS) (s : State), Passes (.mfs f) s ∧ guarded s f.pr.toNat ≠ [] ∧ sregWide f.sreg.toNat = true) ∧
    (∃ (f : WS) (s : State), Passes (.mfs f) s ∧ guarded s f.pr.toNat ≠ [] ∧ sregWide f.sreg.toNat = false) ∧
    (∃ (f : WS) (s : State), Passes (.mts f) s ∧ f.sreg = 0x043) ∧
    (∃ (f : WS) (s : State), Passes (.mts f) s ∧ f.sreg ≠ 0x043 ∧ lowest s f.pr.toNat = none) ∧
    (∃ (f : WS) (s : State) (m : Nat × Nat), Passes (.mts f) s ∧ f.sreg = 0x010 ∧ lowest s f.pr.toNat = some m) ∧
    (∃ (f : WS) (s : State) (m : Nat × Nat), Passes (.mts f) s ∧ f.sreg = 0x020 ∧ lowest s f.pr.toNat = some m ∧ bidBad 0 (rdX s m f.d.toNat)) ∧
    (∃ (f : WS) (s : State) (m : Nat × Nat), Passes (.mts f) s ∧ f.sreg = 0x020 ∧ lowest s f.pr.toNat = some m ∧ ¬bidBad 0 (rdX s m f.d.toNat)) ∧
    (∃ (f : WS) (s : State) (m : Nat × Nat), Passes (.mts f) s ∧ f.sreg = 0x005 ∧ lowest s f.pr.toNat = some m) ∧
    (∃ (f : WS) (s : State) (m : Nat × Nat), Passes (.mts f) s ∧ f.sreg = 0x10A ∧ lowest s f.pr.toNat = some m ∧
      (rdW s m f.d.toNat).getLsbD 0 = true) :=
  ⟨⟨wS 2 0x043, st [], ⟨rfl, rfl⟩, by decide, rfl⟩, ⟨wS 2 0x046, st [], ⟨rfl, rfl⟩, by decide, rfl⟩, ⟨wS 2 0x043, st [], ⟨rfl, rfl⟩, rfl⟩,
    ⟨⟨false, false, 0, 0, 2, 0x010⟩, st [], ⟨rfl, rfl⟩, by decide, rfl⟩, ⟨wS 2 0x010, st [], (0, 0), ⟨rfl, rfl⟩, rfl, rfl⟩,
    ⟨wS 2 0x020, st [(3, 0x0400_0000)], (0, 0), ⟨rfl, rfl⟩, rfl, rfl, by unfold bidBad; decide⟩,
    ⟨wS 2 0x020, st [(2, 7), (3, 1)], (0, 0), ⟨rfl, rfl⟩, rfl, rfl, by unfold bidBad; decide⟩,
    ⟨wS 2 0x005, st [], (0, 0), ⟨rfl, rfl⟩, rfl, rfl⟩,
    wS 2 0x10A, st [(2, 1)] (fun g => { g with priv := 1 }), (0, 0), ⟨rfl, rfl⟩, rfl, rfl, by decide⟩

/-- A vector table at 0x2000 whose entry for TRAP is 0x100. -/
def vectors (s : State) : State := paged 0x20C0 (natLe 8 0x100) s (fun x => { x with tvec := 0x2001 })

/-- A trap of lane 1 with cause TRAP, due at group 0 of block 1. -/
def due (g : Group) : Group := { g with trap := some { cause := 0x18, prec := true, sc := 0, det := 7, arg := 0, repi := 0, lanes := [(1, 0x40, 0x44, 0, 0)] } }

theorem wit_traps :
    (∃ (f : WK) (s : State) (pc : Nat), Checked (.trap f) s ∧ guarded s f.pr.toNat ≠ [] ∧ (∀ m ∈ guarded s f.pr.toNat, m.1 = s.cur.j) ∧
      s.cur.members.Nodup ∧ (s.grp s.cur.blk s.cur.j).hm = false ∧ readVector s s.curCtx (s.grp s.cur.blk s.cur.j).priv 0x18 = .handler pc) ∧
    (∃ (f : WK) (s : State), Passes (.trap f) s ∧ guarded s f.pr.toNat = []) ∧
    (∃ (s : State) (p : Pending) (pc : Nat), (s.blk s.arg.x).core.isSome = true ∧ (s.grp s.arg.x s.arg.y).trap = some p ∧ (p.lanes.map Prod.fst).Nodup ∧
      readVector s (s.blk s.arg.x).ctx (s.grp s.arg.x s.arg.y).priv p.cause = .handler pc) ∧
    (∃ (s : State) (p : Pending) (off : Bool), (s.blk s.arg.x).core.isSome = true ∧ (s.grp s.arg.x s.arg.y).trap = some p ∧ (s.grp s.arg.x s.arg.y).done = false ∧
      readVector s (s.blk s.arg.x).ctx (s.grp s.arg.x s.arg.y).priv p.cause = .unhandled off) ∧
    (∃ (f : WA) (s : State), Passes (.rett f) s ∧ rettCheck s = .pass ∧ (s.grp s.cur.blk s.cur.j).hm = true ∧ (s.grp s.cur.blk s.cur.j).done = false ∧
      (s.grp s.cur.blk s.cur.j).tcause.toNat % 2 ^ 8 ≠ 0x14) ∧
    (∃ (f : WA) (s : State), Passes (.rett f) s ∧ rettCheck s = .pass ∧ (s.grp s.cur.blk s.cur.j).hm = true ∧ (s.grp s.cur.blk s.cur.j).done = false ∧
      (s.grp s.cur.blk s.cur.j).tcause.toNat % 2 ^ 8 = 0x14) ∧
    (∃ (f : WA) (s : State), Checked (.rett f) s ∧ (s.srcGrp s.cur.j).hm = false) :=
  ⟨⟨wK 7, vectors (st []), 0x100, ⟨⟨rfl, rfl⟩, rfl⟩, by decide, by decide, by decide, rfl, by decide⟩,
    ⟨⟨false, false, 0, 0, 7⟩, st [], ⟨rfl, rfl⟩, by decide⟩,
    ⟨on { x := 1, y := 0 } (vectors (st [] due)), _, 0x100, rfl, rfl, by decide, by decide⟩,
    ⟨on { x := 1, y := 0 } (st [] due), _, _, rfl, rfl, rfl, rfl⟩,
    ⟨wA 0 0 0 1, st [] (fun g => { g with hm := true }), ⟨rfl, rfl⟩, by decide, rfl, rfl, by decide⟩,
    ⟨wA 0 0 0 1, st [] (fun g => { g with hm := true, tcause := 0x8000_0014 }), ⟨rfl, rfl⟩, by decide, rfl, rfl, by decide⟩,
    wA 0 0 0 1, st [], ⟨⟨rfl, rfl⟩, rfl⟩, rfl⟩

theorem leNat_zeros (k : Nat) : leNat (List.replicate k 0) = 0 := by
  induction k with
  | zero => rfl
  | succ k ih => rw [List.replicate_succ, leNat, ih]; rfl

theorem wit_decode_tables :
    (∃ (f : WI) (s : State), Passes (.dtsel f) s ∧ f.k = 0) ∧
    (∃ (f : WI) (s : State), Passes (.dtsel f) s ∧ thas (s.ctx s.curCtx).slots f.k.toNat = true) ∧
    (∃ (f : WI) (s : State) (m : Nat × Nat) (bs : List Byte), Passes (.dtload f) s ∧ 1 ≤ f.k.toNat ∧ f.k.toNat ≤ 4 ∧ lowest s f.pr.toNat = some m ∧
      (rdX s m f.a.toNat).toNat % 2048 = 0 ∧ canonicalAddr (rdX s m f.a.toNat).toNat = true ∧ draining (s.srcGrp m.1) = false ∧
      vread s s.curCtx (vaOf (rdX s m f.a.toNat).toNat) 2048 aLOAD (s.blk s.cur.blk).priv = .done bs ∧
      ∀ n, n < 1024 → entryOk (leNat ((bs.drop (2 * n)).take 2)) = true) ∧
    (∃ (f : WS) (s : State), Passes (.mcfgr f) s) ∧ (∃ (f : WS) (s : State), Passes (.mcfgw f) s) :=
  ⟨⟨wI 0 0 0, st [], ⟨rfl, rfl⟩, rfl⟩, ⟨wI 0 0 4, st [] id id (fun x => { x with slots := [(4, [])] }), ⟨rfl, rfl⟩, by decide⟩,
    ⟨wI 0 2 4, paged 0 [] (st [(2, 0x3000)] (fun g => { g with priv := 1 })), (0, 0), List.replicate 2048 0, ⟨rfl, rfl⟩, by decide, by decide, rfl, by decide,
      by decide, rfl, by decide +kernel, fun n _ => by rw [List.drop_replicate, List.take_replicate, leNat_zeros]; rfl⟩,
    ⟨wS 2 1, st [] (fun g => { g with priv := 3 }), rfl, rfl⟩, wS 2 1, st [] (fun g => { g with priv := 3 }), rfl, rfl⟩

theorem wit_translation_words :
    (∃ (f : WA) (s : State) (m : Nat × Nat), Passes (.tlbi f) s ∧ lowest s f.pr.toNat = some m ∧ tlbiCheck s f = .pass) ∧
    (∃ (f : WA) (s : State) (m : Nat × Nat), Passes (.icinv f) s ∧ lowest s f.pr.toNat = some m ∧ canonicalAddr (rdX s m f.a.toNat).toNat = true) ∧
    (∃ (f : WA) (s : State), Passes (.probe f) s ∧ ∀ m ∈ guarded s f.pr.toNat, (rdW s m f.b.toNat).toNat ≤ 2 ∧ probeLacks s f = none) :=
  ⟨⟨wA 0 2 4, st [] (fun g => { g with priv := 2 }), (0, 0), ⟨rfl, rfl⟩, rfl, by decide⟩, ⟨wA 0 2 0, st [], (0, 0), ⟨rfl, rfl⟩, rfl, by decide⟩,
    wA 6 2 4, st [(4, 2)], ⟨rfl, rfl⟩, fun m h => ⟨by revert m; decide, by decide⟩⟩

/-- A Work Record table of 64 entries at 0x3000 whose entry 3 has these flags; x2 names entry 3. -/
def cancelling (flags : Nat) : State := paged 0x3078 [BitVec.ofNat 8 flags] (st [(2, 3)]) (fun x => { x with wrtb := 0x3000 })

/-- An entry that can be read and of which something holds. -/
theorem entryRead (r : SlotRes) (p : List Byte → Bool) (h : (match r with | .done bs _ => p bs | _ => false) = true) :
    ∃ bs u, r = .done bs u ∧ p bs = true := by
  cases r <;> simp_all

/-- What KCANC asks of the issue. -/
def CancelPasses (hard : Bool) (lv : BitVec 2) (f : WA) (s : State) (m : Nat × Nat) : Prop :=
  Passes (.kcanc hard lv f) s ∧ lowest s f.pr.toNat = some m ∧ reportCheck s f.pr.toNat Point.arrival arriving 9 = .pass

theorem wit_cancel_words :
    (∃ (f : WA) (s : State), Passes (.kchk f) s) ∧
    (∃ (f : WA) (s : State) (m : Nat × Nat), CancelPasses false 3 f s m ∧ (rdW s m f.a.toNat).toNat = 0xFFFF ∧
      ownNode (s.ctx s.curCtx) (s.blk s.cur.blk).launch 3 = none) ∧
    (∃ (f : WA) (s : State) (m : Nat × Nat), CancelPasses true 0 f s m ∧
      2 ^ (min ((s.ctx s.curCtx).wrtb.toNat % 16) 10 + 6) ≤ (rdW s m f.a.toNat).toNat ∧ (rdW s m f.a.toNat).toNat ≠ 0xFFFF) ∧
    (∃ (f : WA) (s : State) (m : Nat × Nat), CancelPasses true 0 f s m ∧
      (rdW s m f.a.toNat).toNat < 2 ^ (min ((s.ctx s.curCtx).wrtb.toNat % 16) 10 + 6) ∧ readEntry s s.curCtx (rdW s m f.a.toNat).toNat = .fail) ∧
    (∃ (f : WA) (s u : State) (m : Nat × Nat) (bs : List Byte), CancelPasses true 0 f s m ∧
      (rdW s m f.a.toNat).toNat < 2 ^ (min ((s.ctx s.curCtx).wrtb.toNat % 16) 10 + 6) ∧ readEntry s s.curCtx (rdW s m f.a.toNat).toNat = .done bs u ∧
      recBits bs 193 192 ≠ 1) ∧
    (∃ (f : WA) (s u : State) (m : Nat × Nat) (bs : List Byte), CancelPasses true 0 f s m ∧
      (rdW s m f.a.toNat).toNat < 2 ^ (min ((s.ctx s.curCtx).wrtb.toNat % 16) 10 + 6) ∧ readEntry s s.curCtx (rdW s m f.a.toNat).toNat = .done bs u ∧
      recBits bs 193 192 = 1 ∧ recBits bs 199 198 ≠ 0) ∧
    (∃ (f : WA) (s u : State) (m : Nat × Nat) (bs : List Byte), CancelPasses true 2 f s m ∧
      (rdW s m f.a.toNat).toNat < 2 ^ (min ((s.ctx s.curCtx).wrtb.toNat % 16) 10 + 6) ∧ readEntry s s.curCtx (rdW s m f.a.toNat).toNat = .done bs u ∧
      recBits bs 193 192 = 1 ∧ recBits bs 199 198 = 2) ∧
    (∃ (f : WA) (s u : State) (m : Nat × Nat) (bs : List Byte), CancelPasses true 0 f s m ∧ thas (s.ctx s.curCtx).launches (rdW s m f.a.toNat).toNat = true ∧
      (rdW s m f.a.toNat).toNat < 2 ^ (min ((s.ctx s.curCtx).wrtb.toNat % 16) 10 + 6) ∧ readEntry s s.curCtx (rdW s m f.a.toNat).toNat = .done bs u ∧
      recBits bs 193 192 = 1 ∧ recBits bs 199 198 = 0) := by
  refine ⟨⟨wA 1 0 0, st [], rfl, rfl⟩, ⟨wA 1 2 0, st [(2, 0xFFFF)], (0, 0), ⟨⟨rfl, rfl⟩, rfl, rfl⟩, rfl, rfl⟩,
    ⟨wA 1 2 0, st [(2, 64)], (0, 0), ⟨⟨rfl, rfl⟩, rfl, rfl⟩, by decide, by decide⟩,
    ⟨wA 1 2 0, st [(2, 3)], (0, 0), ⟨⟨rfl, rfl⟩, rfl, rfl⟩, by decide, by decide +kernel⟩, ?_, ?_, ?_, ?_⟩
  · obtain ⟨bs, u, h, p⟩ := entryRead (readEntry (cancelling 0) 0 3) (fun bs => decide (recBits bs 193 192 ≠ 1)) (by decide +kernel)
    exact ⟨wA 1 2 0, cancelling 0, u, (0, 0), bs, ⟨⟨rfl, rfl⟩, rfl, rfl⟩, by decide, h, of_decide_eq_true p⟩
  · obtain ⟨bs, u, h, p⟩ := entryRead (readEntry (cancelling 129) 0 3) (fun bs => decide (recBits bs 193 192 = 1 ∧ recBits bs 199 198 ≠ 0)) (by decide +kernel)
    exact ⟨wA 1 2 0, cancelling 129, u, (0, 0), bs, ⟨⟨rfl, rfl⟩, rfl, rfl⟩, by decide, h, of_decide_eq_true p⟩
  · obtain ⟨bs, u, h, p⟩ := entryRead (readEntry (cancelling 129) 0 3) (fun bs => decide (recBits bs 193 192 = 1 ∧ recBits bs 199 198 = 2)) (by decide +kernel)
    exact ⟨wA 1 2 0, cancelling 129, u, (0, 0), bs, ⟨⟨rfl, rfl⟩, rfl, rfl⟩, by decide, h, of_decide_eq_true p⟩
  · obtain ⟨bs, u, h, p⟩ := entryRead (readEntry (st [] id id channelled) 0 0) (fun bs => decide (recBits bs 193 192 = 1 ∧ recBits bs 199 198 = 0)) (by decide +kernel)
    exact ⟨wA 1 2 0, st [] id id channelled, u, (0, 0), bs, ⟨⟨rfl, rfl⟩, rfl, rfl⟩, by decide, by decide, h, of_decide_eq_true p⟩

/-! ### Witnesses: events -/

/-- The queue of the first group. -/
def queued (q : List SqEntry) (g : Group) : Group := { g with sq := q }

/-- A store of 4 bytes of one lane at address 0x3000. -/
def oneStore : SqEntry := { id := 3, kind := .store, seq := 0, accs := [{ lane := 1, addr := 0x3000, lo := 0xFF }] }

/-- A result that is due at lane 1. -/
def oneResult (a : Acc) (kd : PendKind) : Pend := { id := 3, kind := kd, seq := 0, d := 2, size := 2, signed := true, accs := [a] }

theorem wit_memory_store :
    (∃ (s : State) (e : SqEntry) (a : Acc) (q : List SqEntry) (pa : Nat) (x : TlbEntry), s.memWf = true ∧ (s.blk s.arg.x).core.isSome = true ∧
      (s.grp s.arg.x s.arg.y).sq = e :: q ∧ (s.grp s.arg.x s.arg.y).pend = [] ∧ e.kind = .store ∧ e.fault = none ∧ e.sent = false ∧
      mateStores (s.blk s.arg.x) s.arg.y e = false ∧ e.accs = [a] ∧ a.st ≠ 1 ∧ a.sp = 0 ∧
      translate s (s.blk s.arg.x).ctx (vaOf a.addr) aSTORE (s.blk s.arg.x).priv = .ok s.devNo pa x ∧ pa.testBit 39 = false ∧ s.frr = []) ∧
    (∃ (s : State) (e : SqEntry) (a : Acc) (q : List SqEntry) (syn det : Nat), (s.blk s.arg.x).core.isSome = true ∧
      (s.grp s.arg.x s.arg.y).sq = e :: q ∧ (s.grp s.arg.x s.arg.y).pend = [] ∧ e.kind = .store ∧ e.fault = none ∧ e.sent = false ∧
      mateStores (s.blk s.arg.x) s.arg.y e = false ∧ e.accs = [a] ∧ a.st ≠ 1 ∧ laneProbe s s.arg.x a.sp a.addr e.size aSTORE = .fail syn det ∧ det ≠ 0x1F) :=
  ⟨⟨on { x := 1 } (paged 0x3000 [] (st [] (queued [oneStore]))), oneStore, _, [], 0x3000, _, by decide, rfl, rfl, rfl, rfl, rfl, rfl, rfl, rfl,
    by decide, rfl, rfl, by decide, rfl⟩,
   ⟨on { x := 1 } (st [] (queued [oneStore])), oneStore, _, [], _, _, rfl, rfl, rfl, rfl, rfl, rfl, rfl, rfl, by decide, rfl, by decide⟩⟩

/-- No later group of the block has a result of the issue. -/
def NoMates (s : State) : Prop := ∀ i, s.arg.y < i → ∀ q ∈ (s.grp s.arg.x i).pend, q.iss = 0

theorem noMates {s : State} {g : Group} (h : (s.blk s.arg.x).groups = [(s.arg.y, g)]) : NoMates s := by
  intro i hi q hq
  simp [State.grp, Block.grp, tget, h, tfind, show s.arg.y ≠ i by omega] at hq

theorem wit_memory_results :
    (∃ (s : State) (p : Pend) (a : Acc) (bs : List Byte), (s.blk s.arg.x).core.isSome = true ∧ (s.grp s.arg.x s.arg.y).pend = [p] ∧
      p.id = s.arg.z ∧ p.accs = [a] ∧ a.lane = s.arg.u ∧ a.st ≠ 1 ∧ a.st ≠ 2 ∧ a.st ≠ 3 ∧ NoMates s ∧ p.cancel = [] ∧ p.kind = .load ∧ a.cap = true ∧
      bs = a.val) ∧
    (∃ (s : State) (p : Pend) (a : Acc), (s.blk s.arg.x).core.isSome = true ∧ (s.grp s.arg.x s.arg.y).pend = [p] ∧ p.id = s.arg.z ∧
      p.accs = [a] ∧ a.lane = s.arg.u ∧ a.st ≠ 1 ∧ a.st ≠ 2 ∧ a.st ≠ 3 ∧ NoMates s ∧ p.cancel = [] ∧ p.kind = .load ∧ a.cap = false ∧ a.sp = 1 ∧
      invalidLine (s.blk s.arg.x) (a.addr / 128) = none) ∧
    (∃ (s : State) (p : Pend) (a : Acc), (s.blk s.arg.x).core.isSome = true ∧ (s.grp s.arg.x s.arg.y).pend = [p] ∧ p.id = s.arg.z ∧
      p.accs = [a] ∧ a.lane = s.arg.u ∧ a.st ≠ 1 ∧ a.st ≠ 2 ∧ a.st ≠ 3 ∧ NoMates s ∧ p.cancel = [] ∧ p.kind = .load ∧ a.cap = false ∧ a.sp = 2) :=
  ⟨⟨on { x := 1, z := 3, u := 1 } (st [] (fun g => { g with pend := [oneResult { lane := 1, addr := 0, cap := true, val := [0x80, 0xFF] } .load] })),
      _, _, _, rfl, rfl, rfl, rfl, rfl, by decide, by decide, by decide, noMates rfl, rfl, rfl, rfl, rfl⟩,
    ⟨on { x := 1, z := 3, u := 1 } (st [] (fun g => { g with pend := [oneResult { lane := 1, addr := 0xFFFE, sp := 1 } .load] }) pads),
      _, _, rfl, rfl, rfl, rfl, rfl, by decide, by decide, by decide, noMates rfl, rfl, rfl, rfl, rfl, rfl⟩,
    on { x := 1, z := 3, u := 1 } (st [] (fun g => { g with pend := [oneResult { lane := 1, addr := 0xFFFE, sp := 2 } .load] }) pads),
      _, _, rfl, rfl, rfl, rfl, rfl, by decide, by decide, by decide, noMates rfl, rfl, rfl, rfl, rfl⟩

theorem wit_memory_lines :
    (∃ (s : State) (m : Marker), m.ends = [] ∧ (s.grp s.arg.x s.arg.y).alive ≠ [] ∧
      (∀ i ∈ instances (s.blk s.arg.x), deadlocked (s.blk s.arg.x) i.1 i.2 = false) ∧ (s.grp s.arg.x s.arg.y).marker = some m ∧ (s.blk s.arg.x).core.isSome = true ∧ (s.blk s.arg.x).stopped = false ∧
      (s.grp s.arg.x s.arg.y).wait = .none ∧ (s.grp s.arg.x s.arg.y).trap = none ∧ (s.grp s.arg.x s.arg.y).dbgStop = false ∧
      (s.grp s.arg.x s.arg.y).done = false ∧ (s.grp s.arg.x s.arg.y).pend = [] ∧ records (s.grp s.arg.x s.arg.y) = 0 ∧
      dueAt (s.blk s.arg.x) (s.grp s.arg.x s.arg.y) Point.marker = none ∧ (∀ l ∈ m.lanes, ((s.grp s.arg.x s.arg.y).th l).maskDue = []) ∧
      m.rel = false ∧ (m.drain = true → (s.grp s.arg.x s.arg.y).runnable = [])) ∧
    (∃ (s : State) (bs : List Byte), s.memWf = true ∧ (s.blk s.arg.x).core.isSome = true ∧ ((s.blk s.arg.x).map s.arg.y).v = true ∧
      ((s.blk s.arg.x).map s.arg.y).valid.contains s.arg.z = false ∧ ((s.blk s.arg.x).map s.arg.y).inval.contains s.arg.z = false ∧
      (∀ j ∈ (s.blk s.arg.x).groupIds, (s.grp s.arg.x j).pend = [] ∧ (s.grp s.arg.x j).sq = []) ∧
      Within (s.blk s.arg.x).units ((((s.blk s.arg.x).map s.arg.y).sline + s.arg.z) * 128) 128 ∧
      vread { s with src := s.blkCore s.arg.x } (s.blk s.arg.x).ctx (lineVa ((s.blk s.arg.x).map s.arg.y) s.arg.z) 128 aFILL (s.blk s.arg.x).priv = .done bs ∧ bs.length = 128) ∧
    (∃ (s : State), s.arg.x < 256 ∧ (s.core s.arg.x).l2Q.length < 16 ∧ (s.core s.arg.x).l2Wait = []) ∧
    (∃ (s : State), s.arg.x < 256 ∧ 16 ≤ (s.core s.arg.x).l2Q.length ∧ s.arg.u ≠ 0) ∧
    (∃ (s : State), s.arg.x < 256 ∧ 16 ≤ (s.core s.arg.x).l2Q.length ∧ s.arg.u = 0) ∧
    (∃ (s : State), s.arg.x < 256 ∧ (s.core s.arg.x).l2Wait ≠ [] ∧ s.arg.u ≠ 0) ∧ (∃ (s : State), s.arg.x < 256 ∧ (s.core s.arg.x).l2Wait ≠ [] ∧ s.arg.u = 0) ∧
    (∃ (s : State), s.arg.x < 256 ∧ (s.core s.arg.x).l2Wait = [] ∧ s.arg.u = 1 ∧ frrOn s = []) ∧
    (∃ (s : State) (r : List Nat) (rest : List (List Nat)), s.arg.x < 256 ∧ (s.core s.arg.x).l2Wait = r :: rest) ∧
    (∃ (s : State), thas (s.blk s.arg.y).groups s.arg.z = true ∧ earlierLeft s s.arg.y s.arg.z s.arg.u = false) ∧
    (∃ (s : State), earlierLeft s s.arg.y s.arg.z s.arg.u = true) :=
  ⟨⟨on { x := 1 } (st [] (fun g => { g with marker := some { kind := .switch, pc := 0x40, sc := 0, lanes := [1], drain := true } })), _, rfl, by decide, by decide, rfl, rfl, rfl, rfl, rfl, rfl, rfl, rfl, rfl, rfl,
      by decide, rfl, by decide⟩,
    ⟨on { x := 1, y := 15, z := 511 } (paged 0 [] (st [] id (fun k => { pads k with maps := [(15, { v := true, nlm1 := 511 })] }))), List.replicate 128 0,
      by decide, rfl, rfl, rfl, rfl, by decide, ⟨by decide, by decide⟩, by decide +kernel, List.length_replicate⟩,
    ⟨on { x := 255 }, by decide, by decide, rfl⟩, ⟨on { x := 255, u := 2 } { cores := [(255, { l2Q := List.replicate 16 (0, 0) })] }, by decide, by decide, by decide⟩,
    ⟨on { x := 255 } { cores := [(255, { l2Q := List.replicate 16 (0, 0) })] }, by decide, by decide, rfl⟩,
    ⟨on { x := 255, u := 1 } { cores := [(255, { l2Wait := [[7, 0, 0]] })] }, by decide, by decide, by decide⟩,
    ⟨on { x := 255 } { cores := [(255, { l2Wait := [[7, 0, 0]] })] }, by decide, by decide, rfl⟩, ⟨on { x := 255, y := 7, u := 1 }, by decide, rfl, rfl, rfl⟩,
    ⟨on { x := 255 } { cores := [(255, { l2Wait := [[7, 0, 0]] })] }, _, _, by decide, rfl⟩,
    ⟨on { y := 1 } (st []), rfl, rfl⟩, on { y := 1, u := 1 } (st [] (queued [oneStore])), rfl⟩

/-- Its only block has arrived at channel 1 with REDW. -/
def arrived : State :=
  { on { x := 1 } (st [] id (fun k => { launched k with bridle := some (1, 0, 2, [0]) }) channelled) with chans := [(1, { holder := some (0, 0), past := [(9, 1, [0])] })] }

/-- A message from this device: ticket, source context, context, handler; key 0. -/
def letter (c h : Nat) : Arg := { u := 7, l := [1, 2, c, h], data := [1, 2, 3] }

theorem wit_waits :
    (∃ (s : State) (wake : Nat), (s.grp s.arg.x s.arg.y).wait = .sleep wake ∧ wake ≤ s.gts ∧ (s.blk s.arg.x).core.isSome = true) ∧
    (∃ (s : State), (s.grp s.arg.x s.arg.y).notBefore ≤ s.gts ∧ (s.grp s.arg.x s.arg.y).stall = 5) ∧
    (∃ (s : State) (wake sc : Nat) (ls : List Nat) (named : List (Nat × Nat)), (s.grp s.arg.x s.arg.y).wait = .promise wake sc ls named ∧
      wake ≤ s.gts ∧ (s.blk s.arg.x).core.isSome = true ∧ namedLeft (s.grp s.arg.x s.arg.y) named = []) ∧
    (∃ (s : State) (wake sc : Nat) (ls : List Nat) (named : List (Nat × Nat)) (off : Bool), (s.grp s.arg.x s.arg.y).wait = .promise wake sc ls named ∧
      wake ≤ s.gts ∧ (s.blk s.arg.x).core.isSome = true ∧ namedLeft (s.grp s.arg.x s.arg.y) named ≠ [] ∧
      readVector s (s.blk s.arg.x).ctx (s.grp s.arg.x s.arg.y).priv 0x10 = .unhandled off) ∧
    (∃ (s : State) (k : Nat), s.arg.x < 16 ∧ channelBlocks s s.arg.x ≠ [] ∧ (∃ p, p ∈ (s.chan s.arg.x).past) ∧
      (∀ p ∈ (s.chan s.arg.x).past, p.2.1 = k) ∧ ∀ b ∈ channelBlocks s s.arg.x, (s.blk b).core.isSome = true ∧
      (∀ n va st need, fillVector s b n ≠ .wait va st need) ∧ ∃ off d ls, (s.blk b).bridle = some (k, off, d, ls)) ∧
    (∃ (s : State), s.arg.l.getD 2 0 < 4096 ∧ s.arg.x = s.devNo ∧ (s.ctx (s.arg.l.getD 2 0)).st = .free) ∧
    (∃ (s : State), thas s.blks s.arg.x = true ∧ thas (s.blk s.arg.x).groups s.arg.y = true ∧ (s.grp s.arg.x s.arg.y).done = false ∧
      (s.grp s.arg.x s.arg.y).alive ≠ [] ∧ ticketLive (s.grp s.arg.x s.arg.y) s.arg.z = true) :=
  ⟨⟨on { x := 1 } (st [] (fun g => { g with wait := .sleep 0 })), _, rfl, by decide, rfl⟩,
    ⟨on { x := 1 } (st [] (fun g => { g with stall := 5 })), by decide, rfl⟩,
    ⟨on { x := 1 } (st [] (fun g => { g with wait := .promise 0 0 [0] [(0, 3)] })), _, _, _, _, rfl, by decide, rfl, by decide⟩,
    ⟨on { x := 1 } (st [] (fun g => ({ g with wait := .promise 0 0 [0] [(0, 3)] }).updTh 0 (fun t => { t with bseq := 4, sealed := [⟨3, 1, 0⟩] }))), _, _, _, _, _, rfl,
      by decide, rfl, by decide, rfl⟩,
    ⟨arrived, 1, by decide, by decide, ⟨_, List.mem_singleton.mpr rfl⟩, by decide, fun b hb => by obtain rfl := List.mem_singleton.mp hb; exact ⟨rfl, by intros; simp [fillVector, arrived, on, st, State.blk, tget, tfind, launched], _, _, _, rfl⟩⟩,
    ⟨on (letter 4095 0), by decide, rfl, rfl⟩,
    on { x := 1, z := 0xFFFF } (st []), rfl, rfl, rfl, by decide, by decide⟩

theorem wit_message_accepted :
    ∃ (s : State) (bs : List Byte), s.arg.l.getD 2 0 < 4096 ∧ s.arg.x = s.devNo ∧ (s.ctx (s.arg.l.getD 2 0)).st = .runnable ∧
      messageBehind s s.arg = false ∧ (s.ctx (s.arg.l.getD 2 0)).resetting = false ∧
      s.arg.v.toNat % 2 ^ 32 = (s.ctx (s.arg.l.getD 2 0)).amkey.toNat ∧ (s.ctx (s.arg.l.getD 2 0)).amht.getLsbD 0 = true ∧
      readHandler s (s.arg.l.getD 2 0) (s.arg.l.getD 3 0) = .done bs ∧ handlerOk (leNat bs) = true ∧
      (s.ctx (s.arg.l.getD 2 0)).msgs.length < feedRoom (s.ctx (s.arg.l.getD 2 0)) := by
  refine ⟨on (letter 0 2) (paged 0x3010 (natLe 8 0x8000_0000_0000_000C) {} (fun x => { x with st := .runnable, amht := 0x3001, amfeed := 0x4010 })), natLe 8 0x8000_0000_0000_000C,
    by decide, rfl, rfl, ?_, rfl, by decide, by decide, ?_, ?_, ?_⟩ <;> decide +kernel

/-- The elements of an image, all of zeros. -/
def zeroBody : List Byte := List.replicate 17408 0

theorem zeroBody_length : zeroBody.length = 17408 := List.length_replicate

/-- That image is well formed. -/
theorem zeroImage (n : Nat) : ∃ xs, imageElems false n zeroBody = some xs := by
  have elem (m k : Nat) : (elemOf false m (List.replicate k 0)).isSome = true := by
    have : elemOf false m (List.replicate k 0) = elemOf false m [] := by unfold elemOf; rw [leNat_zeros k]; rfl
    rw [this]; rfl
  refine Option.isSome_iff_exists.mp ?_
  unfold imageElems upto zeroBody
  generalize List.range 1024 = l, 17408 = k
  induction l with
  | nil => rfl
  | cons a l ih =>
    obtain ⟨r, hr⟩ := Option.isSome_iff_exists.mp ih
    obtain ⟨x, hx⟩ := Option.isSome_iff_exists.mp (elem (n + a) (min 17 (k - 17 * a)))
    simp only [List.drop_replicate, List.take_replicate, Bool.false_eq_true, if_false] at hr ⊢
    simp only [List.foldr_cons, hr, hx, Option.isSome_some]

/-- The header of that image. -/
def zeroHeader : List Byte := natLe 64 (1 + 2 * 2 ^ 8 + 1024 * 2 ^ 32 + crc32c zeroBody * 2 ^ 64)

/-- A block whose eaves hold an image at offset 0, with its TLOAD at the head of the tile queue of core 0. -/
def loading (img : List Byte) : State :=
  { st [] id tiled with
    cores := [(0, { tileQ := [{ blk := 1, j := 0, ticket := 0, op := .tload 0xFD00_0000_0000_0000 0, who := [] }] })]
    sram := regionWrite [] [100] 0 img }

theorem loading_reads (img : List Byte) (l : img.length ≤ 65536) (n : Nat) (h : n ≤ img.length) : eavesRead (loading img) 1 0 n = img.take n := by
  have all : regionRead (regionWrite [] [100] 0 img) [100] 0 img.length = img :=
    regionRead_regionWrite (m := []) [100] 0 _ rfl (List.nodup_singleton _) (by rw [List.length_singleton]; omega)
  conv_rhs => rw [← all]
  show regionRead (regionWrite [] [100] 0 img) [100] 0 n = _
  simp only [regionRead, upto, ← List.map_take, List.take_range, Nat.min_eq_left h]

theorem header_fields (k : Nat) (c : k < 2 ^ 32) :
    let h := natLe 64 (1 + 2 * 2 ^ 8 + 1024 * 2 ^ 32 + k * 2 ^ 64)
    recBits h 15 8 = 2 ∧ recBits h 95 64 = k ∧ headerBad h = false := by
  have big : (1 + 2 * 2 ^ 8 + 1024 * 2 ^ 32 + k * 2 ^ 64) / 2 ^ 96 = 0 := Nat.div_eq_of_lt (by omega)
  have v : leNat (natLe 64 (1 + 2 * 2 ^ 8 + 1024 * 2 ^ 32 + k * 2 ^ 64)) = 1 + 2 * 2 ^ 8 + 1024 * 2 ^ 32 + k * 2 ^ 64 := by
    rw [leNat_natLe, Nat.mod_eq_of_lt]
    calc _ < 2 ^ 96 := by omega
      _ ≤ 256 ^ 64 := by norm_num
  have e2 : recBits (natLe 64 (1 + 2 * 2 ^ 8 + 1024 * 2 ^ 32 + k * 2 ^ 64)) 15 8 = 2 := by
    simp only [recBits, bits, v, Nat.shiftRight_eq_div_pow]; omega
  have top : recBits (natLe 64 (1 + 2 * 2 ^ 8 + 1024 * 2 ^ 32 + k * 2 ^ 64)) 511 96 = 0 := by
    simp only [recBits, bits, v, Nat.shiftRight_eq_div_pow, big, Nat.zero_mod]
  refine ⟨e2, ?_, ?_⟩
  · simp only [recBits, bits, v, Nat.shiftRight_eq_div_pow]; omega
  · simp only [headerBad, top, e2, Bool.or_eq_false_iff, decide_eq_false_iff_not]
    simp only [recBits, bits, v, Nat.shiftRight_eq_div_pow]
    omega

theorem wit_tile_load : ∃ (s : State) (c : TileCmd) (ad a z : Nat) (xs : List Elem), TileHead s s.arg.x c ∧ c.op = .tload ad z ∧ tagOf ad = some (2, a) ∧
    let h := eavesRead s c.blk a 64
    let redun := decide (recBits h 15 8 = 1)
    a + imageSize redun ≤ eavesSize (s.blk c.blk) ∧ headerBad h = false ∧
    recBits h 95 64 = crc32c ((eavesRead s c.blk a (imageSize redun)).drop 64) ∧
    (∃ n, imageElems redun n ((eavesRead s c.blk a (imageSize redun)).drop 64) = some xs ∧ n = s.freeCtr) ∧ (redun = true → c.wide = true) := by
  have hl : zeroHeader.length = 64 := natLe_length _ _
  have len : (zeroHeader ++ zeroBody).length = 17472 := by rw [List.length_append, hl, zeroBody_length]
  have hh := loading_reads (zeroHeader ++ zeroBody) (by omega) 64 (by omega)
  have hb := loading_reads (zeroHeader ++ zeroBody) (by omega) 17472 (by omega)
  rw [List.take_left' hl] at hh
  rw [List.take_of_length_le (by omega)] at hb
  obtain ⟨e2, ek, hd⟩ := header_fields (crc32c zeroBody) (crc32c_lt zeroBody)
  change recBits zeroHeader 15 8 = 2 at e2
  change recBits zeroHeader 95 64 = crc32c zeroBody at ek
  change headerBad zeroHeader = false at hd
  obtain ⟨xs, hx⟩ := zeroImage (loading (zeroHeader ++ zeroBody)).freeCtr
  refine ⟨loading (zeroHeader ++ zeroBody), _, 0xFD00_0000_0000_0000, 0, 0, xs, ⟨⟨_, rfl⟩, rfl, rfl, rfl⟩, rfl, rfl, ?_⟩
  have r : decide (recBits zeroHeader 15 8 = 1) = false := by rw [e2]; rfl
  show _ ∧ headerBad (eavesRead (loading (zeroHeader ++ zeroBody)) 1 0 64) = false ∧ _
  simp only [hh, r]
  refine ⟨by decide, hd, ?_, ⟨_, ?_, rfl⟩, fun h => nomatch h⟩
  · rw [ek]; exact congrArg crc32c (by rw [show imageSize false = 17472 from rfl, hb, List.drop_left' hl])
  · rw [show imageSize false = 17472 from rfl, hb, List.drop_left' hl]; exact hx

/-- The header of a redundant image, whose longer time has not been counted. -/
theorem wit_tile_load_wide : ∃ (s : State) (c : TileCmd) (ad a z : Nat), TileHead s s.arg.x c ∧ c.op = .tload ad z ∧ tagOf ad = some (2, a) ∧
    a + 64 ≤ eavesSize (s.blk c.blk) ∧ headerBad (eavesRead s c.blk a 64) = false ∧ recBits (eavesRead s c.blk a 64) 15 8 = 1 ∧ c.wide = false ∧
    c.stop = false :=
  ⟨loading (natLe 64 (1 + 2 ^ 8 + 1024 * 2 ^ 32)), _, 0xFD00_0000_0000_0000, 0, 0, ⟨⟨_, rfl⟩, rfl, rfl, rfl⟩, rfl, rfl, by decide, by decide +kernel,
    by decide +kernel, rfl, rfl⟩

/-- A tile command at the head of the queue of core 0. -/
def turning (op : TileOp) (q : List TileCmd := []) (pend : List (Nat × Nat) := []) (begun : Bool := false) (k : Block → Block := id) : State :=
  { st [] id (fun b => k (tiled b)) with cores := [(0, { tileQ := { blk := 1, j := 0, ticket := 0, op := op, who := [(0, 0)], pend := pend, begun := begun } :: q })] }

/-- A parameter block: a drain of tile 0 to eaves offset 0 in plane form; with shape 32 by 32, K of 1 tile, FP formats of code 0. -/
def drainBlock : List Byte := natLe 64 (2 ^ 42 + 2 ^ 47)

/-- A parameter block whose TMMA has two slices. -/
def twoSlices : List Byte := natLe 64 (2 ^ 42 + 2 ^ 47 + 2 ^ 64)

/-- A TMMA at the slice `u`, marked to stop at its boundary or in a stopped block. -/
def slicing (stop stopped : Bool) (u : Nat) : State :=
  { st [] id (fun b => { tiled b with stopped := stopped, tiles := [(0, { st := 1, stepNo := u })] }) with
    cores := [(0, { tileQ := [{ blk := 1, j := 0, ticket := 0, op := .tmma twoSlices 0 0, who := [(0, 0)], begun := true, stop := stop }] })] }

/-- A TMMA that has begun heads its queue. -/
def Slice (s : State) (c : TileCmd) (pb : List Byte) (c0 c1 : Nat) : Prop :=
  TileHead s s.arg.x c ∧ c.op = .tmma pb c0 c1 ∧ c.begun = true ∧ (s.blk c.blk).maps = [] ∧ ((s.blk c.blk).tile (pbZt pb)).st ≠ 3

theorem wit_tile_turns :
    (∃ (s : State) (c : TileCmd) (z : Nat), TileHead s s.arg.x c ∧ c.op = .tzero z) ∧
    (∃ (s : State) (c : TileCmd) (z : Nat), TileHead s s.arg.x c ∧ c.op = .tres z ∧ ((s.blk c.blk).tile z).st ≠ 3) ∧
    (∃ (s : State) (c : TileCmd) (d a : Nat), TileHead s s.arg.x c ∧ c.op = .tmov d a ∧ d ≠ a ∧ ((s.blk c.blk).tile a).st ≠ 3) ∧
    (∃ (s : State) (c : TileCmd) (d z : Nat), TileHead s s.arg.x c ∧ c.op = .tcmpX d z ∧ ((s.blk c.blk).tile z).st ≠ 3 ∧ c.pend ≠ []) ∧
    (∃ (s : State) (c : TileCmd) (ad a z : Nat) (redun : Bool), TileHead s s.arg.x c ∧ s.memWf = true ∧ c.op = .tsave ad z ∧ redun = true ∧
      ((s.blk c.blk).tile z).st ≠ 3 ∧ tagOf ad = some (2, a) ∧ Within (s.blk c.blk).eunits a 34880) ∧
    (∃ (s : State) (c : TileCmd) (a off : Nat), TileHead s s.arg.x c ∧ s.memWf = true ∧ c.op = .tplane 2 a off ∧ (s.blk c.blk).maps = [] ∧
      Within (s.blk c.blk).units off 2176) ∧
    (∃ (s : State) (c : TileCmd) (rm c0 c1 fpc : Nat) (pb : List Byte), TileHead s s.arg.x c ∧ s.memWf = true ∧ c.op = .tdrain rm pb c0 c1 fpc ∧
      ((s.blk c.blk).tile (pbZt pb)).st ≠ 3 ∧ (s.blk c.blk).maps = [] ∧ pbRse pb = false ∧ pbCse pb = false ∧ pbDpl pb = true ∧ pbDsp pb = 2 ∧
      Within (s.blk c.blk).eunits (dBase pb c0 c1) 2176) ∧
    (∃ (s : State) (c : TileCmd) (pb : List Byte) (c0 c1 : Nat), Slice s c pb c0 c1 ∧ pbSlices pb ≤ ((s.blk c.blk).tile (pbZt pb)).stepNo) ∧
    (∃ (s : State) (c : TileCmd) (pb : List Byte) (c0 c1 : Nat), Slice s c pb c0 c1 ∧ ((s.blk c.blk).tile (pbZt pb)).stepNo < pbSlices pb ∧ c.stop = true ∧
      ¬(((s.blk c.blk).tile (pbZt pb)).stepNo = 0 ∧ pbZf pb = true)) ∧
    (∃ (s : State) (c : TileCmd) (pb : List Byte) (c0 c1 : Nat), Slice s c pb c0 c1 ∧ ((s.blk c.blk).tile (pbZt pb)).stepNo + 1 < pbSlices pb ∧
      c.stop = false ∧ (s.blk c.blk).stopped = true) ∧
    (∃ (s : State) (c : TileCmd) (pb : List Byte) (c0 c1 : Nat), Slice s c pb c0 c1 ∧ ((s.blk c.blk).tile (pbZt pb)).stepNo + 1 = pbSlices pb ∧
      c.stop = false ∧ (s.blk c.blk).stopped = false) :=
  ⟨⟨turning (.tzero 3), _, 3, ⟨⟨_, rfl⟩, rfl, rfl, rfl⟩, rfl⟩,
    ⟨turning (.tres 0) [] [] false (fun b => { b with tiles := [(0, { st := 1, el := [(1023, { sum := 5 })] })] }), _, 0, ⟨⟨_, rfl⟩, rfl, rfl, rfl⟩, rfl, by decide⟩,
    ⟨turning (.tmov 3 0), _, 3, 0, ⟨⟨_, rfl⟩, rfl, rfl, rfl⟩, rfl, by decide, by decide⟩,
    ⟨turning (.tcmpX 2 3) [] [(0, 1)], _, 2, 3, ⟨⟨_, rfl⟩, rfl, rfl, rfl⟩, rfl, by decide, by decide⟩,
    ⟨turning (.tsave 0xFD00_0000_0000_77C0 3), _, 0xFD00_0000_0000_77C0, 0x77C0, 3, true, ⟨⟨_, rfl⟩, rfl, rfl, rfl⟩, rfl, rfl, rfl, by decide, rfl, by decide, by decide⟩,
    ⟨turning (.tplane 2 0 63360), _, 0, 63360, ⟨⟨_, rfl⟩, rfl, rfl, rfl⟩, rfl, rfl, rfl, by decide, by decide⟩,
    ⟨turning (.tdrain 0 drainBlock 0 0 0), _, 0, 0, 0, 0, drainBlock, ⟨⟨_, rfl⟩, rfl, rfl, rfl⟩, rfl, rfl, by decide, rfl, by decide +kernel, by decide +kernel, by decide +kernel,
      by decide +kernel, by decide, by decide +kernel⟩,
    ⟨turning (.tmma drainBlock 0 0) [] [] true (fun b => { b with tiles := [(0, { st := 1, stepNo := 2 })] }), _, drainBlock, 0, 0,
      ⟨⟨⟨_, rfl⟩, rfl, rfl, rfl⟩, rfl, rfl, rfl, by decide⟩, by decide +kernel⟩,
    ⟨slicing true false 0, _, twoSlices, 0, 0, ⟨⟨⟨_, rfl⟩, rfl, rfl, rfl⟩, rfl, rfl, rfl, by decide⟩, by decide +kernel, rfl, by decide +kernel⟩,
    ⟨slicing false true 0, _, twoSlices, 0, 0, ⟨⟨⟨_, rfl⟩, rfl, rfl, rfl⟩, rfl, rfl, rfl, by decide⟩, by decide +kernel, rfl, rfl⟩,
    ⟨slicing false false 1, _, twoSlices, 0, 0, ⟨⟨⟨_, rfl⟩, rfl, rfl, rfl⟩, rfl, rfl, rfl, by decide⟩, by decide +kernel, rfl, rfl⟩⟩

/-- An operation of lane 1 in queue 3 of core 0. -/
def oneOp : EngOp := { id := 7, kind := .cpy, blk := 1, j := 0, lane := 1 }

/-- Queues of core 0. -/
def engines (q : Tab (List EngOp)) (s : State := st []) : State := { s with cores := [(0, { engQ := q })] }

/-- A COPY packet of `len` bytes from 0x3000 to `dst`. -/
def copyOp (dst len : Nat) : EngOp :=
  { id := 7, kind := .packet 0 2 5, begun := true, lrec := natLe 64 (0x3000 * 2 ^ 64 + dst * 2 ^ 128 + len * 2 ^ 192) }

/-- A write through queue `nsq` that awaits the network with packets 0 and 1. -/
def netWrite (ps : List (Nat × List Byte)) : EngOp :=
  { oneOp with kind := .cpyN, begun := true, away := true, lrec := natLe 64 (63 * 2 ^ 90), pkts := ps, tries := 7 }

/-- A collective of CID 1 of lane 1. -/
def oneColl : EngOp := { oneOp with kind := .coll, begun := true, lrec := natLe 64 (2 ^ 112) }

/-- Core 0 holds `n` fragments of CID 1 from device 2 at offset 3, and another arrives. -/
def fragmented (n : Nat) (q : List EngOp) (off : Nat) : State :=
  on { x := 0, y := 1, z := 2, u := off } { st [] with cores := [(0, { engQ := [(6, q)], frags := List.replicate n { cid := 1, frm := 2, off := 3 } })] }

/-- The fragments held for the collective of the one that arrives. -/
def heldFrags (s : State) : List Frag := (s.core s.arg.x).frags.filter (fun f => decide (f.cid = s.arg.y ∧ f.ctx = s.arg.v.toNat))

/-- The core's own collective has issued. -/
def Issued (s : State) : Prop :=
  ∃ o, (o ∈ s.engQ s.arg.x 6 ∨ (6, o) ∈ (s.core s.arg.x).entering) ∧ ofThread o = true ∧ lrCid o.lrec = s.arg.y ∧ (s.blk o.blk).ctx = s.arg.v.toNat

/-- It is held already. -/
def Copied (s : State) : Prop := ∃ f ∈ heldFrags s, f.frm = s.arg.z ∧ f.off = s.arg.u

/-- The port carries frames or completes those outstanding. -/
def TakesFrames (s : State) : Prop := (s.port s.arg.x).carriesFrames = true ∨ ((s.port s.arg.x).st = 5 ∧ (s.port s.arg.x).mode = 1)

theorem wit_engines :
    (∃ (s : State) (o : EngOp) (r : List EngOp), s.engQ s.arg.x s.arg.y = o :: r ∧ o.begun = false ∧ ofThread o = true ∧
      fenced s o.blk [(o.j, o.fence)] = false) ∧
    (∃ (s : State) (o : EngOp) (r : List EngOp) (qs : List Nat), s.engQ s.arg.x s.arg.y = o :: r ∧ o.begun = false ∧ o.kind = .fence qs ∧
      qs.Nodup ∧ (s.core s.arg.x).entering = [] ∧ ∀ q ∈ qs, ∃ h l, s.engQ s.arg.x q = h :: l ∧ h.id = o.id) ∧
    (∃ (s : State) (o : EngOp) (r : List EngOp), s.engQ s.arg.x s.arg.y = o :: r ∧ o.begun = true ∧ ofThread o = true ∧
      (s.blk o.blk).stopped = true ∧ (s.core s.arg.x).entering = []) ∧
    (∃ (s : State), s.arg.x < 256 ∧ 64 ≤ (heldFrags s).length ∧ ¬Issued s) ∧
    (∃ (s : State), s.arg.x < 256 ∧ 64 ≤ (heldFrags s).length ∧ Issued s ∧ ¬Copied s) ∧
    (∃ (s : State), s.arg.x < 256 ∧ (heldFrags s).length < 64 ∧ Copied s ∧ s.engQ s.arg.x 6 = []) ∧
    (∃ (s : State) (o : EngOp) (r : List EngOp), s.arg.x < 256 ∧ (heldFrags s).length < 64 ∧ ¬Copied s ∧ s.engQ s.arg.x 6 = o :: r ∧ o.begun = true ∧
      lrCid o.lrec = s.arg.y) ∧
    (∃ (s : State), s.arg.x < 64 ∧ (s.port s.arg.x).carriesFrames = false ∧ ¬((s.port s.arg.x).st = 5 ∧ (s.port s.arg.x).mode = 1)) ∧
    (∃ (s : State), s.arg.x < 64 ∧ netCore s s.arg.u = none ∧ TakesFrames s ∧ (decide (s.arg.y < 64) && decide (bits (s.nsq s.arg.y).cfg 5 0 = s.arg.x)) = true) ∧
    (∃ (s : State), s.arg.x < 64 ∧ netCore s s.arg.u = none ∧ TakesFrames s ∧ (decide (s.arg.y < 64) && decide (bits (s.nsq s.arg.y).cfg 5 0 = s.arg.x)) = false) ∧
    (∃ (s : State) (n : Nat) (o : EngOp) (p : Nat × List Byte), s.arg.x < 64 ∧ s.arg.y < 64 ∧ bits (s.nsq s.arg.y).cfg 5 0 = s.arg.x ∧ TakesFrames s ∧
      netCore s s.arg.u = some n ∧ netOp s n = some o ∧ lrNsq o.lrec = s.arg.y ∧ s.arg.z = 0 ∧ lrUop o.lrec ≠ 2 ∧
      o.pkts.find? (fun p => p.1 = s.arg.l.headD 0) = some p ∧ (s.core n).entering = [] ∧ o.pkts.filter (fun r => r.1 ≠ s.arg.l.headD 0) ≠ []) ∧
    (∃ (s : State) (n : Nat) (o : EngOp) (p : Nat × List Byte), s.arg.x < 64 ∧ s.arg.y < 64 ∧ bits (s.nsq s.arg.y).cfg 5 0 = s.arg.x ∧ TakesFrames s ∧
      netCore s s.arg.u = some n ∧ netOp s n = some o ∧ lrNsq o.lrec = s.arg.y ∧ s.arg.z = 0 ∧ lrUop o.lrec ≠ 2 ∧
      o.pkts.find? (fun p => p.1 = s.arg.l.headD 0) = some p ∧ (s.core n).entering = [] ∧ o.pkts.filter (fun r => r.1 ≠ s.arg.l.headD 0) = [] ∧
      lrBen o.lrec = false) ∧
    (∃ (s : State) (o : EngOp) (p : Nat × List Byte) (r : List (Nat × List Byte)), netOp s s.arg.x = some o ∧ o.pkts = p :: r ∧ o.tries < 8) :=
  ⟨⟨on { x := 0, y := 3 } (engines [(3, [oneOp])]), oneOp, [], rfl, rfl, rfl, rfl⟩,
    ⟨on { x := 0, y := 0 } (engines [(0, [{ oneOp with kind := .fence [0, 6] }]), (6, [{ oneOp with kind := .fence [0, 6] }, oneOp])]), _, [], [0, 6],
      rfl, rfl, rfl, by decide, rfl, by
        intro q hq
        rcases List.mem_cons.mp hq with rfl | h
        · exact ⟨_, _, rfl, rfl⟩
        · obtain rfl := List.mem_singleton.mp h
          exact ⟨_, _, rfl, rfl⟩⟩,
    ⟨on { x := 0, y := 3 } (engines [(3, [{ oneOp with begun := true }])] (st [] id (fun k => { k with stopped := true }))), _, [], rfl, rfl, rfl, rfl, rfl⟩,
    ⟨fragmented 64 [] 9, by decide, by decide, fun ⟨o, h, _⟩ => by rcases h with h | h <;> cases h⟩,
    ⟨fragmented 64 [oneColl] 9, by decide, by decide, ⟨oneColl, .inl (List.mem_singleton.mpr rfl), rfl, by decide +kernel, rfl⟩,
      fun ⟨f, h, _, e⟩ => by rw [List.eq_of_mem_replicate (List.mem_filter.mp h).1] at e; cases e⟩,
    ⟨fragmented 1 [] 3, by decide, by decide, ⟨_, List.mem_singleton.mpr rfl, rfl, rfl⟩, rfl⟩,
    ⟨fragmented 1 [oneColl] 9, oneColl, [], by decide, by decide, (show ¬Copied _ from
      fun ⟨f, h, _, e⟩ => by rw [List.eq_of_mem_replicate (List.mem_filter.mp h).1] at e; cases e), rfl, rfl, by decide +kernel⟩,
    ⟨on { x := 63 }, by decide, rfl, by decide⟩,
    ⟨on { x := 0, y := 63, u := 7 } { ports := [(0, { st := 3 })] }, by decide, rfl, .inl rfl, by decide⟩,
    ⟨on { x := 1, y := 63, u := 7 } { ports := [(1, { st := 5, mode := 1 })] }, by decide, rfl, .inr ⟨rfl, rfl⟩, by decide⟩,
    ⟨on { x := 5, y := 63, u := 7, l := [1] } { engines [(5, [netWrite [(0, [1]), (1, [2])]])] with nsqs := [(63, { cfg := 5 })], ports := [(5, { st := 3 })] }, 0,
      netWrite [(0, [1]), (1, [2])], (1, [2]), by decide, by decide, by decide, .inl rfl, by decide, rfl, by decide +kernel, rfl, by decide +kernel, by decide, rfl, by decide⟩,
    ⟨on { x := 5, y := 63, u := 7, l := [0] } { engines [(5, [netWrite [(0, [1])]])] with nsqs := [(63, { cfg := 5 })], ports := [(5, { st := 4, mode := 1 })] }, 0,
      netWrite [(0, [1])], (0, [1]), by decide, by decide, by decide, .inl rfl, by decide, rfl, by decide +kernel, rfl, by decide +kernel, by decide, rfl, by decide,
      by decide +kernel⟩,
    ⟨on { x := 0 } (engines [(5, [netWrite [(0, [1])]])]), _, _, [], rfl, rfl, by decide⟩⟩

/-- A write that has been performed. -/
theorem written (r : WRes) (h : (match r with | .done _ => true | _ => false) = true) : ∃ u, r = .done u := by
  cases r <;> simp_all

/-- An access to 0x3000 that waits for its page and is an event of the page unit. -/
def waiting (s : State) : State :=
  { s with page := { waiters := [{ id := 4, ctx := 0, va := 0x3000, acc := aLOAD, stage := 1, gpa := 0, src := 0, retry := some (.pageReWalk, {}) }] } }

/-- Every guest page is NONRESIDENT, and context 0's VF has a ring or none. -/
def absent (base : DWord) : State :=
  { paged 0x70000 (natLe 8 0x3F) {} with vfs := [(0, { en := true, idcnt := 1, hroot := 0x40000, prqBase := base, prqHead := 127 })] }

/-- A line that has landed in the gutter. -/
def landed : GutterSlot := { ctx := 0, va := 0x1_0180, bytes := natLe 128 5, mask := 1, gts := 0 }

theorem wit_pages :
    (∃ (s : State) (w : Waiter) (r : Instr × Arg) (dev pa : Nat) (e : TlbEntry), s.page.waiters.find? (fun w => w.id == s.arg.x) = some w ∧
      pageWalk s w.ctx w.va w.acc = .ok dev pa e ∧ w.retry = some r) ∧
    (∃ (s : State) (w : Waiter) (st stage lvl : Nat) (need : Lack), s.page.waiters.find? (fun w => w.id == s.arg.x) = some w ∧
      pageWalk s w.ctx w.va w.acc = .wait st stage lvl need ∧ st ≠ 0 ∧ s.arg.y ≠ 1) ∧
    (∃ (s : State) (lvl pa : Nat) (need : Lack) (e : TlbEntry), s.memWf = true ∧ s.arg.u = 0 ∧ s.arg.x < 4096 ∧
      pageWalk s s.arg.x s.arg.y s.arg.z = .wait 1 1 lvl need ∧
      (s.vf (s.ctx s.arg.x).vf).prqWait = [] ∧ (s.vf (s.ctx s.arg.x).vf).prqBase.getLsbD 0 = true ∧
      prqFull (s.vf (s.ctx s.arg.x).vf).prqBase (s.vf (s.ctx s.arg.x).vf).prqHead (s.vf (s.ctx s.arg.x).vf).prqTail = false ∧
      pageWalk s (ringCtx (s.ctx s.arg.x).vf s.arg.x) (prqSlot (s.vf (s.ctx s.arg.x).vf).prqBase (s.vf (s.ctx s.arg.x).vf).prqHead) aEWRITE =
        .ok s.devNo pa e ∧ pa.testBit 39 = false ∧ windowBars s (s.ctx s.arg.x).vf pa 32 true = false) ∧
    (∃ (s : State) (lvl : Nat) (need : Lack), s.arg.u = 0 ∧ s.arg.x < 4096 ∧ pageWalk s s.arg.x s.arg.y s.arg.z = .wait 1 1 lvl need ∧
      (s.vf (s.ctx s.arg.x).vf).prqWait = [] ∧ (s.vf (s.ctx s.arg.x).vf).prqBase.getLsbD 0 = false) ∧
    (∃ (s : State) (w : Waiter), s.arg.x ≠ 64 ∧ w ∈ s.page.waiters ∧ w.peer = none ∧ w.stage = 1 ∧ vfOfCtx s w.ctx = s.arg.x) ∧
    (∃ (s : State) (w : Waiter), s.arg.x = 64 ∧ w ∈ s.page.waiters ∧ w.peer = none ∧ w.stage ≠ 1) ∧
    (∃ (s : State) (g : GutterSlot) (pa p : Nat) (x e : TlbEntry), s.memWf = true ∧ s.frr = [] ∧ pageWalk s s.arg.x s.arg.y aLOAD = .ok s.devNo pa x ∧
      s.page.slots.filter (fun g => slotOn s g s.devNo pa x s.arg.y) = [g] ∧ pageWalk s g.ctx g.va aLOAD = .ok s.devNo p e ∧ p.testBit 39 = false) :=
  ⟨⟨on { x := 4 } (waiting (paged 0 [] {})), _, _, 0, 0x3000, ⟨0, 0, 0x3000, 0x1F, 3, 0x3000, 0xF, 3⟩, rfl, by decide +kernel, rfl⟩,
    ⟨on { x := 4 } (waiting (absent 0)), _, 1, 1, 3, .page 0x3000, rfl, by decide +kernel, by decide, by decide⟩,
    ⟨on { y := 0x1_FFFF, z := aLOAD } (absent 0x3001), 3, 0x31E0, .page 0x1_FFFF, ⟨4096, 0, 0x31E0, 0, 0, 0x31E0, 0xF, 3⟩, by decide, rfl, by decide,
      by decide +kernel, rfl, by decide, by decide, by decide +kernel, by decide, by decide⟩,
    ⟨on { y := 0x1_FFFF, z := aLOAD } (absent 0x3000), 3, .page 0x1_FFFF, rfl, by decide, by decide +kernel, rfl, by decide⟩,
    ⟨on { x := 0 } (waiting (absent 0)), _, by decide, List.mem_singleton.mpr rfl, rfl, rfl, rfl⟩,
    ⟨on { x := 64 } { page := { waiters := [{ id := 4, ctx := 0, va := 0, acc := 0, stage := 2, gpa := 0, src := 0, retry := none }] } }, _, rfl,
      List.mem_singleton.mpr rfl, rfl, by decide⟩,
    on { y := 0x1_0080 } { paged 0 [] {} with page := { slots := [landed] } }, landed, 0x1_0080, 0x1_0180,
      ⟨0, 0, 0x1_0080, 0x1F, 3, 0x1_0080, 0xF, 3⟩, ⟨0, 0, 0x1_0180, 0x1F, 3, 0x1_0180, 0xF, 3⟩, by decide, rfl, by decide +kernel, by decide +kernel, by decide +kernel, by decide⟩

/-- A move of guest-physical page 0 of VF 0 to 0x4_0000_0000 of this device, whose leaf is `e`. -/
def moving (e : Nat) : State := { paged 0x50000 (natLe 8 e) {} with page := { pmov := [(2, 0x4_0000_0000)] } }

/-- A load of core 0 for context 0 that device 3 has not answered. -/
def askedOf : PeerReq := { seq := 7, home := 3, core := 0, kind := 0, pa := 0x3000, size := 4, data := [], blk := 1, j := 0, id := 3, lane := 0, port := 5 }

theorem wit_page_moves :
    (∃ (s : State) (a e lvl : Nat), s.memWf = true ∧ leafAt s (pmovGpa s) 4 (s.vf (pmovVf s)).hroot = some (a, e, lvl) ∧
      peMig e = true ∧ peSt e = 0 ∧ peerUp s (peDev e) = true ∧ peerUp s (pmovTo s / 2 ^ 40) = true) ∧
    (∃ (s : State) (a e lvl : Nat), s.memWf = true ∧ leafAt s (pmovGpa s) 4 (s.vf (pmovVf s)).hroot = some (a, e, lvl) ∧ peMig e = false) ∧
    (∃ (s : State) (a e lvl : Nat), s.memWf = true ∧ leafAt s (pmovGpa s) 4 (s.vf (pmovVf s)).hroot = some (a, e, lvl) ∧
      peMig e = true ∧ peSt e ≠ 0) ∧
    (∃ (s : State), leafAt s (pmovGpa s) 4 (s.vf (pmovVf s)).hroot = none) ∧
    (∃ (s : State), s.memWf = true ∧ stillOut s (s.arg.l.drop 2) = [] ∧ peDev s.arg.y = s.devNo ∧
      s.arg.l.getD 1 0 / 2 ^ lvlBits s.arg.z * 2 ^ lvlBits s.arg.z / 2 ^ 40 = s.devNo) ∧
    (∃ (s : State), stillOut s (s.arg.l.drop 2) ≠ []) ∧
    (∃ (s : State), s.memWf = true ∧ stillOut s (s.arg.l.drop 2) = [] ∧ peerUp s (peDev s.arg.y) = false) ∧
    (∃ (s : State), fld s.page.tlbihC 1 0 = 3) ∧ (∃ (s : State), fld s.page.tlbihC 1 0 ≠ 3) ∧
    (∃ (s : State), s.arg.l = [] ∧ s.arg.v = 0 ∧ ¬∃ r ∈ s.peerReqs, (invalOf s s.arg.y s.arg.z (some s.arg.u)).covers s r = true) ∧
    (∃ (s : State), s.arg.l = [] ∧ s.arg.v = 0 ∧ ∃ r ∈ s.peerReqs, (invalOf s s.arg.y s.arg.z (some s.arg.u)).covers s r = true) ∧
    (∃ (s : State) (b j seq : Nat), s.arg.l = [b, j, seq] ∧ s.arg.v = 0 ∧ thas (s.blk b).groups j = true ∧ earlierLeft s b j seq = false ∧
      (¬∃ r ∈ s.peerReqs, (invalOf s s.arg.y s.arg.z none).covers s r = true) ∧ (∀ p ∈ (s.grp b j).pend, p.id = s.arg.x) ∧
      ∀ i, j < i → ∀ p ∈ (s.grp b i).pend, p.iss = 0) ∧
    (∃ (s : State) (b j seq : Nat), s.arg.l = [b, j, seq] ∧ s.arg.v = 0 ∧ thas (s.blk b).groups j = true ∧ earlierLeft s b j seq = false ∧
      ∃ r ∈ s.peerReqs, (invalOf s s.arg.y s.arg.z none).covers s r = true) ∧
    (∃ (s : State) (b j : Nat) (ks : List Nat), s.arg.l = b :: j :: ks ∧ s.arg.v = 1 ∧ thas (s.blk b).groups j = true ∧ stillOut s ks = [] ∧ ks ≠ []) ∧
    (∃ (s : State) (ks : List Nat), s.arg.l = ks ∧ s.arg.v = 2 ∧ stillOut s ks = [] ∧ ks ≠ []) ∧
    (∃ (s : State), s.arg.x < 32) :=
  ⟨⟨moving 0x8F, _, _, _, by decide, rfl, by decide, by decide, by decide, by decide⟩, ⟨moving 0x0F, _, _, _, by decide, rfl, by decide⟩,
    ⟨moving 0xAF, _, _, _, by decide, rfl, by decide, by decide⟩, ⟨{}, rfl⟩, ⟨on { z := 1, l := [0, 0x40_0000, 9] }, by decide, rfl, by decide, by decide⟩,
    ⟨on { l := [0, 0, askedOf.key] } { peerReqs := [askedOf] }, by decide⟩,
    ⟨on { y := 1023 * 2 ^ 54 + 0xCF, z := 1 }, by decide, rfl, by decide⟩,
    ⟨{ page := { tlbihC := 3 } }, by decide⟩, ⟨{}, by decide⟩, ⟨{}, rfl, rfl, fun ⟨_, h, _⟩ => nomatch h⟩,
    ⟨on { y := 1 } { peerReqs := [askedOf] }, rfl, rfl, askedOf, List.mem_singleton.mpr rfl, by decide⟩,
    ⟨on { l := [1, 0, 0] } (st []), 1, 0, 0, rfl, rfl, rfl, rfl, (by rintro ⟨_, h, _⟩; cases h), (fun _ h => nomatch h), noMates (s := on { x := 1 } (st [])) rfl⟩,
    ⟨on { y := 1, l := [1, 0, 0] } { st [] with peerReqs := [askedOf] }, 1, 0, 0, rfl, rfl, rfl, rfl, askedOf, List.mem_singleton.mpr rfl, by decide⟩,
    ⟨on { l := [1, 0, 9], v := 1 } (st []), 1, 0, [9], rfl, rfl, rfl, rfl, by decide⟩, ⟨on { l := [9], v := 2 }, [9], rfl, rfl, rfl, by decide⟩,
    on { x := 31 }, by decide⟩

/-- The tables of `paged` stand in memory and are those of context `c`; the source of the event caches no translation, and the walkers no pointer
entry but as it stands in memory. -/
structure Low (s : State) (c : Nat) : Prop where
  dev : s.devNo = 0
  h4 : leNat (memRead s.mem 0x40000 8) = 0x50001
  h3 : leNat (memRead s.mem 0x50000 8) = 0xF
  g4 : leNat (memRead s.mem 0x60000 8) = 0x70001
  g3 : leNat (memRead s.mem 0x70000 8) = 0x1F
  hroot : (s.vf (s.ctx c).vf).hroot = 0x40000
  groot : (s.ctx c).groot = 0x60000
  src : 256 ≤ s.src
  tlb : tget [] s.page.tlb s.src = []
  ptrs : ∀ d, ∀ p ∈ tget [] s.page.ptrs d, p.place ≤ 0x70000 ∧ p.entry = leNat (memRead s.mem p.place 8)
  slots : s.page.slots = []

theorem low_index {v : Nat} (h : v < 2 ^ 34) : lvlIndex 4 v = 0 ∧ lvlIndex 3 v = 0 := by
  simp only [lvlIndex, bits, Nat.shiftRight_eq_div_pow]
  constructor <;> omega

/-- A pointer entry that a walker keeps is the one that stands in memory. -/
theorem low_held {s : State} {c a x : Nat} (k : Low s c) (h : heldEntry s a = some x) : x = leNat (memRead s.mem a 8) := by
  unfold heldEntry at h
  split at h
  · next p f =>
    have q : p.place = a := by simpa using List.find?_some f
    split at h
    · rw [← Option.some.inj h, (k.ptrs _ p (List.mem_of_find?_eq_some f)).2, q]
    · cases h
  · cases h

/-- A table entry reads as it stands in memory. -/
theorem low_word {s : State} {c a e : Nat} (k : Low s c) (h : leNat (memRead s.mem a 8) = e) : tableWord s a = e := by
  unfold tableWord
  cases f : heldEntry s a with
  | none => exact h
  | some x => exact (low_held k f).trans h

/-- So does the guest table entry at a place of this device. -/
theorem low_guest {s : State} {c hr gpa a lvl e : Nat} (k : Low s c) (t : tableAt s hr gpa = .ok (a, lvl)) (d : a < 2 ^ 40)
    (h : leNat (memRead s.mem a 8) = e) : guestEntry s hr gpa = .ok e := by
  simp only [guestEntry, t, k.dev, Nat.div_eq_of_lt d, if_true, h]
  cases f : heldEntry s a with
  | none => rfl
  | some x => rw [low_held k f, h]

theorem hwalk_leaf {s : State} {v lvl tbl e : Nat} (h : hentry s v lvl tbl = e)
    (a : peV e = true) (b : peBad true lvl e = false) (l : peLeaf e = true) : hwalk s v lvl tbl = .leaf e lvl := by
  cases lvl <;> simp [hwalk, hsays, h, a, b, l]

theorem hwalk_next {s : State} {v lvl tbl e : Nat} (h : hentry s v (lvl + 1) tbl = e)
    (a : peV e = true) (b : peBad true (lvl + 1) e = false) (l : peLeaf e = false) : hwalk s v (lvl + 1) tbl = hwalk s v lvl (peAddr e) := by
  simp [hwalk, hsays, h, a, b, l]

theorem low_hentry {s : State} {c v : Nat} (k : Low s c) (h : v < 2 ^ 34) : hentry s v 4 0x40000 = 0x50001 ∧ hentry s v 3 0x50000 = 0xF := by
  constructor
  · refine low_word k ?_
    rw [(low_index h).1, k.dev]; exact k.h4
  · refine low_word k ?_
    rw [(low_index h).2, k.dev]; exact k.h3

theorem low_hwalk {s : State} {c v : Nat} (k : Low s c) (h : v < 2 ^ 34) : hwalk s v 4 0x40000 = .leaf 0xF 3 :=
  (hwalk_next (low_hentry k h).1 (by decide) (by decide) (by decide)).trans (hwalk_leaf (low_hentry k h).2 (by decide) (by decide) (by decide))

theorem gwalk_leaf {s : State} {c vf hr v acc priv lvl tbl e : Nat} (t : guestEntry s hr (tbl + 8 * lvlIndex lvl v) = .ok e)
    (x : peV e = true) (b : peBad false lvl e = false) (l : peLeaf e = true) :
    gwalk s c vf hr v acc priv lvl tbl = finishWalk s c vf hr v acc priv e lvl := by
  cases lvl <;> simp [gwalk, gsays, t, x, b, l]

theorem gwalk_next {s : State} {c vf hr v acc priv lvl tbl e : Nat} (t : guestEntry s hr (tbl + 8 * lvlIndex (lvl + 1) v) = .ok e)
    (x : peV e = true) (b : peBad false (lvl + 1) e = false) (l : peLeaf e = false) :
    gwalk s c vf hr v acc priv (lvl + 1) tbl = gwalk s c vf hr v acc priv lvl (peAddr e) := by
  simp [gwalk, gsays, t, x, b, l]

theorem low_table {s : State} {c v : Nat} (k : Low s c) (h : v < 2 ^ 34) : tableAt s 0x40000 v = .ok (v, 3) := by
  have t : v.testBit 39 = false := Nat.testBit_lt_two_pow (by omega)
  unfold tableAt
  rw [low_hwalk k h]
  have m : v % 17179869184 = v := by omega
  simp [show peSt 0xF = 0 by decide, show peAddr 0xF = 0 by decide, show peDev 0xF = 0 by decide, peerUp, k.dev, lvlBits, m, t, domAddr]

/-- What a translation through these tables gives. -/
def lowLeaf (s : State) (c v : Nat) : TlbEntry := ⟨c, (s.ctx c).vf, v, 0x1F, 3, v, 0xF, 3⟩

theorem low_tables {s : State} {c v : Nat} (k : Low s c) (h : v < 2 ^ 34) :
    tableAt s 0x40000 (0x60000 + 8 * lvlIndex 4 v) = .ok (0x60000, 3) ∧
    tableAt s 0x40000 (0x70000 + 8 * lvlIndex 3 v) = .ok (0x70000, 3) := by
  rw [(low_index h).1, (low_index h).2]
  exact ⟨low_table k (by omega), low_table k (by omega)⟩

theorem low_entries {s : State} {c v : Nat} (k : Low s c) (h : v < 2 ^ 34) :
    guestEntry s 0x40000 (0x60000 + 8 * lvlIndex 4 v) = .ok 0x70001 ∧ guestEntry s 0x40000 (0x70000 + 8 * lvlIndex 3 v) = .ok 0x1F :=
  ⟨low_guest k (low_tables k h).1 (by omega) k.g4, low_guest k (low_tables k h).2 (by omega) k.g3⟩

theorem low_walk {s : State} {c v : Nat} (acc priv : Nat) (k : Low s c) (h : v < 2 ^ 34) : walk s c v acc priv = .ok 0 v (lowLeaf s c v) := by
  have l1 : leafCheck 0x1F 3 1 acc priv v = none := by
    simp [leafCheck, show peSt 0x1F = 0 by decide, show peW 0x1F = true by decide, show peX 0x1F = true by decide, show peU 0x1F = true by decide]
  have l2 : leafCheck 0xF 3 2 acc priv v = none := by
    simp [leafCheck, show peSt 0xF = 0 by decide, show peW 0xF = true by decide, show peX 0xF = true by decide]
  have f : finishWalk s c (s.ctx c).vf 0x40000 v acc priv 0x1F 3 = .ok 0 v (lowLeaf s c v) := by
    unfold finishWalk
    rw [l1]
    simp only [show peAddr 0x1F = 0 by decide, lvlBits, Nat.mod_eq_of_lt h, Nat.zero_add, low_hwalk k h, l2, show peDev 0xF = 0 by decide,
      show peAddr 0xF = 0 by decide]
    rfl
  show gwalk s c (s.ctx c).vf (s.vf (s.ctx c).vf).hroot v acc priv 4 (s.ctx c).groot = _
  rw [k.hroot, k.groot]
  exact (gwalk_next (low_entries k h).1 (by decide) (by decide) (by decide)).trans
    ((gwalk_leaf (low_entries k h).2 (by decide) (by decide) (by decide)).trans f)

theorem low_translate {s : State} {c v : Nat} (acc priv : Nat) (k : Low s c) (h : v < 2 ^ 34) : translate s c v acc priv = .ok 0 v (lowLeaf s c v) := by
  have t : tlbFind s c v = none := by simp [tlbFind, k.tlb]
  have g : gutterHas s 0 v (lowLeaf s c v) v = false := by simp [gutterHas, k.slots]
  unfold Machine.translate cachedWalk
  simp [t, low_walk acc priv k h, g]

/-! What an access leaves of these tables. -/

/-- Only the sessions of a context and what shared units served change. -/
def SameTerms (s u : State) (c : Nat) : Prop := ∃ z n, u.ctx c = { s.ctx c with sessions := z, served := n }

theorem SameTerms.refl (s : State) (c : Nat) : SameTerms s s c := ⟨_, _, rfl⟩

theorem SameTerms.trans {s t u : State} {c : Nat} : SameTerms s t c → SameTerms t u c → SameTerms s u c
  | ⟨_, _, e⟩, ⟨z, n, e'⟩ => ⟨z, n, by rw [e', e]⟩

/-- The tables are kept where the places of their entries keep their bytes. -/
theorem Low.keep {s u : State} {c : Nat} (k : Low s c) (m : ∀ a, a ≤ 0x70000 → memRead u.mem a 8 = memRead s.mem a 8) (e1 : u.devNo = s.devNo) (e2 : u.vfs = s.vfs)
    (e3 : u.src = s.src) (e4 : u.page = s.page) (e5 : SameTerms s u c) : Low u c := by
  obtain ⟨z, n, e5⟩ := e5
  have ev (n : Nat) : u.vf n = s.vf n := by simp only [State.vf, e2]
  exact ⟨e1 ▸ k.dev, by rw [m _ (by omega), k.h4], by rw [m _ (by omega), k.h3], by rw [m _ (by omega), k.g4], by rw [m _ (by omega), k.g3],
    by rw [ev, e5, k.hroot], by rw [e5, k.groot], e3 ▸ k.src, by rw [e3, e4, k.tlb],
    fun d p hp => by rw [e4] at hp; exact ⟨(k.ptrs d p hp).1, by rw [m _ (k.ptrs d p hp).1, (k.ptrs d p hp).2]⟩, e4 ▸ k.slots⟩

/-- The pointer entries that a walk through these tables meets. -/
theorem low_hpointers {s : State} {c x vf v : Nat} (k : Low s c) (h : v < 2 ^ 34) : hpointers s x vf v 4 0x40000 = [⟨x, vf, 2, 4, v, 0x40000, 0x50001⟩] := by
  have p4 : domAddr s.devNo (0x40000 + 8 * lvlIndex 4 v) = 0x40000 := by rw [(low_index h).1, k.dev]; rfl
  simp only [hpointers, ptrEntry, p4, (low_hentry k h).1, (low_hentry k h).2, show peV 0x50001 = true by decide, show peBad true (3 + 1) 0x50001 = false by decide,
    show peLeaf 0x50001 = false by decide, show peAddr 0x50001 = 0x50000 by decide, show peLeaf 0xF = true by decide, Bool.not_false, Bool.and_self,
    Bool.not_true, Bool.and_false, if_true, Bool.false_eq_true, if_false]

theorem low_gpointers {s : State} {c x vf v : Nat} (k : Low s c) (h : v < 2 ^ 34) : ∀ p ∈ gpointers s x vf 0x40000 v 4 0x60000,
    p.place ≤ 0x70000 ∧ p.entry = leNat (memRead s.mem p.place 8) := by
  have i4 : 0x60000 + 8 * lvlIndex 4 v < 2 ^ 34 := by rw [(low_index h).1]; omega
  have i3 : 0x70000 + 8 * lvlIndex 3 v < 2 ^ 34 := by rw [(low_index h).2]; omega
  intro p hp
  simp only [gpointers, low_hpointers k i4, low_hpointers k i3, (low_tables k h).1, (low_tables k h).2, (low_entries k h).1, (low_entries k h).2, ptrEntry,
    show peV 0x70001 = true by decide, show peBad false 4 0x70001 = false by decide, show peLeaf 0x70001 = false by decide, show peAddr 0x70001 = 0x70000 by decide,
    show peLeaf 0x1F = true by decide, Bool.not_false, Bool.and_self, Bool.not_true, Bool.and_false, if_true, Bool.false_eq_true, if_false, List.mem_append,
    List.mem_cons, List.not_mem_nil, or_false] at hp
  rcases hp with rfl | rfl | rfl
  · exact ⟨show 0x40000 ≤ 0x70000 by omega, k.h4.symm⟩
  · exact ⟨show 0x60000 ≤ 0x70000 by omega, k.g4.symm⟩
  · exact ⟨show 0x40000 ≤ 0x70000 by omega, k.h4.symm⟩

/-- A translation through these tables that is kept leaves them. -/
theorem low_tlbKeep {s : State} {c v dev pa : Nat} {x : TlbEntry} (k : Low s c) (hx : x = lowLeaf s c v) (h : v < 2 ^ 34) : Low (tlbKeep s (.ok dev pa x)) c := by
  obtain ⟨t, p, e⟩ := tlbKeep_spec s (.ok dev pa x)
  have et := tlbKeep_tlb s (.ok dev pa x) k.src
  have ep (d : Nat) (q : PtrEntry) (hq : q ∈ tget [] (tlbKeep s (.ok dev pa x)).page.ptrs d) := mem_tlbKeep_ptrs s hq
  rw [e] at et ep ⊢
  refine ⟨k.dev, k.h4, k.h3, k.g4, k.g3, k.hroot, k.groot, k.src, et ▸ k.tlb, fun d q hq => ?_, k.slots⟩
  rcases ep d q hq with hq | hq
  · subst hx
    rw [show (s.vf (lowLeaf s c v).vf).hroot = 0x40000 from k.hroot, show (s.ctx (lowLeaf s c v).ctx).groot = 0x60000 from k.groot] at hq
    rcases List.mem_append.mp hq with hq | hq
    · exact low_gpointers k h q hq
    · rw [show (lowLeaf s c v).gpa = v from rfl, low_hpointers k h] at hq
      obtain rfl := List.mem_singleton.mp hq
      exact ⟨show 0x40000 ≤ 0x70000 by omega, k.h4.symm⟩
  · exact k.ptrs d q hq

/-- A write above the tables goes through and leaves them. -/
theorem low_write {s : State} {c v : Nat} (bs : List Byte) (acc priv src : Nat) (k : Low s c) (h : v < 2 ^ 34) (a : 0x80000 ≤ v) (f : s.frr = [])
    (w : Memory.wf s.mem = true) : ∃ u, vwrite s c v bs acc priv src = .done u ∧ Low u c ∧ u.frr = [] ∧ Memory.wf u.mem = true ∧ SameTerms s u c := by
  have t : v.testBit 39 = false := Nat.testBit_lt_two_pow (by omega)
  have m : ∀ x, x ≤ 0x70000 → memRead (memWrite s.mem v bs) x 8 = memRead s.mem x 8 := fun x hx => by
    refine List.map_congr_left fun i hi => memGet_memWrite_outside _ _ _ w (.inl ?_)
    have := List.mem_range.mp hi
    omega
  have d : domAddr 0 v = v := by simp [domAddr]
  have bars : windowBars s (vfOfCtx s c) v bs.length true = false := by simp [windowBars, f]
  have drop : dropPlanes (physWrite s 0 v bs) v bs.length = physWrite s 0 v bs := by simp [dropPlanes, frrOn, physWrite, f]
  -- the bytes, the caches, the lost lines, the kept translation
  obtain ⟨r, hr, kr, fr, wr, cr⟩ : ∃ r, touchHome (physWrite s 0 v bs) (some c) v bs.length true = r ∧ Low r c ∧ r.frr = [] ∧ Memory.wf r.mem = true ∧ SameTerms s r c := by
    refine ⟨_, rfl, ?_⟩
    rcases touchHome_spec (physWrite s 0 v bs) (some c) v bs.length true with e | ⟨q, e⟩ <;> rw [e]
    · exact ⟨k.keep (by simp only [physWrite, d]; exact m) rfl rfl rfl rfl (.refl ..), f, memWrite_wf _ _ w, .refl ..⟩
    · have z : SameTerms s ((physWrite s 0 v bs).withCaches q) c := (physWrite s 0 v bs).withCaches_ctx q c
      exact ⟨k.keep (by simp only [State.withCaches_mem, physWrite, d]; exact m) rfl rfl rfl rfl z, f, memWrite_wf _ _ w, z⟩
  have at_ : ∃ y, writeAt s (translate s c (vaOf v) acc priv) c v bs acc src = .done y ∧ Low y c ∧ y.frr = [] ∧ Memory.wf y.mem = true ∧ SameTerms s y c := by
    rw [show vaOf v = v from Nat.mod_eq_of_lt (by omega), low_translate acc priv k h]
    simp only [writeAt, peerUp, k.dev, beq_self_eq_true, Bool.true_or, Bool.not_true, Bool.false_eq_true, if_false, t, bars, drop, hr, ne_eq, not_true_eq_false]
    refine ⟨_, rfl, ?_⟩
    split
    · unfold mendLines
      split
      · exact ⟨kr, fr, wr, cr⟩
      · exact ⟨kr.keep (fun _ _ => rfl) rfl rfl rfl rfl (.refl ..), fr, wr, cr⟩
    · exact ⟨kr, fr, wr, cr⟩
  obtain ⟨y, hy, ky, fy, wy, cy⟩ := at_
  have x : lowLeaf s c v = lowLeaf y c v := by obtain ⟨_, _, e⟩ := cy; simp only [lowLeaf, e]
  refine ⟨tlbKeep y (.ok 0 v (lowLeaf s c v)), ?_, low_tlbKeep ky x h, ?_⟩
  · simp only [vwrite, hy]
    rw [show vaOf v = v from Nat.mod_eq_of_lt (by omega), low_translate acc priv k h]
  · obtain ⟨_, _, e⟩ := tlbKeep_spec y (.ok 0 v (lowLeaf s c v))
    rw [e]
    exact ⟨fy, wy, cy⟩

theorem pieces_one {v n : Nat} (h0 : 0 < n) (h : v % 65536 + n ≤ 65536) : piecesOf v n = [(v, 0, n)] := by
  have m : min n (65536 - v % 65536) = n := by omega
  simp [piecesOf, pieces, m, show ¬n = 0 by omega]

theorem imageRegs_length (x : Ctx) : (imageRegs x).length = 16320 := by
  simp only [imageRegs, upto, natLe_length, List.length_flatMap, List.length_append, List.length_replicate, List.map_const', List.sum_replicate,
    List.length_range, smul_eq_mul]

/-- A part of an image that lies in one page is written. -/
theorem low_part {s : State} {c off : Nat} (bs : List Byte) (k : Low s c) (e : (s.ctx c).imgva = 0x10_0000) (o : off < 2 ^ 30) (h0 : 0 < bs.length)
    (p : off % 65536 + bs.length ≤ 65536) (f : s.frr = []) (w : Memory.wf s.mem = true) :
    ∃ u, writePart s c off bs = .done u ∧ Low u c ∧ u.frr = [] ∧ Memory.wf u.mem = true ∧ SameTerms s u c := by
  obtain ⟨u, hu, r⟩ := low_write (v := 0x10_0000 + off) bs aEWRITE 1 (rafterSrc s) k (by omega) (by omega) f w
  refine ⟨u, ?_, r⟩
  rw [writePart, e, pieces_one h0 (by omega)]
  simp only [List.foldl_cons, List.foldl_nil, SaveRes.andThen, List.drop_zero, List.take_length, hu]

/-- The header of a context whose area is mapped is written. -/
theorem low_image {s : State} {c : Nat} (k : Low s c) (e : (s.ctx c).imgva = 0x10_0000) (z : (s.ctx c).imgsz = 592) (f : s.frr = [])
    (w : Memory.wf s.mem = true) : imageMapped s c = true ∧ ∃ u, writeHeader s c 0 = .done u := by
  constructor
  · refine List.all_eq_true.mpr fun i hi => ?_
    have hi := List.mem_range.mp hi
    rw [z] at hi
    rw [e, low_walk _ _ k (by omega)]
    simp [show (1048576 + 65536 * i).testBit 39 = false from Nat.testBit_lt_two_pow (by omega)]
  · obtain ⟨u, hu, ku, fu, wu, _, _, cu⟩ := low_part (off := 64) (imageRegs (s.ctx c)) k e (by omega) (by rw [imageRegs_length]; omega)
      (by rw [imageRegs_length]; omega) f w
    have l : (imageHeader u c (imageRegs (s.ctx c)) ((s.ctx c).imgGts.getD 0)).length = 64 := natLe_length ..
    obtain ⟨v, hv, _⟩ := low_part (off := 0) (imageHeader u c (imageRegs (s.ctx c)) ((s.ctx c).imgGts.getD 0)) ku (by rw [cu, e]) (by omega) (by rw [l]; omega) (by rw [l]; omega) fu wu
    exact ⟨v, by simp only [writeHeader, hu, SaveRes.andThen, hv]⟩

/-- A CREATE for context 0 of VF 0 is due, whose record at guest-physical address 0x3000 names these tables and an image area at 0x10_0000. -/
def creating : State :=
  { on { x := 0 } (paged 0x3000 (natLe 64 (0x60000 + 0x10 * 2 ^ 64 + 592 * 2 ^ 128 + 2 ^ 160)) {}) with
    vfs := [(0, { en := true, idcnt := 1, hroot := 0x40000, carg := 0x3000 })], ctxs := [] }

theorem wit_create : ∃ (s u : State) (n c : Nat) (r : List Byte), Commands s n c ∧ (s.ctx c).st = .free ∧
    readAt s (pageWalk s (ringCtx n c) ((s.vf n).carg % 2 ^ 48 / 64 * 64) aLOAD) (ringCtx n c) 64 aLOAD = .done r ∧ ctxRecordBad r = false ∧
    imageMapped (newContext s n c r) c = true ∧ writeHeader (newContext s n c r) c 0 = .done u := by
  have low : Low (newContext creating 0 0 (natLe 64 (0x60000 + 0x10 * 2 ^ 64 + 592 * 2 ^ 128 + 2 ^ 160))) 0 :=
    ⟨rfl, by decide +kernel, by decide +kernel, by decide +kernel, by decide +kernel, rfl, by decide +kernel, by decide, rfl, (fun _ _ h => nomatch h), rfl⟩
  obtain ⟨m, u, hu⟩ := low_image low (by decide +kernel) (by decide +kernel) rfl (by decide +kernel)
  exact ⟨creating, u, 0, 0, _, ⟨rfl, rfl, by decide, rfl, rfl, by decide, by decide⟩, rfl, by decide +kernel, by decide +kernel, m, hu⟩

/-- The window of VF 0 names context 5, in the state given. -/
def commanding (x : Ctx) (arg : Nat := 0) (c : Nat := 5) : State :=
  { vfs := [(0, { en := true, idbase := 5, idcnt := 4091, cctx := c, carg := arg })], ctxs := [(5, x)] }

theorem commands (x : Ctx) (arg : Nat) : Commands (commanding x arg) 0 5 := ⟨rfl, rfl, by decide, rfl, rfl, Nat.le_refl _, by show 5 < 5 + 4091; omega⟩

theorem wit_context_commands :
    (∃ (i : Instr) (p : CtxState → Bool) (s : State) (n : Nat), commandForm i = some p ∧ s.arg.x = n ∧ s.arg.y = 0 ∧ n < 64 ∧
      ((s.vf n).en = false ∨ (s.vf n).cctx < (s.vf n).idbase ∨ (s.vf n).idbase + (s.vf n).idcnt ≤ (s.vf n).cctx)) ∧
    (∃ (i : Instr) (p : CtxState → Bool) (s : State) (n c : Nat), commandForm i = some p ∧ Commands s n c ∧ p (s.ctx c).st = false) ∧
    (∃ (s : State), s.arg.x < 64) ∧
    (∃ (s : State) (n c : Nat), Commands s n c ∧ (s.ctx c).st = .created) ∧
    (∃ (s : State) (n c : Nat), Commands s n c ∧ ((s.ctx c).st = .runnable ∨ (s.ctx c).st = .running) ∧ residentBlocks s c = []) ∧
    (∃ (s : State) (n c : Nat), Commands s n c ∧ (s.ctx c).st = .suspended) ∧
    (∃ (s : State) (n c : Nat), Commands s n c ∧ (s.ctx c).st ≠ .free ∧ (s.ctx c).st ≠ .destroyed) ∧
    (∃ (s : State) (n c : Nat), Commands s n c ∧ (s.ctx c).st = .suspended ∧ lacksEvents s c ((s.vf n).carg / 64 % 1024) = true) ∧
    (∃ (s : State) (n c : Nat), Commands s n c ∧ (s.ctx c).st = .suspended ∧ lacksEvents s c ((s.vf n).carg / 64 % 1024) = false ∧
      residentBlocks s c = []) ∧
    (∃ (s : State), s.arg.y = 0 ∧ (s.ctx s.arg.x).st = .migrating ∧ (s.ctx s.arg.x).saving = false) ∧
    (∃ (s : State), s.arg.y ≠ 1 ∧ (s.ctx s.arg.x).st = .migrating) :=
  ⟨⟨.create, _, commanding {} 0 4, 0, rfl, rfl, rfl, by decide, by decide⟩, ⟨.suspend, _, commanding { st := .created }, 0, 5, rfl, commands _ _, by decide⟩,
    ⟨on { x := 63 }, by decide⟩, ⟨commanding { st := .created }, 0, 5, commands _ _, rfl⟩,
    ⟨commanding { st := .running }, 0, 5, commands _ _, .inr rfl, rfl⟩, ⟨commanding { st := .suspended }, 0, 5, commands _ _, rfl⟩,
    ⟨commanding { st := .faulted }, 0, 5, commands _ _, by decide, by decide⟩,
    ⟨commanding { st := .suspended, sessions := [(0, { isOpen := true, sel := [(0, 1)] })] } 64, 0, 5, commands _ _, rfl, by decide⟩,
    ⟨commanding { st := .suspended } 64, 0, 5, commands _ _, rfl, by decide, rfl⟩,
    ⟨on { x := 5 } (commanding { st := .migrating }), rfl, rfl, rfl⟩, on { x := 5 } (commanding { st := .migrating }), by decide, rfl⟩

/-- A RUNNING context 0 of VF 0 with a packet that has been taken. -/
def busyCtx (progress : Nat) : State :=
  { gts := 500000000, ctxs := [(0, { st := .running, progress := progress, queues := [(0, { taken := [{ idx := 0, bytes := List.replicate 64 0 }] })] })] }

theorem wit_functions :
    (∃ (s : State), s.arg.x < 64 ∧ s.arg.y = 0 ∧
      vfcfgRefused s s.arg.x { s.vf s.arg.x with en := s.arg.v.getLsbD 0, idbase := fld s.arg.v 27 16, idcnt := fld s.arg.v 44 32, eper := max 1 (min 1000 (fld s.arg.v 63 48)) } = true) ∧
    (∃ (s : State), s.arg.x < 64 ∧ s.arg.y = 0 ∧
      vfcfgRefused s s.arg.x { s.vf s.arg.x with en := s.arg.v.getLsbD 0, idbase := fld s.arg.v 27 16, idcnt := fld s.arg.v 44 32, eper := max 1 (min 1000 (fld s.arg.v 63 48)) } = false) ∧
    (∃ (s : State), (s.ctx s.arg.x).st = .running ∧ (s.ctx s.arg.x).stops = [] ∧ outstanding (s.ctx s.arg.x) = true ∧
      (s.vf (s.ctx s.arg.x).vf).wdog ≠ 0 ∧ (s.vf (s.ctx s.arg.x).vf).wdog * 1000000 ≤ s.gts - (s.ctx s.arg.x).progress) ∧
    (∃ (s : State), (s.ctx s.arg.x).st = .running ∧ (s.ctx s.arg.x).stops = [] ∧ outstanding (s.ctx s.arg.x) = true ∧
      (s.vf (s.ctx s.arg.x).vf).wdog ≠ 0 ∧ s.gts - (s.ctx s.arg.x).progress < (s.vf (s.ctx s.arg.x).vf).wdog * 1000000) ∧
    (∃ (s : State), (s.ctx s.arg.x).st = .faulted ∧ (s.ctx s.arg.x).held = false ∧ (s.ctx s.arg.x).resetting = true) ∧
    (∃ (s : State), s.arg.x < 64 ∧ (s.vf s.arg.x).en = true) :=
  ⟨⟨on { x := 63, v := 0x0064_1001_0000_0001 }, by decide, rfl, by decide⟩, ⟨on { x := 63, v := 0x0064_1000_0000_0001 }, by decide, rfl, by decide⟩,
    ⟨busyCtx 0, rfl, rfl, by decide, by decide, by decide⟩, ⟨busyCtx 1, rfl, rfl, by decide, by decide, by decide⟩,
    ⟨{ ctxs := [(0, { st := .faulted, resetting := true })] }, rfl, rfl, rfl⟩, on { x := 63 } { vfs := [(63, { en := true })] }, by decide, rfl⟩

/-- A peer's prices of stamp 3, received in interval 0. -/
def offer : PeerPrice := { stamp := 3, received := 0, prices := [], free := [], evav0 := 0, evav1 := 0 }

theorem wit_market :
    (∃ (s : State), s.arg.x ≠ 1 ∧ s.mkt.results ≠ [] ∧ s.ctxs = [] ∧ s.blks = [] ∧ s.mkt.moves = []) ∧
    (∃ (s : State), s.arg.x ≠ 1 ∧ s.mkt.results = []) ∧
    (∃ (s : State) (n : Nat), n < 64 ∧ (s.vf n).en = true) ∧ (∃ (s : State) (n : Nat), n < 64 ∧ (s.vf n).en = false) ∧
    (∃ (s : State), s.arg.x < 5 ∧ s.arg.y < 4096 ∧ (s.mkt.unit s.arg.x s.arg.y).handover = true ∧ unitBlocks s s.arg.x s.arg.y = [] ∧ s.ctxs = []) ∧
    (∃ (s : State), s.arg.x < 5 ∧ (s.mkt.unit s.arg.x s.arg.y).handover = false) ∧
    (∃ (s : State), s.arg.x < 576 ∧ ∀ o, tfind s.mkt.peers s.arg.x = some o → o.stamp < s.arg.y) ∧
    (∃ (s : State) (o : PeerPrice), s.arg.x < 576 ∧ tfind s.mkt.peers s.arg.x = some o ∧ s.arg.y ≤ o.stamp) ∧
    (∃ (s : State) (e : PeerPrice), tfind s.mkt.peers s.arg.x = some e ∧ e.received + 64 ≤ s.mkt.count) :=
  ⟨⟨{ mkt := { results := [(1, 2)] } }, by decide, by decide, rfl, rfl, rfl⟩, ⟨{}, by decide, rfl⟩, ⟨{ vfs := [(63, { en := true })] }, 63, by decide, rfl⟩,
    ⟨{}, 63, by decide, rfl⟩, ⟨on { x := 1, y := 1791 } { mkt := { units := [(4096 + 1791, { handover := true })] } }, by decide, by decide, rfl, rfl, rfl⟩,
    ⟨on { x := 4 }, by decide, rfl⟩,
    ⟨on { x := 575 }, by decide, fun _ h => nomatch h⟩,
    ⟨on { x := 575, y := 3 } { mkt := { peers := [(575, offer)] } }, _, by decide, rfl, by decide⟩,
    ⟨on { x := 575 } { mkt := { count := 64, peers := [(575, offer)] } }, _, rfl, by decide⟩⟩

/-- Context 0 RUNNING with its lowest memory mapped, bytes at 0x3000 and a queue 2, and an event of the queue. -/
def queueing (k : Queue) (a : Arg := {}) (bs : List Byte := []) (x : Ctx → Ctx := id) : State :=
  on { a with y := 2 } (paged 0x3000 bs {} (fun c => x { c with queues := [(2, k)], wrtb := 0x4000 }))

theorem wit_queues :
    (∃ (s : State), (theQueue s s.arg).st ≠ 0 ∧ (s.ctx s.arg.x).st ≠ .free ∧ (s.ctx s.arg.x).st ≠ .destroyed ∧
      (s.arg.v.toNat % 2 ^ 32 + 2 ^ 32 - (theQueue s s.arg).ckpt) % 2 ^ 32 ≤ qSize (theQueue s s.arg)) ∧
    (∃ (s : State), (theQueue s s.arg).st ≠ 0 ∧ (s.ctx s.arg.x).st ≠ .free ∧ (s.ctx s.arg.x).st ≠ .destroyed ∧
      qSize (theQueue s s.arg) < (s.arg.v.toNat % 2 ^ 32 + 2 ^ 32 - (theQueue s s.arg).ckpt) % 2 ^ 32 ∧ (theQueue s s.arg).st ≠ 4 ∧
      (theQueue s s.arg).st ≠ 5) ∧
    (∃ (s : State), (s.ctx s.arg.x).st ≠ .free ∧ 13 ≤ fld (qcfgBits s.arg.v) 7 4) ∧
    (∃ (s : State), (s.ctx s.arg.x).st ≠ .free ∧ fld (qcfgBits s.arg.v) 7 4 < 13 ∧ (theQueue s s.arg).cfg.getLsbD 0 = false ∧
      (qcfgBits s.arg.v).getLsbD 0 = true ∧ (theQueue s s.arg).st ≠ 5 ∧ (theQueue s s.arg).running ≠ []) ∧
    (∃ (s : State), (s.ctx s.arg.x).st ≠ .free ∧ fld (qcfgBits s.arg.v) 7 4 < 13 ∧ fld (qcfgBits s.arg.v) 7 4 = fld (theQueue s s.arg).cfg 7 4 ∧
      fld (qcfgBits s.arg.v) 56 12 = fld (theQueue s s.arg).cfg 56 12 ∧ (theQueue s s.arg).cfg.getLsbD 0 = true ∧
      (qcfgBits s.arg.v).getLsbD 0 = false ∧ (theQueue s s.arg).st ≠ 5) ∧
    (∃ (i : Instr) (s : State), (i = .retry ∨ i = .skip) ∧ (theQueue s s.arg).st = 4 ∧ (theQueue s s.arg).fails = [] ∧ (theQueue s s.arg).ecode ≠ 3 ∧
      (theQueue s s.arg).entry (theQueue s s.arg).eidx (theQueue s s.arg).eib = none ∧ (theQueue s s.arg).ibuf = none ∧ (theQueue s s.arg).eib = 0 ∧
      ∀ e ∈ (theQueue s s.arg).taken, e.idx ≠ (theQueue s s.arg).eidx) ∧
    (∃ (s : State) (c q : Nat) (r : List (Nat × Nat)), s.arg.y = 0 ∧ s.evq = (c, q) :: r ∧ ((s.ctx c).queue q).locked = true) :=
  ⟨⟨queueing { cfg := 0x3001, st := 1, ckpt := 0xFFFF_FFFF } { v := 15 }, by decide, by decide, by decide, by decide⟩,
    ⟨queueing { cfg := 0x3001, st := 1, ckpt := 0xFFFF_FFFF } { v := 16 }, by decide, by decide, by decide, by decide, by decide, by decide⟩,
    ⟨queueing {} { v := 0x30D1 }, by decide, by decide⟩, ⟨queueing { old := [{ idx := 3 }] } { v := 0x30C1 }, by decide, by decide, by decide, by decide, by decide, by decide⟩,
    ⟨queueing { cfg := 0x30C1, st := 2 } { v := 0x30C0 }, by decide, by decide, by decide, by decide, by decide, by decide, by decide⟩,
    ⟨.skip, queueing { cfg := 0x3001, st := 4, ecode := 1, econt := 3, head := 0xFFFF_FFFF, eidx := 0xFFFF_FFFF, taken := [{ idx := 0xFFFF_FFFE }] }, .inr rfl, rfl, rfl, by decide,
      rfl, rfl, rfl, by decide⟩,
    { queueing { cfg := 0x3001, st := 2, locked := true } with evq := [(0, 2)], arg := {} }, 0, 2, [], rfl, rfl, rfl⟩

theorem wit_rafter : ∃ (s : State) (c q : Nat) (bs : List Byte), s.arg.y = 1 ∧ s.arg.z = 16 * c + q ∧ q < 16 ∧ ((s.ctx c).queue q).locked = false ∧
    ((s.ctx c).queue q).st = 2 ∧ ((s.ctx c).queue q).cfg.getLsbD 0 = true ∧ (s.ctx c).st = .running ∧ ((s.ctx c).queue q).taken = [] ∧
    ((s.ctx c).queue q).again = [] ∧ ((s.ctx c).queue q).ibuf = none ∧ ((s.ctx c).queue q).startOff = 0 ∧ ((s.ctx c).queue q).head < 2 ^ 32 ∧
    ((s.ctx c).queue q).head ≠ ((s.ctx c).queue q).tail ∧
    vread s c (qRing ((s.ctx c).queue q) + 64 * (((s.ctx c).queue q).head % qSize ((s.ctx c).queue q))) 64 aLOAD 0 = .done bs ∧ fieldsOk bs = true ∧
    1 + contSlots bs ≤ (((s.ctx c).queue q).tail + 2 ^ 32 - ((s.ctx c).queue q).head) % 2 ^ 32 ∧ takeBar s c q ((s.ctx c).queue q).head 0 bs = none := by
  refine ⟨{ queueing { cfg := 0x3001, st := 2, tail := 0, head := 0xFFFF_FFF0 } {} (natLe 64 9) with arg := { y := 1, z := 2 } }, 0, 2, natLe 64 9, rfl, rfl,
    by decide, rfl, rfl, rfl, rfl, rfl, rfl, rfl, rfl, by decide, by decide, ?_, ?_, ?_, ?_⟩ <;> decide +kernel

/-- The event of a packet at the place of HEAD. -/
def packing (pkt : List Byte) (bs : List Byte := []) (x : Ctx → Ctx := id) : State :=
  queueing { cfg := 0x3801, st := 2, locked := true, tail := 1 } { data := pkt } bs x

theorem takes (pkt bs : List Byte) (x : Ctx → Ctx) (h : packetStands (packing pkt bs x) 0 2 0 = true)
    (k : ((packing pkt bs x).ctx 0).queue 2 = { cfg := 0x3801, st := 2, locked := true, tail := 1 }) : TakesHead (packing pkt bs x) := by
  refine ⟨h, ?_, ?_, ?_, ?_, rfl⟩ <;> rw [show (packing pkt bs x).arg.x = 0 from rfl, show (packing pkt bs x).arg.y = 2 from rfl, k]
  · rfl
  · decide

/-- A LAUNCH of entry 5 alone: descriptor at 0x3000, record at 0x3080. -/
def launchPkt : List Byte := natLe 32 (1 + 0x3000 * 2 ^ 128 + 0x3080 * 2 ^ 192) ++ natLe 32 0xFFFF_FFFF_FFFF_0005

/-- The event of a packet at HEAD whose launch 0 has feed 0 with room for one record. -/
def feeding (c : Ctx) : Ctx := { c with launches := [(0, { feedsN := 1, feeds := [(0, { depth := 1 })] })] }

theorem wit_packets :
    (∃ (s : State), s.arg.u = 1) ∧
    (∃ (s : State) (n f : Nat) (fd : Feed), TakesHead s ∧ feedOf s s.arg.x s.arg.data = some (n, f, fd) ∧ s.arg.data.length = 64 ∧
      pk s.arg.data 35 35 = 1 ∧ pk s.arg.data 36 36 = 0 ∧ pk s.arg.data 159 144 = 1 ∧ fd.recs.length < fd.depth ∧ fd.sleepers = []) ∧
    (∃ (s : State), TakesHead s) ∧
    (∃ (s : State) (core : Nat), TakesHead s ∧ packetCore s s.arg.x = some core) ∧
    (∃ (s : State), TakesHead s ∧ pk s.arg.data 33 32 = 0 ∧ pk s.arg.data 79 64 ≠ 0xFFFF ∧ pk s.arg.data 79 64 < wrSize (s.ctx s.arg.x) ∧
      thas (s.ctx s.arg.x).launches (pk s.arg.data 79 64) = true ∧ (tkeys (s.ctx s.arg.x).launches).Nodup) ∧
    (∃ (s : State), TakesHead s ∧ canonicalAddr (pk s.arg.data 127 64) = false) := by
  refine ⟨⟨on { u := 1 }, rfl⟩,
    ⟨packing (natLe 64 (2 + 2 ^ 35 + 2 ^ 144)) [] feeding, 0, 0, { depth := 1 }, takes _ _ _ ?_ rfl, ?_, ?_, ?_, ?_, ?_, by decide, rfl⟩,
    ⟨packing (natLe 64 4), takes _ _ _ ?_ rfl⟩,
    ⟨{ packing (natLe 64 6) with mkt := { units := [(3, { holder := some 0 })] } }, 6, ⟨?_, rfl, rfl, rfl, by decide, rfl⟩, ?_⟩,
    ⟨packing (natLe 64 8) [] feeding, takes _ _ _ ?_ rfl, ?_, ?_, ?_, ?_, ?_⟩,
    ⟨packing (natLe 64 (10 + 2 ^ 32 + 2 ^ 121)), takes _ _ _ ?_ rfl, ?_⟩⟩ <;> decide +kernel

theorem wit_writing_packets :
    (∃ (s u w : State), TakesHead s ∧
      vwrite s s.arg.x (pk s.arg.data 127 64 + 8) (natLe 24 (s.gts + s.arg.y * 2 ^ 96 + s.arg.x * 2 ^ 100)) aSTORE 0 (rafterSrc s) = .done u ∧
      vwrite u s.arg.x (pk s.arg.data 127 64) (natLe 8 (pk s.arg.data 191 128)) aSTORE 0 (rafterSrc s) = .done w) ∧
    (∃ (s w : State), TakesHead s ∧ pk s.arg.data 33 32 = 0 ∧
      vwrite s s.arg.x (pk s.arg.data 127 64) (natLe 8 (pk s.arg.data 191 128)) aSTORE 0 (rafterSrc s) = .done w) ∧
    (∃ (s w : State) (bs : List Byte), TakesHead s ∧ pk s.arg.data 33 32 = 1 ∧
      signalPeer s s.arg.x (pk s.arg.data 127 64) 13 (pk s.arg.data 191 128) = none ∧ vread s s.arg.x (pk s.arg.data 127 64) 8 aATOM 0 = .done bs ∧
      vwrite s s.arg.x (pk s.arg.data 127 64) (natLe 8 ((leNat bs + pk s.arg.data 191 128) % 2 ^ 64)) aATOM 0 (rafterSrc s) = .done w) ∧
    (∃ (s w : State), TakesHead s ∧ NoTrace s ∧ pk s.arg.data 127 64 ≠ 0 ∧
      vwrite s s.arg.x (pk s.arg.data 127 64) (natLe 8 s.gts) aSTORE 0 (rafterSrc s) = .done w) := by
  have low (pkt : List Byte) : Low (packing pkt) 0 :=
    ⟨rfl, (by decide : leNat (memRead (packing []).mem 0x40000 8) = 0x50001), (by decide : leNat (memRead (packing []).mem 0x50000 8) = 0xF),
      (by decide : leNat (memRead (packing []).mem 0x60000 8) = 0x70001), (by decide : leNat (memRead (packing []).mem 0x70000 8) = 0x1F), rfl, rfl,
      (by decide : 256 ≤ 768), rfl, (fun _ _ h => nomatch h), rfl⟩
  have wf (pkt : List Byte) : Memory.wf (packing pkt).mem = true := (by decide : Memory.wf (packing []).mem = true)
  have p3 : pk (natLe 64 (3 + 0x8_0000 * 2 ^ 64)) 127 64 = 0x8_0000 := by decide +kernel
  have p7 : pk (natLe 64 (7 + 0x8_0000 * 2 ^ 64)) 127 64 = 0x8_0000 := by decide +kernel
  have p71 : pk (natLe 64 (7 + 2 ^ 32 + 0x8_0000 * 2 ^ 64)) 127 64 = 0x8_0000 := by decide +kernel
  have p9 : pk (natLe 64 (9 + 0x8_0000 * 2 ^ 64)) 127 64 = 0x8_0000 := by decide +kernel
  obtain ⟨u, hu, ku, fu, wu, _⟩ := low_write (v := 0x8_0008) (natLe 24 (2 * 2 ^ 96)) aSTORE 0 768 (low (natLe 64 (3 + 0x8_0000 * 2 ^ 64))) (by omega) (by omega) rfl (wf _)
  obtain ⟨w, hw, _⟩ := low_write (v := 0x8_0000) (natLe 8 (pk (natLe 64 (3 + 0x8_0000 * 2 ^ 64)) 191 128)) aSTORE 0 768 ku (by omega) (by omega) fu wu
  obtain ⟨w7, hw7, _⟩ := low_write (v := 0x8_0000) (natLe 8 (pk (natLe 64 (7 + 0x8_0000 * 2 ^ 64)) 191 128)) aSTORE 0 768 (low (natLe 64 (7 + 0x8_0000 * 2 ^ 64)))
    (by omega) (by omega) rfl (wf _)
  obtain ⟨w71, hw71, _⟩ := low_write (v := 0x8_0000) (natLe 8 ((0 + pk (natLe 64 (7 + 2 ^ 32 + 0x8_0000 * 2 ^ 64)) 191 128) % 2 ^ 64)) aATOM 0 768
    (low (natLe 64 (7 + 2 ^ 32 + 0x8_0000 * 2 ^ 64))) (by omega) (by omega) rfl (wf _)
  obtain ⟨w9, hw9, _⟩ := low_write (v := 0x8_0000) (natLe 8 0) aSTORE 0 768 (low (natLe 64 (9 + 0x8_0000 * 2 ^ 64))) (by omega) (by omega) rfl (wf _)
  refine ⟨⟨packing (natLe 64 (3 + 0x8_0000 * 2 ^ 64)), u, w, takes _ _ _ (by decide +kernel) rfl, ?_, ?_⟩,
    ⟨packing (natLe 64 (7 + 0x8_0000 * 2 ^ 64)), w7, takes _ _ _ (by decide +kernel) rfl, by decide +kernel, ?_⟩,
    ⟨packing (natLe 64 (7 + 2 ^ 32 + 0x8_0000 * 2 ^ 64)), w71, List.replicate 8 0, takes _ _ _ (by decide +kernel) rfl, by decide +kernel, by decide +kernel,
      by decide +kernel, ?_⟩,
    ⟨packing (natLe 64 (9 + 0x8_0000 * 2 ^ 64)), w9, takes _ _ _ (by decide +kernel) rfl, by unfold NoTrace; rfl, by decide +kernel, ?_⟩⟩
  · show vwrite _ 0 (pk (natLe 64 (3 + 0x8_0000 * 2 ^ 64)) 127 64 + 8) _ _ _ _ = _
    rw [p3]; exact hu
  · show vwrite _ 0 (pk (natLe 64 (3 + 0x8_0000 * 2 ^ 64)) 127 64) _ _ _ _ = _
    rw [p3]; exact hw
  · show vwrite _ 0 (pk (natLe 64 (7 + 0x8_0000 * 2 ^ 64)) 127 64) _ _ _ _ = _
    rw [p7]; exact hw7
  · show vwrite _ 0 (pk (natLe 64 (7 + 2 ^ 32 + 0x8_0000 * 2 ^ 64)) 127 64) _ _ _ _ = _
    rw [p71]; exact hw71
  · show vwrite _ 0 (pk (natLe 64 (9 + 0x8_0000 * 2 ^ 64)) 127 64) _ _ _ _ = _
    rw [p9]; exact hw9

theorem wit_dtload_packet : ∃ (s : State) (bs : List Byte), TakesHead s ∧ canonicalAddr (pk s.arg.data 127 64) = true ∧ vread s s.arg.x (pk s.arg.data 127 64) 2048 aLOAD 0 = .done bs ∧
    ∀ n, n < 1024 → entryOk (leNat ((bs.drop (2 * n)).take 2)) = true := by
  refine ⟨packing (natLe 64 (10 + 2 ^ 32 + 0x8_0000 * 2 ^ 64)), List.replicate 2048 0, takes _ _ _ (by decide +kernel) rfl, by decide +kernel,
    by decide +kernel, fun n _ => ?_⟩
  rw [List.drop_replicate, List.take_replicate, leNat_zeros]
  rfl

/-- A WAIT on the 8 bytes at 0x3000 for the value 1. -/
def aWait : Taken := { idx := 0, bytes := natLe 64 (4 + 2 ^ 48 + 0x3000 * 2 ^ 128 + 2 ^ 192 + 2 ^ 256) }

/-- That WAIT has blocked its queue since its take, and its time is up. -/
def blocked (v : Nat) : State := queueing { cfg := 0x3001, st := 3, reason := 2, tail := 1, taken := [aWait] } {} (natLe 8 v)

theorem wit_waiting_packets :
    (∀ holds : Bool, ∃ (s : State) (e : Taken) (bs : List Byte), (theQueue s s.arg).entry (keyIdx s.arg.z) (keyIb s.arg.z) = some e ∧ pkType e.bytes = 4 ∧
      (theQueue s s.arg).st = 3 ∧ (openWait (theQueue s s.arg)).isSome = true ∧ (s.ctx s.arg.x).st = .running ∧ s.arg.u = 0 ∧
      vread s s.arg.x (pk e.bytes 191 128) 8 aLOAD 0 = .done bs ∧ waitHolds e.bytes (leNat bs) = holds) ∧
    (∃ (s : State) (e : Taken) (bs : List Byte), (theQueue s s.arg).entry (keyIdx s.arg.z) (keyIb s.arg.z) = some e ∧ e.ib = 0 ∧ pkType e.bytes = 4 ∧
      e.deadline = s.gts ∧ (theQueue s s.arg).st = 3 ∧ (openWait (theQueue s s.arg)).isSome = true ∧ hasFailed (theQueue s s.arg) e = false ∧
      (s.ctx s.arg.x).st = .running ∧ vread s s.arg.x (pk e.bytes 191 128) 8 aLOAD 0 = .done bs ∧ waitHolds e.bytes (leNat bs) = false) := by
  refine ⟨fun holds => ⟨blocked holds.toNat, aWait, natLe 8 holds.toNat, ?_, ?_, ?_, ?_, ?_, ?_, ?_, ?_⟩,
    blocked 0, aWait, natLe 8 0, rfl, rfl, ?_, rfl, rfl, ?_, ?_, rfl, ?_, ?_⟩
  any_goals cases holds
  all_goals decide +kernel

/-- Cluster 0 is powered and held by context 0. -/
def holding (s : State) : State := { s with mkt := { s.mkt with units := [(0, { holder := some 0 })] }, power := { s.power with clusters := [(0, { powered := true })] } }

/-- Context 0 RUNNING with one launch of one block, a gang or not, that waits. -/
def dispatching (gang : Bool) : State :=
  holding { ctxs := [(0, { st := .running, queues := [(0, { cfg := 1 })], launches := [(5, { entry := 5, target := 1, grps := 64, acc := 8, bco := gang })], maxclu := 1 })]
            mkt := {} }

/-- A message for a handler at 0x40. -/
def aMsg : QMsg := { sender := [0, 1, 2, 3, 4, 5], pc := 0x40, xreg := false, payload := [1, 2] }

/-- Context 0 RUNNING with a message that waits. -/
def receiving (m : QMsg) : State := holding { ctxs := [(0, { st := .running, msgs := [m], maxclu := 1 })], mkt := {} }

/-- What a dispatch decision asks of its context. -/
def Deciding (s : State) : Prop := (s.ctx s.arg.x).st = .running ∧ (s.ctx s.arg.x).noDispatch = false

theorem wit_dispatch :
    (∃ (s : State) (n : Nat) (l : Launch) (p : Place), Deciding s ∧ (s.ctx s.arg.x).msgs = [] ∧ (launchTurn (s.ctx s.arg.x)).head? = some (n, l) ∧
      l = (s.ctx s.arg.x).launch n ∧ l.bco = false ∧ findPlace s s.arg.x (launchNeed (s.ctx s.arg.x) l) = some p) ∧
    (∃ (s u : State) (n : Nat) (l : Launch), Deciding s ∧ (s.ctx s.arg.x).msgs = [] ∧ (launchTurn (s.ctx s.arg.x)).head? = some (n, l) ∧
      l = (s.ctx s.arg.x).launch n ∧ l.bco = true ∧ l.next < l.target ∧ dispatchGang s s.arg.x n = some u) ∧
    (∃ (s u : State) (m : QMsg) (ms : List QMsg), Deciding s ∧ (s.ctx s.arg.x).msgs = m :: ms ∧ spawnMsg s s.arg.x m = some u) ∧
    (∃ (s : State), Deciding s ∧ (s.ctx s.arg.x).msgs = [] ∧ launchTurn (s.ctx s.arg.x) ≠ [] ∧
      ∀ e ∈ launchTurn (s.ctx s.arg.x), dispatchFrom s s.arg.x e.1 = none) ∧
    (∃ (s : State), s.arg.x < 256 ∧ coreBlocks s s.arg.x = [] ∧ (s.core s.arg.x).idleSince + 10000 ≤ s.gts ∧ (s.core s.arg.x).gate = 0) ∧
    (∃ (s : State), s.arg.x < 256 ∧ (s.core s.arg.x).gate = 1) ∧
    (∃ (s : State) (n e : Nat), (s.blk s.arg.x).core = some n ∧ (∀ j ∈ (s.blk s.arg.x).groupIds, (s.grp s.arg.x j).done = true) ∧
      blockBusy s s.arg.x = false ∧ dirtyLines (s.blk s.arg.x) = [] ∧ (∀ p ∈ (s.core n).xacqQ, p.1 ≠ s.arg.x) ∧ (s.blk s.arg.x).launch = some e ∧
      thas (s.ctx (s.blk s.arg.x).ctx).launches e = true ∧
      ((s.ctx (s.blk s.arg.x).ctx).launch e).count + 1 < ((s.ctx (s.blk s.arg.x).ctx).launch e).target) := by
  obtain ⟨p, hp⟩ := Option.isSome_iff_exists.mp
    (show (findPlace (dispatching false) 0 (launchNeed ((dispatching false).ctx 0) (((dispatching false).ctx 0).launch 5))).isSome = true by decide +kernel)
  obtain ⟨u, hu⟩ := Option.isSome_iff_exists.mp (show (dispatchGang (dispatching true) 0 5).isSome = true by decide +kernel)
  obtain ⟨w, hw⟩ := Option.isSome_iff_exists.mp (show (spawnMsg (receiving aMsg) 0 aMsg).isSome = true by decide +kernel)
  exact ⟨⟨dispatching false, 5, _, p, ⟨rfl, rfl⟩, rfl, by decide +kernel, rfl, rfl, hp⟩,
    ⟨dispatching true, u, 5, _, ⟨rfl, rfl⟩, rfl, by decide +kernel, rfl, rfl, by decide, hu⟩, ⟨receiving aMsg, w, aMsg, [], ⟨rfl, rfl⟩, rfl, hw⟩,
    ⟨{ dispatching false with mkt := {} }, ⟨rfl, rfl⟩, rfl, by decide +kernel, by decide +kernel⟩,
    ⟨on { x := 255 } { gts := 10000 }, by decide, rfl, by decide, rfl⟩,
    ⟨on { x := 255 } { cores := [(255, { gate := 1 })] }, by decide, rfl⟩,
    ⟨on { x := 1 } (st [] (fun g => { g with done := true }) (fun k => { k with launch := some 0 }) (fun x => { x with launches := [(0, { target := 2 })] })), 0, 0, rfl,
      by decide, by decide, rfl, (fun _ h => nomatch h), rfl, rfl, by decide⟩⟩

theorem memGet_above (m : List Host.Cell) (x : Nat) (h : ∀ c ∈ m, c.1 < x) : memGet m x = 0 := by
  induction m with
  | nil => rfl
  | cons c m ih =>
    have := h c (List.mem_cons_self ..)
    obtain ⟨k, v⟩ := c
    rw [memGet, if_neg (by simp at this; omega), if_neg (by simp at this; omega)]
    exact ih fun d hd => h d (List.mem_cons_of_mem _ hd)

theorem memRead_add (m : List Host.Cell) (a n k : Nat) : memRead m a (n + k) = memRead m a n ++ memRead m (a + n) k := by
  simp [memRead, upto, List.range_add, Nat.add_assoc]

theorem memRead_zeros (m : List Host.Cell) (a n : Nat) (h : ∀ i, i < n → memGet m (a + i) = 0) : memRead m a n = List.replicate n 0 := by
  refine List.eq_replicate_iff.mpr ⟨by simp [memRead, upto], fun b hb => ?_⟩
  obtain ⟨i, hi, rfl⟩ := List.mem_map.mp hb
  exact h i (List.mem_range.mp hi)

theorem memRead_other {m : List Host.Cell} {a x n : Nat} {bs : List Byte} (w : Memory.wf m = true) (h : x + n ≤ a ∨ a + bs.length ≤ x) :
    memRead (memWrite m a bs) x n = memRead m x n :=
  List.map_congr_left fun i hi => memGet_memWrite_outside _ _ _ w (by have := List.mem_range.mp hi; omega)

/-- Bytes of an image, all of zeros. -/
def zeroBytes (n : Nat) : List Byte := List.replicate n 0

/-- A saved message block of context 0. -/
def savedMsg : Tab Block := [(1, { ctx := 0, grps := 1, groups := [(0, { group2 [] with done := true })] })]

/-- The CRC-32C of zeros as an opaque section of an image ends with it. -/
def zeroCrc (n : Nat) : List Byte := natLe 4 (crc32c (zeroBytes n))

/-- Context 0 with that block, whose image at 0x10_0000 is well formed: a header, and the last bytes of the opaque sections. -/
def resuming : State :=
  holding { on { x := 1 } (paged 0 [] {}) with
    mem := memWrite (memWrite (memWrite (fetchImage [] 0 0) 0x10_0000 (natLe 64 (1 + crc32c (zeroBytes 16320) * 2 ^ 256))) 0x10_FFFC (zeroCrc 0xBFFC)) 0x11_FFFC (zeroCrc 0xFFFC)
    ctxs := [(0, { st := .running, groot := 0x60000, imgva := 0x10_0000, imgsz := 592, maxclu := 1, imgOk := true })]
    blks := savedMsg }

/-- The bytes of that state: those of the tables below 0x8_0000, and of the image. -/
theorem resuming_bytes : (∀ a, a ≤ 0x7_0000 → memRead resuming.mem a 8 = memRead (fetchImage [] 0 0) a 8) ∧
    (∀ n, 64 + n = 0x4000 → memRead resuming.mem 0x10_0000 (64 + n) = natLe 64 (1 + crc32c (zeroBytes 16320) * 2 ^ 256) ++ zeroBytes n) ∧
    (∀ n, n + 4 = 0xC000 → memRead resuming.mem 0x10_4000 (n + 4) = zeroBytes n ++ zeroCrc 0xBFFC) ∧
    ∀ n, n + 4 = 0x1_0000 → memRead resuming.mem 0x11_0000 (n + 4) = zeroBytes n ++ zeroCrc 0xFFFC := by
  have w0 : Memory.wf (fetchImage [] 0 0) = true := by decide
  have base : ∀ c ∈ fetchImage [] 0 0, c.1 < 0x8_0000 := by decide
  have hole (x n : Nat) (h : 0x8_0000 ≤ x) : memRead (fetchImage [] 0 0) x n = zeroBytes n :=
    memRead_zeros _ _ _ fun i _ => memGet_above _ _ fun c hc => by have := base c hc; omega
  have lh : (natLe 64 (1 + crc32c (zeroBytes 16320) * 2 ^ 256)).length = 64 := natLe_length ..
  have l1 : (zeroCrc 0xBFFC).length = 4 := natLe_length ..
  have l2 : (zeroCrc 0xFFFC).length = 4 := natLe_length ..
  unfold resuming holding
  generalize natLe 64 (1 + crc32c (zeroBytes 16320) * 2 ^ 256) = h at lh
  generalize zeroCrc 0xBFFC = c1 at l1
  generalize zeroCrc 0xFFFC = c2 at l2
  have w1 := memWrite_wf 0x10_0000 h w0
  have w2 := memWrite_wf 0x10_FFFC c1 w1
  refine ⟨fun a ha => ?_, fun n hn => ?_, fun n hn => ?_, fun n hn => ?_⟩
  · rw [memRead_other w2 (by omega), memRead_other w1 (by omega), memRead_other w0 (by omega)]
  · rw [memRead_other w2 (by omega), memRead_other w1 (by omega), memRead_add, memRead_other (x := 0x10_0000 + 64) w0 (by omega), hole _ _ (by omega),
      ← lh, memRead_memWrite _ _ w0]
  · rw [memRead_other w2 (by omega), memRead_add, memRead_other w1 (by omega), memRead_other w0 (by omega), hole _ _ (by omega),
      show 0x10_4000 + n = 0x10_FFFC by omega, ← l1, memRead_memWrite _ _ w1]
  · rw [memRead_add, memRead_other w2 (by omega), memRead_other w1 (by omega), memRead_other w0 (by omega), hole _ _ (by omega),
      show 0x11_0000 + n = 0x11_FFFC by omega, ← l2, memRead_memWrite _ _ w2]

theorem resuming_low : Low resuming 0 := by
  have same (x : Nat) (hx : x ≤ 0x7_0000) := resuming_bytes.1 x hx
  exact ⟨rfl, by rw [same _ (by omega)]; decide, by rw [same _ (by omega)]; decide, by rw [same _ (by omega)]; decide,
    by rw [same _ (by omega)]; decide, rfl, rfl, (by decide : 256 ≤ 768), rfl, (fun _ _ h => nomatch h), rfl⟩

/-- What reads through these tables leave of a state. -/
structure Touched (s u : State) (c : Nat) : Prop where
  low : Low u c
  mem : u.mem = s.mem
  frr : u.frr = s.frr
  bad : u.badLines = s.badLines
  blks : u.blks = s.blks
  power : u.power = s.power
  mkt : u.mkt = s.mkt
  cores : u.cores = s.cores
  gts : u.gts = s.gts
  terms : SameTerms s u c

theorem Touched.refl {s : State} {c : Nat} (k : Low s c) : Touched s s c := ⟨k, rfl, rfl, rfl, rfl, rfl, rfl, rfl, rfl, .refl ..⟩

theorem Touched.trans {s t u : State} {c : Nat} (a : Touched s t c) (b : Touched t u c) : Touched s u c :=
  ⟨b.low, b.mem.trans a.mem, b.frr.trans a.frr, b.bad.trans a.bad, b.blks.trans a.blks, b.power.trans a.power, b.mkt.trans a.mkt, b.cores.trans a.cores,
    b.gts.trans a.gts, a.terms.trans b.terms⟩

theorem touched_read {s : State} {c v n acc priv : Nat} (k : Low s c) (h : v < 2 ^ 34) : Touched s (touchRead s c v n acc priv) c := by
  have e : touchRead s c v n acc priv = touchHome (tlbKeep s (.ok 0 v (lowLeaf s c v))) (some c) v n false := by
    unfold touchRead
    rw [show vaOf v = v from Nat.mod_eq_of_lt (by omega), low_translate acc priv k h]
    simp only [k.dev, if_true]
  have keep := low_tlbKeep (dev := 0) (pa := v) k rfl h
  obtain ⟨t, p, q⟩ := tlbKeep_spec s (.ok 0 v (lowLeaf s c v))
  rw [e]
  rw [q] at keep ⊢
  rcases touchHome_spec { s with page := { s.page with tlb := t, ptrs := p } } (some c) v n false with e | ⟨w, e⟩ <;> rw [e]
  · exact ⟨keep, rfl, rfl, rfl, rfl, rfl, rfl, rfl, rfl, .refl ..⟩
  · have z : SameTerms { s with page := { s.page with tlb := t, ptrs := p } } (State.withCaches { s with page := { s.page with tlb := t, ptrs := p } } w) c :=
      State.withCaches_ctx _ w c
    exact ⟨keep.keep (fun _ _ => rfl) rfl rfl rfl rfl z, rfl, rfl, rfl, rfl, rfl, rfl, rfl, rfl, z⟩

/-- The bytes that the next step of a COPY packet reads and writes. -/
def CopyStep (s v u : State) (o : EngOp) (r : List EngOp) (ctx qn idx : Nat) (bs : List Byte) (n : Nat) : Prop :=
  s.engQ s.arg.x s.arg.y = o :: r ∧ o.begun = true ∧ o.kind = .packet ctx qn idx ∧ (s.core s.arg.x).entering = [] ∧
  n = min (lrField o.lrec 255 192 - o.pos) (roomAt 0 (vaOf (lrField o.lrec 191 128 + o.pos))) ∧ o.pos < lrField o.lrec 255 192 ∧
  engGetAll s o 0 (vaOf (lrField o.lrec 127 64 + o.pos)) n = .ok bs v ∧
  vwrite v ctx (vaOf (lrField o.lrec 191 128 + o.pos)) bs aEWRITE 0 (v.blkCore o.blk) = .done u

/-- The state in which such a packet takes its first step. -/
def copySt (dst len : Nat) : State := on { x := 0, y := 2 } (engines [(2, [copyOp dst len])] (paged 0x3000 [1, 2] {}))

theorem copySt_low (dst len : Nat) : Low (copySt dst len) 0 := by
  have m : (copySt dst len).mem = memWrite (fetchImage [] 0 0) 0x3000 [1, 2] := rfl
  refine ⟨rfl, ?_, ?_, ?_, ?_, rfl, rfl, (by decide : 256 ≤ 768), rfl, (fun _ _ h => nomatch h), rfl⟩ <;> rw [m] <;> decide +kernel

theorem copyStep (dst len n : Nat) (bs : List Byte) (l : lrField (copyOp dst len).lrec 127 64 = 0x3000 ∧ lrField (copyOp dst len).lrec 191 128 = dst)
    (c : n = min (lrField (copyOp dst len).lrec 255 192) (roomAt 0 (vaOf dst)) ∧ 0 < lrField (copyOp dst len).lrec 255 192)
    (h0 : 0 < n) (h1 : n < 256) (d : 0x80000 ≤ dst ∧ dst < 2 ^ 34) (r : vread (copySt dst len) 0 0x3000 n aEREAD 0 = .done bs) :
    ∃ v u, CopyStep (copySt dst len) v u (copyOp dst len) [] 0 2 5 bs n := by
  have t := touched_read (v := 0x3000) (n := n) (acc := aEREAD) (priv := 0) (copySt_low dst len) (by omega)
  obtain ⟨u, hu, _⟩ := low_write bs aEWRITE 0 (State.blkCore (touchRead (copySt dst len) 0 0x3000 n aEREAD 0) 0) t.low d.2 d.1 (t.frr.trans rfl)
    (by
      rw [t.mem, show (copySt dst len).mem = memWrite (fetchImage [] 0 0) 0x3000 [1, 2] from rfl]; decide +kernel)
  have e : vaOf dst = dst := Nat.mod_eq_of_lt (by omega)
  have p : (copyOp dst len).pos = 0 := rfl
  have w : opCtx (copySt dst len) (copyOp dst len) = (0, 0) := rfl
  refine ⟨touchRead (copySt dst len) 0 0x3000 n aEREAD 0, u, rfl, rfl, rfl, rfl, ?_, c.2, ?_, ?_⟩
  · rw [p, Nat.sub_zero, Nat.add_zero, l.2]; exact c.1
  · rw [p, Nat.add_zero, l.1, show vaOf 0x3000 = 0x3000 from Nat.mod_eq_of_lt (by omega)]
    simp only [engGetAll, if_true, pieces_one h0 (show 0x3000 % 65536 + n ≤ 65536 by omega), List.foldl_cons, List.foldl_nil, engGet, w,
      show vaOf 0x3000 = 0x3000 from Nat.mod_eq_of_lt (by omega), r, List.nil_append]
  · rw [p, Nat.add_zero, l.2, e]; exact hu

theorem wit_copy_packet :
    (∃ (s v u : State) (o : EngOp) (r : List EngOp) (ctx qn idx : Nat) (bs : List Byte) (n : Nat), CopyStep s v u o r ctx qn idx bs n ∧
      o.pos + n = lrField o.lrec 255 192) ∧
    (∃ (s v u : State) (o : EngOp) (r : List EngOp) (ctx qn idx : Nat) (bs : List Byte) (n : Nat), CopyStep s v u o r ctx qn idx bs n ∧
      o.pos + n < lrField o.lrec 255 192 ∧ o.away = false) := by
  constructor
  · obtain ⟨v, u, h⟩ := copyStep 0x8_3100 2 2 [1, 2] (by decide +kernel) (by decide +kernel) (by decide) (by decide) (by decide) (by decide +kernel)
    exact ⟨_, v, u, _, _, _, _, _, _, 2, h, by decide +kernel⟩
  · obtain ⟨v, u, h⟩ := copyStep 0x8_FFF8 16 8 [1, 2, 0, 0, 0, 0, 0, 0] (by decide +kernel) (by decide +kernel) (by decide) (by decide) (by decide) (by decide +kernel)
    exact ⟨_, v, u, _, _, _, _, _, _, 8, h, by decide +kernel, rfl⟩

/-- Bytes that lie below 2^34 are read there. -/
theorem low_vread {s : State} {c v : Nat} (n acc priv : Nat) (k : Low s c) (h : v < 2 ^ 34) (r : s.frr = []) (b : s.badLines = []) :
    vread s c v n acc priv = .done (memRead s.mem v n) := by
  have t : v.testBit 39 = false := Nat.testBit_lt_two_pow (by omega)
  have bars : windowBars s (vfOfCtx s c) v n false = false := by simp [windowBars, r]
  unfold vread
  rw [show vaOf v = v from Nat.mod_eq_of_lt (by omega), low_translate acc priv k h]
  simp only [readAt, peerUp, k.dev, beq_self_eq_true, Bool.true_or, Bool.not_true, Bool.false_eq_true, if_false, t, bars, b, List.any_nil, ne_eq,
    not_true_eq_false]
  exact congrArg RRes.done (List.map_congr_left fun i _ => by simp [physByte, k.dev, frrWindow, frrOn, r, domAddr])

theorem low_slot {s : State} {c v n : Nat} (k : Low s c) (h : v < 2 ^ 34) (r : s.frr = []) (b : s.badLines = []) :
    ∃ u, Touched s u c ∧ slotRead s c v n = .done (memRead s.mem v n) u :=
  ⟨_, touched_read k h, by rw [slotRead, low_vread n aLOAD 0 k h r b]⟩

/-- The event of that LAUNCH. -/
def launching : State := packing launchPkt (List.replicate 154 0 ++ natLe 6 0x1_0001_0001)

theorem launching_low : Low launching 0 := by
  refine ⟨rfl, ?_, ?_, ?_, ?_, rfl, rfl, (by decide : 256 ≤ 768), rfl, (fun _ _ h => nomatch h), rfl⟩ <;> decide +kernel

theorem wit_launch_packet : ∃ (s u : State) (l : Launch) (n : Nat) (e : List Byte), TakesHead s ∧
    (s.ctx s.arg.x).launches.length < 64 ∧ checkLaunch s s.arg.x s.arg.y s.arg.z s.arg.data = .ok l [(0, n, 0xFFFF, e)] u ∧ l.parent = 0xFFFF ∧
    tfind (s.ctx s.arg.x).nodes 0xFFFF = none := by
  obtain ⟨a, ta, ha⟩ := low_slot (n := 128) launching_low (show 0x3000 < 2 ^ 34 by omega) rfl rfl
  obtain ⟨b, tb, hb⟩ := low_slot (n := 64) ta.low (show 0x3080 < 2 ^ 34 by omega) ta.frr ta.bad
  obtain ⟨u, tu, hu⟩ := low_slot (n := 32) tb.low (show 0x40A0 < 2 ^ 34 by omega) (tb.frr.trans ta.frr) (tb.bad.trans ta.bad)
  obtain ⟨zb, nb, eb⟩ := (ta.trans tb).terms
  obtain ⟨zu, nu, eu⟩ := ((ta.trans tb).trans tu).terms
  rw [ta.mem, show memRead launching.mem 0x3080 64 = List.replicate 26 0 ++ natLe 38 0x1_0001_0001 by decide +kernel] at hb
  rw [tb.mem, ta.mem, show memRead launching.mem 0x40A0 32 = List.replicate 32 0 by decide +kernel] at hu
  rw [show memRead launching.mem 0x3000 128 = List.replicate 128 0 by decide +kernel] at ha
  have re : readEntry b 0 5 = .done (List.replicate 32 0) u := by
    simp only [readEntry, eb, wrVa]
    simp only [show (launching.ctx 0).launches = [] from rfl, show (launching.ctx 0).nodes = [] from rfl, tfind,
      show fld (launching.ctx 0).wrtb 56 12 * 4096 + 32 * 5 = 0x40A0 by decide +kernel, hu]
    simp only [overOwn, eb, show (launching.ctx 0).rings = [] from rfl, List.filter_nil, List.foldl_nil]
  have er : entryRefused u 0 0 5 0xFFFF (List.replicate 32 0) = false := by
    simp only [entryRefused, eu, show (launching.ctx 0).launches = [] from rfl]
    decide +kernel
  refine ⟨launching, u, newLaunch 0 2 { cfg := 0x3801, st := 2, locked := true, tail := 1 } 0 5 0xFFFF 0x3080 0 (List.replicate 128 0)
    (List.replicate 26 0 ++ natLe 38 0x1_0001_0001), 5, List.replicate 32 0, takes _ _ _ (by decide +kernel) rfl, by decide +kernel, ?_, by decide +kernel, rfl⟩
  show checkLaunch launching 0 2 0 launchPkt = _
  unfold checkLaunch
  rw [show pk launchPkt 191 128 = 0x3000 by decide +kernel, show pk launchPkt 255 192 = 0x3080 by decide +kernel, ha]
  dsimp only
  rw [hb]
  dsimp only
  rw [show namedEntries launchPkt = [(0, 5, 0xFFFF)] by decide +kernel, show pk launchPkt 271 256 = 5 by decide +kernel]
  simp only [List.foldl_cons, List.foldl_nil, re, er, List.nil_append, show b.gts = 0 from tb.gts.trans ta.gts]
  rw [if_neg (by decide +kernel), if_neg (by decide +kernel)]
  rfl

/-- Where a block fits rests on the blocks, the cores, the market and the power alone. -/
theorem Touched.place {s u : State} {c : Nat} (t : Touched s u c) (d : Nat) (n : Need) : findPlace u d n = findPlace s d n := by
  have h (s u : State) (b : u.blks = s.blks) (p : u.power = s.power) (m : u.mkt = s.mkt) (k : u.cores = s.cores) : findPlace u d n = findPlace s d n := by
    cases s; cases u; dsimp only at b p m k; subst b p m k; rfl
  exact h s u t.blks t.power t.mkt t.cores

/-- A part of an image that lies in one page is read. -/
theorem low_read {s : State} {c off n : Nat} (f : List Byte → State → SaveRes) (k : Low s c) (e : (s.ctx c).imgva = 0x10_0000) (o : off < 2 ^ 30) (r : s.frr = [])
    (b : s.badLines = []) (p : off % 65536 + n ≤ 65536) (h0 : 0 < n) :
    ∃ u, Touched s u c ∧ readPart s c off n f = f (memRead s.mem (0x10_0000 + off) n) u := by
  refine ⟨_, touched_read (v := 0x10_0000 + off) (n := n) (acc := aEREAD) (priv := 1) k (by omega), ?_⟩
  have rd := low_vread n aEREAD 1 k (show 0x10_0000 + off < 2 ^ 34 by omega) r b
  rw [readPart, e, pieces_one h0 (by omega)]
  simp only [List.foldl_cons, List.foldl_nil, rd, List.nil_append, Option.getD_none]

theorem crcGood_zeros (n : Nat) : crcGood (zeroBytes n ++ zeroCrc n) = true := by
  have l : (zeroBytes n).length = n := List.length_replicate
  have c : (zeroCrc n).length = 4 := natLe_length ..
  have e : (zeroBytes n ++ zeroCrc n).length - 4 = n := by rw [List.length_append, l, c]; omega
  rw [crcGood, e, List.drop_left' l, List.take_left' l, zeroCrc, leNat_natLe, show 256 ^ 4 = 2 ^ 32 by norm_num, Nat.mod_eq_of_lt (crc32c_lt _)]
  exact decide_eq_true rfl

theorem header_crc (k : Nat) (c : k < 2 ^ 32) : recBits (natLe 64 (1 + k * 2 ^ 256)) 15 0 = 1 ∧ recBits (natLe 64 (1 + k * 2 ^ 256)) 287 256 = k := by
  have v : leNat (natLe 64 (1 + k * 2 ^ 256)) = 1 + k * 2 ^ 256 := by
    rw [leNat_natLe, Nat.mod_eq_of_lt]
    calc 1 + k * 2 ^ 256 < 2 ^ 256 + k * 2 ^ 256 := Nat.add_lt_add_right (Nat.one_lt_two_pow (by norm_num)) _
      _ = (k + 1) * 2 ^ 256 := by ring
      _ ≤ 2 ^ 32 * 2 ^ 256 := Nat.mul_le_mul_right _ c
      _ ≤ 256 ^ 64 := by norm_num
  simp only [recBits, bits, v, Nat.shiftRight_eq_div_pow]
  clear v
  constructor
  · rw [show k * 2 ^ 256 = k * 2 ^ 240 * 2 ^ 16 by ring, pow_zero, Nat.div_one, Nat.add_mul_mod_self_right]
    norm_num
  · rw [Nat.add_mul_div_right _ _ (by positivity), Nat.div_eq_of_lt (Nat.one_lt_two_pow (by norm_num)), Nat.zero_add, Nat.mod_eq_of_lt c]

theorem resuming_reads : ∃ u, Touched resuming u 0 ∧ readImage_ resuming 0 = .done u := by
  have read (s : State) (t : Touched resuming s 0) (off n : Nat) (f : List Byte → State → SaveRes) (o : off < 2 ^ 30) (p : off % 65536 + n ≤ 65536) (h0 : 0 < n) :
      ∃ u, Touched resuming u 0 ∧ readPart s 0 off n f = f (memRead resuming.mem (0x10_0000 + off) n) u := by
    obtain ⟨_, _, e⟩ := t.terms
    obtain ⟨u, tu, eu⟩ := low_read f t.low (by rw [e]; rfl) o t.frr t.bad p h0
    exact ⟨u, t.trans tu, by rw [eu, t.mem]⟩
  have lh : (natLe 64 (1 + crc32c (zeroBytes 16320) * 2 ^ 256)).length = 64 := natLe_length ..
  obtain ⟨ver, crc⟩ := header_crc _ (crc32c_lt (zeroBytes 16320))
  have s0 : memRead resuming.mem (0x10_0000 + 0) 0x4000 = _ := resuming_bytes.2.1 16320 (by norm_num)
  have s1 : memRead resuming.mem (0x10_0000 + 0x4000) 0xC000 = _ := resuming_bytes.2.2.1 0xBFFC (by norm_num)
  have s2 : memRead resuming.mem (0x10_0000 + 0x1_0000) 0x1_0000 = _ := resuming_bytes.2.2.2 0xFFFC (by norm_num)
  obtain ⟨a, ta, ea⟩ := read resuming (.refl resuming_low) 0 0x4000 (fun bs s =>
    if recBits (bs.take 64) 15 0 ≠ 1 ∨ recBits (bs.take 64) 287 256 ≠ crc32c (bs.drop 64) then .bad s
    else imageSections.foldl (fun (r : SaveRes) p => r.andThen (fun t =>
      readPart t 0 p.1 p.2 (fun bs t => if crcGood bs then .done t else .bad t))) (.done s)) (by omega) (by omega) (by omega)
  obtain ⟨b, tb, eb⟩ := read a ta 0x4000 0xC000 (fun bs t => if crcGood bs then .done t else .bad t) (by omega) (by omega) (by omega)
  obtain ⟨d, td, ed⟩ := read b tb 0x1_0000 0x1_0000 (fun bs t => if crcGood bs then .done t else .bad t) (by omega) (by omega) (by omega)
  refine ⟨d, td, ?_⟩
  rw [readImage_, ea, s0, List.take_left' lh, List.drop_left' lh,
    if_neg (not_or.mpr ⟨not_not.mpr ver, not_not.mpr crc⟩), imageSections, List.foldl_cons, List.foldl_cons, List.foldl_nil, SaveRes.andThen,
    eb, s1, if_pos (crcGood_zeros _), SaveRes.andThen, ed, s2, if_pos (crcGood_zeros _)]

theorem wit_resume : ∃ (s u : State) (p : Place), thas s.blks s.arg.x = true ∧ (s.blk s.arg.x).core = none ∧
    (∀ e, (s.blk s.arg.x).launch = some e → ((s.ctx (s.blk s.arg.x).ctx).launch e).bco = false ∧ ((s.ctx (s.blk s.arg.x).ctx).launch e).chanSaved = none) ∧
    (s.ctx (s.blk s.arg.x).ctx).st = .running ∧ (s.ctx (s.blk s.arg.x).ctx).noDispatch = false ∧ (s.ctx (s.blk s.arg.x).ctx).imgDue = false ∧
    findPlace s (s.blk s.arg.x).ctx (savedNeed (s.blk s.arg.x)) = some p ∧
    readBack s (s.blk s.arg.x).ctx [s.arg.x] = .done u ∧
    findPlace u (u.blk s.arg.x).ctx (savedNeed (u.blk s.arg.x)) = some p := by
  obtain ⟨p, hp⟩ := Option.isSome_iff_exists.mp
    (show (findPlace resuming 0 (savedNeed (resuming.blk 1))).isSome = true by decide +kernel)
  obtain ⟨u, tu, hu⟩ := resuming_reads
  obtain ⟨_, _, e⟩ := tu.terms
  have b : u.blk 1 = resuming.blk 1 := by rw [State.blk, tu.blks]; rfl
  refine ⟨resuming, u, p, rfl, rfl, (fun _ h => nomatch h), rfl, rfl, rfl, hp, ?_, ?_⟩
  · show readBack resuming 0 [1] = _
    rw [readBack, if_pos (by rfl), hu, SaveRes.andThen, feedIntact, e]
    show (SaveRes.done u).andThen (fun t => readRecord t 0 1) = _
    rw [SaveRes.andThen, readRecord, b]
    rfl
  · show findPlace u (u.blk 1).ctx (savedNeed (u.blk 1)) = _
    rw [b, tu.place]; exact hp

/-- Port 63. -/
def ported (k : Port) (a : Arg := {}) : State := on { a with x := 63 } { gts := 5, ports := [(63, k)] }

theorem wit_ports :
    (∃ (s : State), s.arg.x < 64 ∧ (s.port s.arg.x).st = 0) ∧ (∃ (s : State), s.arg.x < 64 ∧ (s.port s.arg.x).st = 6) ∧
    (∃ (s : State), s.arg.x < 64 ∧ (s.port s.arg.x).st = 1 ∧ (decide (s.arg.y = 1) || decide (s.arg.z = 1)) = true) ∧
    (∃ (s : State), s.arg.x < 64 ∧ (s.port s.arg.x).st = 1 ∧ (decide (s.arg.y = 1) || decide (s.arg.z = 1)) = false ∧ 2 ≤ (s.port s.arg.x).fails) ∧
    (∃ (s : State), s.arg.x < 64 ∧ (s.port s.arg.x).st = 1 ∧ (decide (s.arg.y = 1) || decide (s.arg.z = 1)) = false ∧ (s.port s.arg.x).fails < 2) ∧
    (∃ (s : State), s.arg.x < 64 ∧ (if s.arg.y = 0 then (s.port s.arg.x).l0 else (s.port s.arg.x).l1) = true ∧ (s.port s.arg.x).st = 2) ∧
    (∃ (s : State), s.arg.x < 64 ∧ (if s.arg.y = 0 then (s.port s.arg.x).l0 else (s.port s.arg.x).l1) = true ∧ (s.port s.arg.x).st = 4) ∧
    (∃ (s : State), s.arg.x < 64 ∧ (if s.arg.y = 0 then (s.port s.arg.x).l0 else (s.port s.arg.x).l1) = false) ∧
    (∃ (s : State), s.arg.x < 64 ∧ (s.port s.arg.x).st = 5 ∧ (portBusy s s.arg.x = false ∨ (s.port s.arg.x).since + 1000000 ≤ s.gts)) ∧
    (∃ (s : State), s.arg.x < 64 ∧ (s.port s.arg.x).st = 5 ∧ portBusy s s.arg.x = true ∧ s.gts < (s.port s.arg.x).since + 1000000) :=
  ⟨⟨ported {}, by decide, rfl⟩, ⟨ported { st := 6 }, by decide, rfl⟩, ⟨ported { st := 1 } { y := 1 }, by decide, rfl, rfl⟩,
    ⟨ported { st := 1, fails := 2 }, by decide, rfl, rfl, by decide⟩, ⟨ported { st := 1, fails := 1 }, by decide, rfl, rfl, by decide⟩,
    ⟨ported { st := 2, l0 := true, l1 := true } { y := 1 }, by decide, rfl, rfl⟩, ⟨ported { st := 4, l0 := true }, by decide, rfl, rfl⟩,
    ⟨ported { st := 4, l0 := true } { y := 1 }, by decide, rfl⟩, ⟨ported { st := 5 }, by decide, rfl, .inl rfl⟩,
    ⟨{ ported { st := 5 } with peerReqs := [{ seq := 0, home := 1, core := 0, kind := 0, pa := 0, size := 4, data := [], blk := 1, j := 0, id := 3, lane := 0, port := 63 }] }, by decide, rfl, rfl, by decide⟩⟩

/-- A load of lane 1 that has been sent to device 575 as request 0 of core 0. -/
def asked : PeerReq := { seq := 0, home := 575, core := 0, kind := 0, pa := 8, size := 4, data := [], blk := 1, j := 0, id := 3, lane := 1, port := 0 }
def askedLoad : Pend := { id := 3, kind := .load, seq := 0, d := 2, accs := [{ lane := 1, addr := 8, st := 3 }] }

/-- A flit with a sequence number and zeros for payload. -/
def aFlit (seq : Nat) : List Byte :=
  let h := natLe 4 seq ++ List.replicate 240 0
  h ++ natLe 4 (crc32c h) ++ List.replicate 8 0

theorem aFlit_good (seq : Nat) (h : seq < 4096) : GoodFlit (aFlit seq) ∧ leNat ((aFlit seq).take 2) % 4096 = seq := by
  have lh : (natLe 4 seq ++ List.replicate 240 (0 : Byte)).length = 244 := by rw [List.length_append, natLe_length, List.length_replicate]
  have lc : (natLe 4 (crc32c (natLe 4 seq ++ List.replicate 240 0))).length = 4 := natLe_length ..
  have t : (aFlit seq).take 244 = natLe 4 seq ++ List.replicate 240 0 := by
    simp only [aFlit, List.append_assoc]; exact List.take_left' lh
  refine ⟨⟨?_, ?_⟩, ?_⟩
  · simp only [aFlit, List.length_append, lc, List.length_replicate, natLe_length]
  · rw [t]
    have d : ((aFlit seq).drop 244).take 4 = natLe 4 (crc32c (natLe 4 seq ++ List.replicate 240 0)) := by
      simp only [aFlit, List.append_assoc]; rw [← List.append_assoc, List.drop_left' lh, List.take_left' lc]
    rw [d, leNat_natLe, Nat.mod_eq_of_lt (by have := crc32c_lt (natLe 4 seq ++ List.replicate 240 0); omega)]
  · have w : natLe 4 seq = natLe 2 seq ++ natLe 2 (seq / 256 / 256) := rfl
    have d : (aFlit seq).take 2 = natLe 2 seq := by
      simp only [aFlit, w, List.append_assoc]; exact List.take_left' (natLe_length ..)
    rw [d, leNat_natLe]; omega

/-- A load that has been sent and its pending result. -/
def Sent (s : State) (r : PeerReq) : Prop := ∃ p a, OnlyPending s r p a ∧ a.cap = false

/-- A request arrives with its number the next. -/
def Next (s : State) : Prop :=
  (∀ o ∈ (s.peerIn s.arg.x s.arg.y).outs, o.1 ≠ s.arg.z) ∧ (s.peerIn s.arg.x s.arg.y).early = [] ∧ s.arg.z = (s.peerIn s.arg.x s.arg.y).next

theorem next_first (a : Arg) (h : a.z = 0) : Next (on a) := ⟨fun _ h => (nomatch h), rfl, h⟩

/-- Whether the request is refused. -/
def refusal (s : State) : Bool := peerRefused s (s.arg.l.getD 0 0) (min (s.arg.l.getD 1 0) 128)

theorem wit_link :
    (∃ (s : State), s.arg.x < 64 ∧ TakesFlits (s.port s.arg.x) ∧ ¬GoodFlit s.arg.data) ∧
    (∃ (s : State), s.arg.x < 64 ∧ TakesFlits (s.port s.arg.x) ∧ GoodFlit s.arg.data ∧ leNat (s.arg.data.take 2) % 4096 = (s.port s.arg.x).rx) ∧
    (∃ (s : State), s.arg.x < 64 ∧ TakesFlits (s.port s.arg.x) ∧ GoodFlit s.arg.data ∧ leNat (s.arg.data.take 2) % 4096 ≠ (s.port s.arg.x).rx ∧
      (leNat (s.arg.data.take 2) % 4096 + 4096 - (s.port s.arg.x).rx) % 4096 < 2048) ∧
    (∃ (s : State), s.arg.x < 64 ∧ TakesFlits (s.port s.arg.x) ∧ GoodFlit s.arg.data ∧ leNat (s.arg.data.take 2) % 4096 ≠ (s.port s.arg.x).rx ∧
      2048 ≤ (leNat (s.arg.data.take 2) % 4096 + 4096 - (s.port s.arg.x).rx) % 4096) ∧
    (∃ (s : State), s.arg.x < 64 ∧ ¬TakesFlits (s.port s.arg.x)) ∧
    (∃ (s : State) (a b : List (Nat × List Byte)) (f : Nat × List Byte), s.arg.x < 64 ∧ (s.port s.arg.x).buf = a ++ f :: b ∧ f.1 = s.arg.y % 4096 ∧
      ∀ g ∈ a, g.1 ≠ s.arg.y % 4096) ∧
    (∃ (s : State), s.arg.x < 64 ∧ ∀ g ∈ (s.port s.arg.x).buf, g.1 ≠ s.arg.y % 4096) ∧
    (∃ (s : State), s.arg.x < 576 ∧ peerUp s s.arg.x = true) ∧
    (∃ (s : State) (r : PeerReq), s.arg.x < 576 ∧ peerUp s s.arg.x = false ∧ s.peerReqs.filter (fun r => r.home == s.arg.x) = [r] ∧ Sent s r) ∧
    (∃ (s : State) (r : PeerReq), s.arg.x < 576 ∧ peerUp s s.arg.x = false ∧ s.peerReqs.filter (fun r => r.home == s.arg.x) = [r] ∧ r.kind = 64) ∧
    (∃ (s : State), Next s ∧ refusal s = true ∧ s.arg.u < 64) ∧ (∃ (s : State), Next s ∧ refusal s = false ∧ s.arg.u = 0) ∧
    (∃ (s : State), Next s ∧ refusal s = false ∧ s.arg.u = 1) ∧ (∃ (s : State), Next s ∧ refusal s = false ∧ 2 ≤ s.arg.u ∧ s.arg.u < 64) ∧
    (∃ (s : State), Next s ∧ s.arg.u = 64) ∧
    (∃ (s : State), ∃ o ∈ (s.peerIn s.arg.x s.arg.y).outs, o.1 = s.arg.z) ∧
    (∃ (s : State), (∀ o ∈ (s.peerIn s.arg.x s.arg.y).outs, o.1 ≠ s.arg.z) ∧
      (∀ r ∈ (s.peerIn s.arg.x s.arg.y).early, r.1 ≠ s.arg.z ∧ r.1 ≠ (s.peerIn s.arg.x s.arg.y).next) ∧ s.arg.z ≠ (s.peerIn s.arg.x s.arg.y).next) ∧
    (∃ (s : State), ∀ r ∈ s.peerReqs, ¬(r.home = s.arg.x ∧ r.core = s.arg.y ∧ r.seq = s.arg.z)) ∧
    (∃ (s : State) (r : PeerReq), s.peerReqs.find? (fun r => r.home == s.arg.x && r.core == s.arg.y && r.seq == s.arg.z) = some r ∧ s.arg.u = 0 ∧ Sent s r) := by
  have sent (s : State) (h : (s.blk 1).groups = [(0, { group2 [] with pend := [askedLoad] })]) : Sent s asked := by
    have e (i : Nat) (hi : 0 < i) : s.grp 1 i = {} := by simp [State.grp, Block.grp, tget, h, tfind, show 0 ≠ i by omega]
    have g : s.grp 1 0 = { group2 [] with pend := [askedLoad] } := by simp [State.grp, Block.grp, tget, h, tfind]
    refine ⟨askedLoad, { lane := 1, addr := 8, st := 3 }, ⟨rfl, by decide, ?_, ?_, ?_, rfl, rfl, rfl, rfl, ?_⟩, rfl⟩
    · exact congrArg Group.sq g
    · rw [show s.grp asked.blk asked.j = _ from g]; exact fun _ h => nomatch h
    · exact congrArg Group.pend g
    · intro i hi q hq
      rw [show s.grp asked.blk i = _ from e i hi] at hq
      cases hq
  exact ⟨⟨ported { st := 2 }, by decide, .inl rfl, fun h => absurd h.1 (by decide)⟩,
    ⟨ported { st := 5, rx := 4095 } { data := aFlit 4095 }, by decide, .inr ⟨.inl rfl, rfl⟩, (aFlit_good _ (by decide)).1, (aFlit_good _ (by decide)).2⟩,
    ⟨ported { st := 4, rx := 4095 } { data := aFlit 2046 }, by decide, .inr ⟨.inr rfl, rfl⟩, (aFlit_good _ (by decide)).1,
      by rw [show (ported { st := 4, rx := 4095 } { data := aFlit 2046 }).arg.data = aFlit 2046 from rfl, (aFlit_good 2046 (by decide)).2]; decide,
      by rw [show (ported { st := 4, rx := 4095 } { data := aFlit 2046 }).arg.data = aFlit 2046 from rfl, (aFlit_good 2046 (by decide)).2]; decide⟩,
    ⟨ported { st := 2, rx := 4095 } { data := aFlit 2047 }, by decide, .inl rfl, (aFlit_good _ (by decide)).1,
      by rw [show (ported { st := 2, rx := 4095 } { data := aFlit 2047 }).arg.data = aFlit 2047 from rfl, (aFlit_good 2047 (by decide)).2]; decide,
      by rw [show (ported { st := 2, rx := 4095 } { data := aFlit 2047 }).arg.data = aFlit 2047 from rfl, (aFlit_good 2047 (by decide)).2]; decide⟩,
    ⟨ported { st := 3 }, by decide, by unfold TakesFlits; decide⟩,
    ⟨ported { st := 2, buf := [(6, []), (7, [1]), (8, [2])] } { y := 4103 }, [(6, [])], [(8, [2])], (7, [1]), by decide, rfl, rfl, by decide⟩,
    ⟨ported { st := 2, buf := [(6, [])] } { y := 4103 }, by decide, by decide⟩, ⟨{}, by decide, by decide⟩,
    ⟨{ on { x := 575 } (st [] (fun g => { g with pend := [askedLoad] })) with gts := 2000000, peerReqs := [asked] }, asked, by decide, by decide, by decide,
      sent _ rfl⟩,
    ⟨{ on { x := 575 } with gts := 2000000, peerReqs := [{ asked with kind := 64 }] }, { asked with kind := 64 }, by decide, by decide, by decide, rfl⟩,
    ⟨on { x := 1, l := [2 ^ 39, 8] }, next_first _ rfl, by decide, by decide⟩, ⟨on { x := 1, l := [8, 4] }, next_first _ rfl, by decide, rfl⟩,
    ⟨on { x := 1, u := 1, l := [8, 4], data := [1, 2, 3, 4] }, next_first _ rfl, by decide, rfl⟩,
    ⟨on { x := 1, u := 2, l := [8, 4] }, next_first _ rfl, by decide, by decide, by decide⟩, ⟨on { x := 1, u := 64 }, next_first _ rfl, rfl⟩,
    ⟨on { x := 1 } { peerIns := [{ dev := 1, core := 0, outs := [(0, false, [])] }] }, _, List.mem_singleton.mpr rfl, rfl⟩,
    ⟨on { x := 1, z := 5 }, (fun _ h => nomatch h), (fun _ h => nomatch h), by decide⟩, ⟨{}, fun _ h => nomatch h⟩,
    ⟨{ on { x := 575 } (st [] (fun g => { g with pend := [askedLoad] })) with peerReqs := [asked] }, asked, by decide, rfl, sent _ rfl⟩⟩

theorem wit_host :
    (∃ (s : State), s.arg.x < 64 ∧ s.arg.y = 0 ∧ s.power.shut = false) ∧
    (∃ (s : State), s.arg.x < 64 ∧ 1 ≤ s.arg.y ∧ s.arg.y ≤ 64) ∧ (∃ (s : State), s.arg.x ≤ 64 ∧ s.power.tripped = true) ∧
    (∃ (s : State), s.arg.x ≤ 64 ∧ s.power.tripped = false ∧ s.arg.u ≠ 1 ∧ s.arg.y < 2 ^ 39 ∧ windowBars s 64 s.arg.y s.arg.data.length true = true) ∧
    (∃ (s : State), s.arg.x ≤ 64 ∧ s.power.tripped = false ∧ s.arg.u ≠ 1 ∧ s.arg.y < 2 ^ 39 ∧
      windowBars s 64 s.arg.y s.arg.data.length true = false ∧ s.memWf = true) ∧
    (∃ (s : State), s.arg.x ≤ 64 ∧ s.power.tripped = false ∧ s.arg.u ≠ 1 ∧ s.arg.y.testBit 39 = true ∧ s.arg.data.length ≠ 4 ∧ s.arg.data.length ≠ 8) ∧
    (∃ (s : State), s.arg.x ≤ 64 ∧ s.power.tripped = false ∧ s.arg.u ≠ 1 ∧ s.arg.y.testBit 39 = true ∧ s.arg.data.length = 8 ∧
      s.arg.y % s.arg.data.length ≠ 0) ∧
    (∃ (s : State), s.arg.x ≤ 64 ∧ s.power.tripped = false ∧ s.arg.u = 1 ∧ s.arg.y < 2 ^ 39 ∧ windowBars s s.arg.x s.arg.y s.arg.z false = false ∧
      s.badLines = []) ∧
    (∃ (s : State) (c q : Nat), s.arg.x = 64 ∧ s.power.tripped = false ∧ s.power.shut = false ∧ s.arg.u ≠ 1 ∧ c < 4096 ∧ q < 16 ∧
      s.arg.y = 2 ^ 39 + 0x1000_0000 + 65536 * c + 4096 * q + 8 ∧ s.arg.data.length = 8) ∧
    (∃ (s : State), s.devNo = 0) ∧ (∃ (s : State), s.devNo ≠ 0 ∧ s.synced = false) ∧ (∃ (s : State), s.devNo ≠ 0 ∧ s.synced = true) :=
  ⟨⟨on { x := 63 }, by decide, rfl, rfl⟩, ⟨on { x := 63, y := 64 }, by decide, by decide, by decide⟩,
    ⟨on { x := 64 } { power := { tripped := true } }, by decide, rfl⟩,
    ⟨on { y := 639, data := [1] } { frr := [(31, { w0 := 0x101 })] }, by decide, rfl, by decide, by decide, by decide⟩,
    ⟨on { y := 2 ^ 39 - 1, data := [1] }, by decide, rfl, by decide, by decide, rfl, rfl⟩,
    ⟨on { y := 2 ^ 39, data := [1] }, by decide, rfl, by decide, by decide, by decide, by decide⟩,
    ⟨on { y := 2 ^ 39 + 4, data := natLe 8 1 }, by decide, rfl, by decide, by decide, by decide, by decide⟩,
    ⟨on { x := 64, y := 2 ^ 39 - 1, z := 1, u := 1 }, by decide, rfl, rfl, by decide, rfl, rfl⟩,
    ⟨on { x := 64, y := 2 ^ 39 + 0x1000_0000 + 65536 * 4095 + 4096 * 15 + 8, data := natLe 8 1 }, 4095, 15, rfl, rfl, rfl, by decide, by decide, by decide, rfl, rfl⟩,
    ⟨{}, rfl⟩, ⟨{ devNo := 575 }, by decide, rfl⟩, ⟨{ devNo := 575, synced := true }, by decide, rfl⟩⟩

/-- The debugger of context 0 holds lane 1 of the group of `st`, and DACC names a register of it. -/
def stopped (dacc : DWord) (ddata : DWord := 0) : State :=
  st [] (fun g => { g with dbgStop := true }.updTh 1 (fun t => { t with held := true, mode := .trapped })) id
    (fun c => { c with dacc := dacc, ddata := ddata, stops := [⟨2, 1, 0, 1, 0, 0x44, 0, 0x48⟩] })

theorem wit_debugger :
    (∃ (s : State), debugLocked s s.arg.x s.arg.y = true) ∧
    (∃ (s : State), debugLocked s s.arg.x s.arg.y = false ∧ ∀ p ∈ (s.ctx s.arg.x).stops, (s.blk p.blk).ctx = s.arg.x) ∧
    (∃ (s : State), (s.ctx s.arg.x).stops = []) ∧ (∃ (s : State) (p : Stop) (r : List Stop), (s.ctx s.arg.x).stops = p :: r) ∧
    (∃ (s : State), daccGroup s s.arg.x = none) ∧
    (∃ (s : State) (b j : Nat), daccGroup s s.arg.x = some (b, j) ∧ daccPlain (dKind s s.arg.x) (dNum s s.arg.x)) ∧
    (∃ (s : State) (b j : Nat), daccGroup s s.arg.x = some (b, j) ∧ daccPlain (dKind s s.arg.x) (dNum s s.arg.x) ∧
      (dKind s s.arg.x = 3 → (s.ctx s.arg.x).ddata.toNat % 4 = 0 ∧ (s.ctx s.arg.x).ddata.toNat < 2 ^ 48)) :=
  ⟨⟨on { y := 1 } (st [] id id (fun c => { c with dbgctl := 0x100 })), by decide⟩, ⟨on { y := 1 } (stopped 0), by decide, by decide⟩, ⟨{}, rfl⟩, ⟨stopped 0, _, _, rfl⟩,
    ⟨{}, by decide⟩, ⟨stopped 0x2010_000F, 1, 0, by decide, .inr (.inl (by decide))⟩,
    ⟨stopped 0x2030_0000 0xFFFF_FFFF_FFFC, 1, 0, by decide, .inr (.inr (.inr (by decide))), by decide⟩⟩

/-- Context 0 with rings at 0x8_0000, and an event of one of them. -/
def ringing (a : Arg) (x : Ctx → Ctx) : State := on a { paged 0x3000 [] {} with ctxs := [(0, x { st := .running, groot := 0x60000 })] }

theorem ringing_low (a : Arg) (x : Ctx → Ctx) (h : (x { st := .running, groot := 0x60000 }).groot = 0x60000)
    (v : (x { st := .running, groot := 0x60000 }).vf = 0) : Low (ringing a x) 0 :=
  ⟨rfl, (by decide : leNat (memRead (fetchImage [] 0 0) 0x40000 8) = 0x50001), (by decide : leNat (memRead (fetchImage [] 0 0) 0x50000 8) = 0xF),
    (by decide : leNat (memRead (fetchImage [] 0 0) 0x60000 8) = 0x70001), (by decide : leNat (memRead (fetchImage [] 0 0) 0x70000 8) = 0x1F),
    (by show (State.vf _ (x { st := .running, groot := 0x60000 }).vf).hroot = _; rw [v]; rfl), h, (by decide : 256 ≤ 768), rfl, (fun _ _ h => nomatch h), rfl⟩

theorem ringing_writes (a : Arg) (x : Ctx → Ctx) (h : (x { st := .running, groot := 0x60000 }).groot = 0x60000)
    (v : (x { st := .running, groot := 0x60000 }).vf = 0) (bs : List Byte) (src : Nat) :
    ∃ u, vwrite (ringing a x) 0 0x8_0000 bs aEWRITE 1 src = .done u := by
  obtain ⟨u, hu, _⟩ := low_write (v := 0x8_0000) bs aEWRITE 1 src (ringing_low a x h v) (by omega) (by omega) rfl
    (by decide : Memory.wf (fetchImage [] 0 0) = true)
  exact ⟨u, hu⟩

theorem wit_records :
    (∃ (s : State), (s.ctx s.arg.x).trbase.getLsbD 4 = false ∨ (s.ctx s.arg.x).trmask.toNat.testBit s.arg.y = false) ∧
    (∃ (s w : State) (va : Nat), (s.ctx s.arg.x).trbase.getLsbD 4 = true ∧ (s.ctx s.arg.x).trmask.toNat.testBit s.arg.y = true ∧
      1 ≤ s.arg.y ∧ s.arg.y ≤ 10 ∧ s.gts ≤ s.arg.u + 8000 ∧ (∀ r ∈ (s.ctx s.arg.x).rings, r.ring ≠ 2) ∧ ringPlace (s.ctx s.arg.x) 2 = some va ∧
      vwrite s s.arg.x va (traceRec s.arg.u s.arg.z s.arg.y (s.arg.l.getD 0 0) (s.arg.l.getD 1 0) (s.arg.l.getD 2 0) false) aEWRITE 1 s.arg.z = .done w) ∧
    (∃ (s w : State) (va : Nat), 1 ≤ s.arg.y ∧ s.arg.y ≤ 8 ∧ (s.ctx s.arg.x).nmask.toNat.testBit s.arg.y = false ∧ (∀ r ∈ (s.ctx s.arg.x).rings, r.ring ≠ 0) ∧ ringPlace (s.ctx s.arg.x) 0 = some va ∧
      vwrite s s.arg.x va (noticeRec (s.arg.l.headD s.gts) s.arg.z s.arg.u s.arg.y) aEWRITE 1 s.arg.u = .done w) ∧
    (∃ (s : State), 1 ≤ s.arg.y ∧ s.arg.y ≤ 8 ∧ (s.ctx s.arg.x).nbase.getLsbD 0 = false ∧ (∀ r ∈ (s.ctx s.arg.x).rings, r.ring ≠ 0) ∧
      (s.ctx s.arg.x).nmask.toNat.testBit s.arg.y = true ∧ (s.vf (s.ctx s.arg.x).vf).en = true) := by
  obtain ⟨u, hu⟩ := ringing_writes { y := 10 } (fun c => { c with trbase := 0x8_0010, trmask := 0x400 }) rfl rfl (traceRec 0 0 10 0 0 0 false) 0
  obtain ⟨w, hw⟩ := ringing_writes { y := 8 } (fun c => { c with nbase := 0x8_0001, nmask := 0 }) rfl rfl (noticeRec 0 0 0 8) 0
  refine ⟨⟨{}, .inl rfl⟩, ⟨ringing { y := 10 } (fun c => { c with trbase := 0x8_0010, trmask := 0x400 }), u, 0x8_0000, by decide, by decide, by decide, by decide, by decide,
      (fun _ h => nomatch h), by decide, hu⟩,
    ⟨ringing { y := 8 } (fun c => { c with nbase := 0x8_0001, nmask := 0 }), w, 0x8_0000, by decide, by decide, by decide, (fun _ h => nomatch h), by decide, hw⟩,
    ⟨ringing { y := 8 } (fun c => { c with nmask := 0x100 }), by decide, by decide, rfl, (fun _ h => nomatch h), by decide, rfl⟩⟩

/-- Core 255 is held by context 0, which takes samples into a ring at 0x8_0000. -/
def sampled (a : Arg) (base : DWord) : State :=
  { ringing { a with x := 255 } (fun c => { c with smpctl := 1, smpbase := base }) with mkt := { units := [(63, { holder := some 0 })] } }

theorem wit_samples :
    (∃ (s : State), s.arg.x < 256 ∧ coreHolder s s.arg.x = none) ∧
    (∃ (s : State) (c : Nat), s.arg.x < 256 ∧ coreHolder s s.arg.x = some c ∧ (s.ctx c).smpctl.getLsbD 0 = true ∧ s.arg.y ≠ 1) ∧
    (∃ (s : State) (c : Nat), s.arg.x < 256 ∧ coreHolder s s.arg.x = some c ∧ (s.ctx c).smpctl.getLsbD 0 = true ∧ s.arg.y = 1 ∧
      (∀ r ∈ (s.ctx c).rings, r.ring ≠ 3) ∧ ringPlace (s.ctx c) 3 = none) ∧
    (∃ (s : State) (c va : Nat) (w : State), s.arg.x < 256 ∧ coreHolder s s.arg.x = some c ∧ (s.ctx c).smpctl.getLsbD 0 = true ∧ s.arg.y = 1 ∧
      (∀ r ∈ (s.ctx c).rings, r.ring ≠ 3) ∧ ringPlace (s.ctx c) 3 = some va ∧
      vwrite s c va (sampleRec s c s.arg.x s.arg.z s.arg.u (s.arg.l.getD 0 0) (s.arg.l.getD 1 0) (s.arg.l.getD 2 0) (s.arg.l.getD 3 0))
        aEWRITE 1 s.arg.x = .done w) := by
  have low : Low (sampled { y := 1 } 0x8_0010) 0 :=
    ⟨rfl, by decide, by decide, by decide, by decide, rfl, rfl, (by decide : 256 ≤ 768), rfl, (fun _ _ h => nomatch h), rfl⟩
  obtain ⟨w, hw, _⟩ := low_write (v := 0x8_0000) (sampleRec (sampled { y := 1 } 0x8_0010) 0 255 0 0 0 0 0 0) aEWRITE 1 255 low (by omega) (by omega) rfl (by decide)
  exact ⟨⟨on { x := 255 }, by decide, rfl⟩, ⟨sampled {} 0, 0, by decide, rfl, by decide, by decide⟩,
    ⟨sampled { y := 1 } 0, 0, by decide, rfl, by decide, rfl, (fun _ h => nomatch h), by decide⟩,
    ⟨sampled { y := 1 } 0x8_0010, 0, 0x8_0000, w, by decide, rfl, by decide, rfl, (fun _ h => nomatch h), by decide, hw⟩⟩

theorem wit_power :
    (∃ (s : State), s.power.hold ≠ 0) ∧ (∃ (s : State) (n : Nat), n < 64 ∧ s.power.hold = 0 ∧ 64 * s.power.tlim < tempOf (s.power.cl n).temp) ∧
    (∃ (s : State) (n : Nat), n < 64 ∧ s.power.hold = 0 ∧ tempOf (s.power.cl n).temp < 64 * (s.power.tlim - 2 : Int) ∧
      100 * s.power.pwr < 95 * s.power.plim) ∧
    (∃ (s : State), s.arg.x < 63) ∧ (∃ (s : State), s.power.tsnap.getLsbD 0 = false) ∧ (∃ (s : State), s.power.tsnap.getLsbD 0 = true) :=
  ⟨⟨{ power := { hold := 1 } }, by decide⟩, ⟨{ power := { clusters := [(63, { temp := 105 * 64 + 1 })] } }, 63, by decide, rfl, by decide⟩,
    ⟨{}, 63, by decide, rfl, by decide, by decide⟩, ⟨on { x := 62 }, by decide⟩, ⟨{}, rfl⟩, ⟨{ power := { tsnap := 0x2001 } }, by decide⟩⟩

theorem wit_trips :
    (∃ (s : State), s.power.tripped = false) ∧ (∃ (s : State), s.power.tripped = true) ∧
    (∃ (s : State), s.arg.u = 0 ∧ s.arg.x = 0 ∧ thas s.blks s.arg.y = true ∧ thas (s.blk s.arg.y).groups s.arg.z = true) ∧
    (∃ (s : State), s.arg.u = 0 ∧ s.arg.x = 2) ∧ (∃ (s : State), s.arg.u = 0 ∧ 3 ≤ s.arg.x ∧ (s.ctx s.arg.y).st = .running) ∧
    (∃ (s : State) (key : Nat), s.arg.x = 2 ∧ s.arg.u = key + 1 ∧ 1 ≤ tget 0 s.power.errs key ∧ s.power.fenced.contains key = false) ∧
    (∃ (s : State), s.memWf = true ∧ (tget 0 s.power.att 4).toNat / 4096 * 4096 < 2 ^ 39) ∧
    (∃ (s : State), s.memWf = true ∧ 2 ^ 39 ≤ (tget 0 s.power.att 4).toNat / 4096 * 4096) :=
  ⟨⟨{}, rfl⟩, ⟨{ power := { tripped := true } }, rfl⟩, ⟨on { y := 1 } (st []), rfl, rfl, rfl, rfl⟩, ⟨on { x := 2, y := 0x3000 }, rfl, rfl⟩,
    ⟨on { x := 3 } (st []), rfl, by decide, rfl⟩, ⟨on { x := 2, u := 4097 } { power := { errs := [(4096, 1)] } }, 4096, rfl, rfl, by decide, rfl⟩,
    ⟨{ power := { att := [(4, 0x7F_FFFF_F000)] } }, rfl, by decide⟩, ⟨{ power := { att := [(4, 0x80_0000_0000)] } }, rfl, by decide⟩⟩

theorem wit_register_writes :
    (∃ (s : State) (n : Nat), n < 64 ∧ s.arg.x = 2 ^ 39 + 0x3_1000 + 32 * n + 24) ∧ (∃ (s : State), s.arg.x = 2 ^ 39 + 0x6_0000) ∧
    (∃ (s : State) (n : Nat), n < 64 ∧ s.arg.x = 2 ^ 39 + 0x8_0000 + 64 * n + 16) ∧
    (∃ (s : State) (k : Nat), k < 2 ∧ s.arg.x = 2 ^ 39 + 0x3_0010 + 8 * k) ∧
    (∃ (s : State) (n : Nat), n < 32 ∧ s.arg.x = 2 ^ 39 + 0x10_0000 + 32 * n + 24) ∧
    (∃ (s : State) (c k : Nat), c < 4096 ∧ 1 ≤ k ∧ k ≤ 4 ∧ s.arg.x = 2 ^ 39 + 0x2000_0000 + 256 * c + 8 * k ∧ debugLocked s c s.arg.y = true) ∧
    (∃ (s : State) (c k : Nat), c < 4096 ∧ 1 ≤ k ∧ k ≤ 4 ∧ s.arg.x = 2 ^ 39 + 0x2000_0000 + 256 * c + 8 * k ∧ debugLocked s c s.arg.y = false) ∧
    (∃ (s : State) (n : Nat), n < 64 ∧ s.arg.x = 2 ^ 39 + 0x40_0000 + 4096 * n ∧ (s.vf n).go = true) ∧
    (∃ (s : State) (n : Nat), n < 64 ∧ s.arg.x = 2 ^ 39 + 0x40_0000 + 4096 * n ∧ (s.vf n).go = false ∧ s.arg.v.getLsbD 63 = true ∧ (s.vf n).en = true) :=
  ⟨⟨on { x := 2 ^ 39 + 0x3_1000 + 32 * 63 + 24 }, 63, by decide, rfl⟩, ⟨on { x := 2 ^ 39 + 0x6_0000 }, rfl⟩,
    ⟨on { x := 2 ^ 39 + 0x8_0000 + 64 * 63 + 16 }, 63, by decide, rfl⟩, ⟨on { x := 2 ^ 39 + 0x3_0018 }, 1, by decide, rfl⟩,
    ⟨on { x := 2 ^ 39 + 0x10_0000 + 32 * 31 + 24 }, 31, by decide, rfl⟩,
    ⟨on { x := 2 ^ 39 + 0x2000_0000 + 8 * 4 } { ctxs := [(0, { dbgctl := 0x100 })] }, 0, 4, by decide, by decide, by decide, rfl, by decide⟩,
    ⟨on { x := 2 ^ 39 + 0x2000_0000 + 256 * 4095 + 8 }, 4095, 1, by decide, by decide, by decide, rfl, by decide⟩,
    ⟨on { x := 2 ^ 39 + 0x40_0000 + 4096 * 63 } { vfs := [(63, { go := true })] }, 63, by decide, rfl, rfl⟩,
    ⟨on { x := 2 ^ 39 + 0x40_0000 + 4096 * 63, v := 0x8000_0000_0000_0001 } { vfs := [(63, { en := true })] }, 63, by decide, rfl, rfl, by decide, rfl⟩⟩

/-! ### Witnesses: the machine -/

/-- The state in which a word is the next to issue. -/
def issuing (w : Nat) : State := State.reset.withFetchWord 32 w

/-- The fetch of core 0's group by a state in which a word is next meets no wait. -/
def noWait (s : State) : Bool := (List.range 3).all (fun k => match fetchWord { s with cur := { blk := 1, j := 0 } } (s.blk 1).ctx (s.grp 1 0).priv (4 * k) with
  | .wait _ _ => false | _ => true)

theorem wordAt_zero (s : State) (w : BitVec 32) {n : Nat} (z : n = 0) (h : noWait s = true)
    (f : fetchWord { s with cur := { blk := 1, j := 0 } } (s.blk 1).ctx (s.grp 1 0).priv 0 = .word w) : WordAt s 1 0 n w := by
  rw [z]
  refine ⟨f, fun k stage need l e => ?_⟩
  have := List.all_eq_true.mp h k (List.mem_range.mpr l)
  rw [Nat.zero_div, Nat.zero_mul, Nat.zero_add] at e
  simp only [show fetchWord { s with cur := { blk := 1, j := 0 } } (s.blk 1).ctx (s.grp 1 0).priv (4 * k) = _ from e, Bool.false_eq_true] at this

theorem goes_next {o : Out} (h : goes o (fun _ => true) = true) : ∃ t, o = .next t := by
  cases o with
  | next t => exact ⟨t, rfl⟩
  | fault _ => cases h
  | refused _ => cases h

theorem wit_step_word :
    (∃ (s : State) (n b j l0 : Nat) (ls : List Nat) (w : BitVec 32) (i : Instr), Chosen s n b j ∧ issueSet (s.grp b j) = l0 :: ls ∧
      WordAt (issuingCore s n) b j (s.thr b j l0).pc.toNat w ∧ decode w = .ok i ∧ w.getLsbD 31 = false ∧ (∀ f, i ≠ .rep f) ∧ (wordInfo i).sc = 0 ∧
      let u := issueAt (fetched (issuingCore s n) b j (s.thr b j l0).pc.toNat) b j (s.thr b j l0).pc.toNat 0 ((l0 :: ls).map (fun l => (j, l))) [j]
      staticIssueTrap u [wordOf (s.thr b j l0).pc.toNat w i] = none ∧ ∃ t, exec i (wordAct u w) = .next t) ∧
    (∃ (s : State) (n b j l0 : Nat) (ls : List Nat) (w : BitVec 32) (i : Instr), Chosen s n b j ∧ issueSet (s.grp b j) = l0 :: ls ∧
      WordAt (issuingCore s n) b j (s.thr b j l0).pc.toNat w ∧ decode w = .ok i ∧ w.getLsbD 31 = false ∧ (∀ f, i ≠ .rep f) ∧ (wordInfo i).sc ≠ 0 ∧
      let psc := if (s.grp b j).hm && isRett i then 4 else (wordInfo i).sc
      let p := (fetched (issuingCore s n) b j (s.thr b j l0).pc.toNat).foldl (l0 :: ls)
        (fun t l => t.updThr b j l (fun th => { th with mode := .parked, psc := psc }))
      let js := scopeGroups (p.blk b) j psc
      let u := issueAt p b j (s.thr b j l0).pc.toNat (wordInfo i).sc (scopeMembers (p.blk b) js psc) js
      canRendezvous (p.blk b) js psc = true ∧ staticIssueTrap u [wordOf (s.thr b j l0).pc.toNat w i] = none ∧ ∃ t, exec i (wordAct u w) = .next t) := by
  refine ⟨⟨issuing 0x0403_0842, 0, 1, 0, 0, (List.range 31).map (· + 1), 0x0403_0842, .add (wA 2 2 2), ⟨?_, ?_, ?_, ?_, ?_, ?_, ?_⟩, ?_,
      wordAt_zero _ _ ?_ ?_ ?_, ?_, ?_, by simp, ?_, ?_, goes_next ?_⟩,
    ⟨issuing 0x0407_0842, 0, 1, 0, 0, (List.range 31).map (· + 1), 0x0407_0842, .add (wA 2 2 2 1), ⟨?_, ?_, ?_, ?_, ?_, ?_, ?_⟩, ?_,
      wordAt_zero _ _ ?_ ?_ ?_, ?_, ?_, by simp, ?_, ?_, ?_, goes_next ?_⟩⟩
  all_goals decide +kernel

theorem wit_step_event :
    (∃ (s : State) (e : Event), firstEvent s.agenda = some e ∧ e.due ≤ s.gts ∧ eventFirst s e = true) ∧
    (∃ (s : State), (∀ e ∈ s.agenda, s.gts < e.due) ∧ nextCore s = none ∧ s.slew = 0) :=
  ⟨⟨State.reset, _, rfl, by decide, by decide⟩, {}, (fun _ h => nomatch h), by decide, rfl⟩

theorem wit_step_canonical : ∃ (s t : State), s.memWf = true ∧ step s = .next t := by
  have h : (match step ({} : State) with | .next _ => true | _ => false) = true := by decide
  cases e : step ({} : State) with
  | next t => exact ⟨{}, t, rfl, e⟩
  | fault _ => rw [e] at h; cases h
  | refused _ => rw [e] at h; cases h

/-- The first step from the state in which ADD is next is next moves the PC of lane 31 past it and leaves the lane ACTIVE. -/
theorem test_step_add : (match step (issuing 0x0403_0842) with
    | .next t => decide ((t.thr 1 0 31).pc = 4) && decide ((t.thr 1 0 31).mode = .active)
    | _ => false) = true := by decide +kernel

theorem test_reset_canonical : State.reset.memWf = true := rfl

end Sys2Proof.Tests
end

/-!
## Completion of a barrier generation (11 R270, R271)

What `barComplete` tests, what it does to a waiter and to a group, and from these the statement that a FILLING generation
completes in one step, or nothing happens.
-/

namespace Sys2Proof.Proofs

open Sys2Proof.Machine

/-- Lane l of group j no longer keeps generation completion back: the group is out of the barriers, or the lane has arrived
or exited (R270, R282). -/
def LaneReady (b : Block) (r : Barrier) (j l : Nat) : Prop :=
  (b.grp j).outBar = true ∨ (j, l) ∈ r.who ∨ ((b.grp j).th l).mode = .exited

theorem not_laneReady_iff (b : Block) (r : Barrier) (j l : Nat) :
    ¬ LaneReady b r j l ↔ (b.grp j).outBar = false ∧ (j, l) ∉ r.who ∧ ((b.grp j).th l).mode ≠ .exited := by
  rw [LaneReady, not_or, not_or, Bool.not_eq_true]

theorem allArrived_iff (b : Block) (r : Barrier) :
    allArrived b r = true ↔ ∀ j ∈ b.groupIds, ∀ l, l < 32 → r.member.getLsbD (32 + j) = true → r.member.getLsbD l = true →
      LaneReady b r j l := by
  rw [allArrived, List.all_eq_true]
  refine forall₂_congr fun j _ => ?_
  cases ho : (b.grp j).outBar with
  | true => simp [LaneReady, ho]
  | false =>
    simp only [Bool.false_or, List.all_eq_true, upto, List.mem_range]
    refine forall₂_congr fun l _ => ?_
    rw [← and_imp, ← Bool.and_eq_true, ← memberOf]
    cases memberOf r.member j l <;> simp [LaneReady, ho]

/-! ### Waiters -/

/-- The waiters of a group with those for generation `gen` of barrier n marked as met. -/
def markMet (n gen : Nat) (who : List (Nat × Nat × Nat × Bool)) : List (Nat × Nat × Nat × Bool) :=
  who.map (fun w => (w.1, w.2.1, w.2.2.1, w.2.2.2 || decide (w.2.1 = n ∧ w.2.2.1 = gen)))

theorem releaseWait_barrier {n gen : Nat} {g : Group} {who : List (Nat × Nat × Nat × Bool)} (h : g.wait = .barrier who) :
    (releaseWait n gen g).wait = if ∀ w ∈ markMet n gen who, w.2.2.2 = true then .none else .barrier (markMet n gen who) := by
  have marks : who.map (fun w => if w.2.1 = n ∧ w.2.2.1 = gen then (w.1, w.2.1, w.2.2.1, true) else w) = markMet n gen who := by
    refine List.map_congr_left fun w _ => ?_
    split <;> simp [*]
  simp only [releaseWait, h, marks, List.all_eq_true]
  split <;> rfl

/-- A group that is absent from the block's table waits for nothing, so the release reaches every group alike. -/
theorem releaseWait_default (n gen : Nat) : releaseWait n gen {} = {} := rfl

/-! ### The step -/

/-- The condition of R270, as `barComplete` tests it. -/
def Completes (b : Block) (n : Nat) : Prop := (b.bar n).st = 1 ∧ (b.bar n).enga = (b.bar n).eng ∧ allArrived b (b.bar n) = true

/-- What stands in barrier n after its generation has completed (R271). -/
def nextGeneration (r : Barrier) : Barrier :=
  { r with gen := (r.gen + 1) % 65536, arr := 0, st := 0, enga := min r.ecarry r.eng, ecarry := r.ecarry - min r.ecarry r.eng, who := [] }

section Completed
variable {b : Block} {n : Nat} (h : Completes b n)
include h

theorem barComplete_eq : barComplete b n = { b with
    bars := tset b.bars n (nextGeneration (b.bar n)), bgc := (b.bgc + 1) % 65536
    groups := tmap (fun _ g => releaseWait n (b.bar n).gen g) b.groups } := if_pos h

theorem barComplete_bgc : (barComplete b n).bgc = (b.bgc + 1) % 65536 := by rw [barComplete_eq h]

theorem barComplete_bar (k : Nat) : (barComplete b n).bar k = if k = n then nextGeneration (b.bar n) else b.bar k := by
  rw [barComplete_eq h, Block.bar, tget_tset, ← Block.bar]

theorem barComplete_grp (j : Nat) : (barComplete b n).grp j = releaseWait n (b.bar n).gen (b.grp j) := by
  rw [barComplete_eq h]
  simp only [Block.grp, tget, tfind_tmap]
  cases tfind b.groups j with
  | none => exact (releaseWait_default n _).symm
  | some g => rfl

end Completed

theorem barComplete_eq_self {b : Block} {n : Nat} (h : ¬ Completes b n) : barComplete b n = b := if_neg h

/-- Settles O22: `allArrived` is the condition of R270 lane by lane, and each clause of R271 reads one part of the block after `barComplete`. -/
theorem barrierGenerationCompletes : Obligations.BarrierGenerationCompletes := by
  refine fun b n => ⟨fun ⟨hst, heng, hready⟩ => ?_, fun hstop => barComplete_eq_self fun ⟨hst, heng, hall⟩ => ?_⟩
  · have h : Completes b n := ⟨hst, heng, (allArrived_iff b _).mpr hready⟩
    have hbar : (barComplete b n).bar n = nextGeneration (b.bar n) := (barComplete_bar h n).trans (if_pos rfl)
    rw [hbar]
    refine ⟨rfl, rfl, rfl, rfl, rfl, barComplete_bgc h, fun k hk => (barComplete_bar h k).trans (if_neg hk), fun j _ who hw => ?_⟩
    rw [barComplete_grp h]
    exact releaseWait_barrier hw
  · obtain hst' | heng' | ⟨j, hj, l, hl, hgm, hlm, hnot⟩ := hstop
    · exact hst' hst
    · exact heng' heng
    · exact (not_laneReady_iff b _ j l).mpr hnot ((allArrived_iff b _).mp hall j hj l hl hgm hlm)

end Sys2Proof.Proofs

/-!
## NOP (14 R354)

An issue of two words of pipe CT raises CHAIN, and NOP keeps everything but the time at which its groups may issue again.
-/

namespace Sys2Proof.Proofs

open Sys2Proof.Machine

/-- An issue that no REP heads has no repeated word. -/
theorem issueForm_rep_of_head {w : FWord} (h : isRepWord w = false) (ws : List FWord) : (issueForm (w :: ws)).rep = none := by
  unfold issueForm
  dsimp only
  split
  · next f hrep => simp [isRepWord, hrep] at h
  · rfl

/-- A word of a pipe is no REP prefix, which occupies none (R124, R131). -/
theorem isRepWord_of_pipe {w : FWord} {i : Instr} (hw : w.ins = some i) (hi : (wordInfo i).pipe ≠ .none) : isRepWord w = false := by
  unfold isRepWord
  split
  · next f hrep =>
    obtain rfl : i = .rep f := Option.some.inj (hw.symm.trans hrep)
    exact absurd (congrArg WordInfo.pipe (wordInfo_rep f)) hi
  · rfl

/-- Two words of pipe CT in one issue raise CHAIN (R120). -/
theorem issueChain_of_ct_pair {u v : FWord} {i k : Instr} (hu : u.ins = some i) (hv : v.ins = some k)
    (hi : (wordInfo i).pipe = .ct) (hk : (wordInfo k).pipe = .ct) : issueChain [u, v] = true := by
  have hform : (issueForm [u, v]).rep = none := issueForm_rep_of_head (isRepWord_of_pipe hu (by simp [hi])) [v]
  have hcount : pipeCount ([u, v].filterMap FWord.ins) .ct = 2 := by simp [pipeCount, hu, hv, hi, hk]
  simp [issueChain, hform, hcount]

/-- A NOP that passes the checks of every word keeps all but the issue time of its groups (R354). -/
theorem execNop_frame {f : WK} {s : State} (h : Passes (.nop f) s) : ∃ t, execNop f s = .next t ∧ RegsOnly [] [] [] s t := by
  refine ⟨_, rfl, ?_⟩
  rw [plain_passes _ h]
  exact (cancelDests_frame [] [] [] s (.nop f)).trans (busy_frame [] [] [] _ 1 8)

/-- Settles O10: the frame of NOP, its all-zero encoding, and CHAIN beside another word of pipe CT in either order. -/
theorem nopHasNoEffect : Obligations.NopHasNoEffect := by
  refine ⟨fun f s h => execNop_frame h, by decide, fun f u v i hu hv hi => ?_⟩
  have hn : (wordInfo (.nop f)).pipe = .ct := congrArg _ (wordInfo_nop f)
  exact ⟨issueChain_of_ct_pair hu hv hn hi, issueChain_of_ct_pair hv hu hi hn⟩

end Sys2Proof.Proofs

/-!
## Lane exchange (15 R373 to R375)

A lane exchange is one operation with a source of its own for each word: `SourceOf` says once, for each of the six words, which check
precedes it and which lane it names. The value, the frame and SOFTERR then follow for all six together.
-/

namespace Sys2Proof.Proofs

open Sys2Proof.Machine Sys2Proof.Claims

/-! ### The lanes of a member's scope stay while older loads are cancelled -/

theorem inSet_of_sansThreads {g h : Group} (e : g.sansThreads = h.sansThreads) : g.inSet = h.inSet :=
  show g.sansThreads.inSet = h.sansThreads.inSet from congrArg Group.inSet e

theorem sets_of_sansGroups {k c : Block} (e : k.sansGroups = c.sansGroups) : k.sets = c.sets :=
  show k.sansGroups.sets = c.sansGroups.sets from congrArg Block.sets e

/-- The set of a group depends on the group's membership and the block's sets alone. -/
theorem scopeGroups_set_congr {b c : Block} (j : Nat) (hin : (b.grp j).inSet = (c.grp j).inSet) (hsets : b.sets = c.sets) :
    scopeGroups b j 2 = scopeGroups c j 2 := by
  simp only [scopeGroups, hin, hsets]

theorem cancelDests_laneGroups (s : State) (i : Instr) (sc : Nat) (m : Nat × Nat) :
    laneGroups (cancelDests s i) sc m = laneGroups s sc m := by
  obtain ⟨-, ⟨hblk, hgrp⟩, -⟩ := cancelDests_frame [] [] [] s i
  have hset : scopeGroups (cancelDests s i).srcBlk m.1 2 = scopeGroups s.srcBlk m.1 2 := by
    rw [State.srcBlk, State.srcBlk, cancelDests_cur]
    cases s.cur.src with
    | some b => rfl
    | none => exact scopeGroups_set_congr m.1 (inSet_of_sansThreads (hgrp s.cur.blk m.1)) (sets_of_sansGroups (hblk s.cur.blk))
  rw [laneGroups, laneGroups, hset]

theorem cancelDests_laneFrom (s : State) (k i : Instr) (src : Nat → Nat → Nat → Option Nat) (m : Nat × Nat) :
    laneFrom (cancelDests s k) i src m = laneFrom s i src m := by
  simp only [laneFrom, cancelDests_laneGroups, cancelDests_rdW]

/-! ### The shared operation, by the group and lane it reads -/

/-- The group and lane that an exchange reads for a member, where `pick` names a lane's number among N lanes. -/
def pickedLane (s : State) (sc : Nat) (pick : Nat × Nat → Nat → Nat → Option Nat) (m : Nat × Nat) : Option (Nat × Nat) :=
  (pick m (exchangeSize s sc m) (exchangeLane s sc m)).map (fun l => ((exchangeGroups s sc m).getD (l / 32) m.1, l % 32))

theorem exchange_eq_lanesW (s : State) (sc pr d a : Nat) (pick : Nat × Nat → Nat → Nat → Option Nat) :
    exchange s sc pr d a pick = lanesW s pr d (fun m => (pickedLane s sc pick m).elim 0 (fun n => rdW s n a)) := by
  refine congrArg (lanesW s pr d) (funext fun m => ?_)
  unfold pickedLane
  cases pick m (exchangeSize s sc m) (exchangeLane s sc m) <;> rfl

/-- A guarded member takes its value from a register with an uncorrectable error. -/
def ReadsBadLane (s : State) (sc pr a : Nat) (pick : Nat × Nat → Nat → Nat → Option Nat) : Prop :=
  ∃ m ∈ guarded s pr, ∃ n, pickedLane s sc pick m = some n ∧ a ∈ (s.srcThr n).bad

theorem laneSoft_eq (s : State) (sc pr a : Nat) (pick : Nat × Nat → Nat → Nat → Option Nat) : laneSoft s sc pr a pick =
    if (guarded s pr).any (fun m => (pickedLane s sc pick m).any (fun n => (s.srcThr n).bad.contains a)) then
      .trap { cause := cSOFTERR, det := 1 } else .pass := by
  unfold laneSoft pickedLane
  congr 3
  funext m
  cases pick m (exchangeSize s sc m) (exchangeLane s sc m) <;> rfl

theorem laneSoft_of_bad {s : State} {sc pr a : Nat} {pick : Nat × Nat → Nat → Nat → Option Nat} (h : ReadsBadLane s sc pr a pick) :
    laneSoft s sc pr a pick = .trap { cause := cSOFTERR, det := 1 } := by
  rw [laneSoft_eq, if_pos]
  simpa [ReadsBadLane, Option.any_eq_true] using h

theorem laneSoft_of_good {s : State} {sc pr a : Nat} {pick : Nat × Nat → Nat → Nat → Option Nat} (h : ¬ ReadsBadLane s sc pr a pick) :
    laneSoft s sc pr a pick = .pass := by
  rw [laneSoft_eq, if_neg]
  simpa [ReadsBadLane, Option.any_eq_true] using h

/-- A constant below N for every member passes the limit of LBCAST and LXOR (R374). -/
theorem laneLimit_pass {s : State} {sc k : Nat} (h : ∀ m ∈ s.cur.members, k < 32 * (laneGroups s sc m).length) : laneLimit s sc k = .pass := by
  unfold laneLimit
  split
  · next m ms hms => exact if_neg (Nat.not_le.mpr (h m (by simp [hms])))
  · rfl

/-! ### The lane that each word names -/

/-- LSWP.P's source is the other lane of the pair (R374). -/
theorem xor_one_eq_pair (l : Nat) : l ^^^ 1 = if l % 2 = 0 then l + 1 else l - 1 := by
  split
  · next h => exact Nat.xor_one_of_even (Nat.even_iff.mpr h)
  · next h => exact Nat.xor_one_of_odd (Nat.odd_iff.mpr (Nat.mod_two_ne_zero.mp h))

/-- The model's LROT, which stays among the naturals, is (l - k) mod N (R374). -/
theorem rotate_eq_sub_mod {n : Nat} (hn : 0 < n) (l k : Nat) : (l + n - k % n) % n = (((l : Int) - k) % n).toNat := by
  have hlt : k % n < n := Nat.mod_lt k hn
  have hdiv : (n : Int) * (k / n : Nat) + (k % n : Nat) = k := mod_cast Nat.div_add_mod k n
  have hsum : ((l + n - k % n : Nat) : Int) = (l - k : Int) + n * (1 + (k / n : Nat)) := by
    rw [Nat.cast_sub (by omega), Nat.cast_add]
    linarith
  rw [← Int.toNat_natCast ((l + n - k % n) % n), Int.natCast_mod, hsum, Int.add_mul_emod_self_left]

/-- Word i exchanges w A into w D after the check `limit`, and `pick` names the lane that `src` names. The numbers of the lanes are
compared where there are lanes at all: LROT takes a remainder by N. -/
structure Exchanges (i : Instr) (d a : Nat) (src : Nat → Nat → Nat → Option Nat) (limit : State → Check)
    (pick : State → Nat × Nat → Nat → Nat → Option Nat) : Prop where
  runs : ∀ s, exec i s = .next (exchangeWord i s (wordInfo i).sc (wordInfo i).pr d a limit pick)
  limit_pass : ∀ s, (∀ m ∈ s.cur.members, laneConstant i < 32 * (laneGroups s (wordInfo i).sc m).length) → limit s = .pass
  names : ∀ s m, laneGroups s (wordInfo i).sc m ≠ [] → pickedLane s (wordInfo i).sc (pick s) m = laneFrom s i src m

theorem exchangeSize_pos {s : State} {sc : Nat} {m : Nat × Nat} (h : laneGroups s sc m ≠ []) : 0 < exchangeSize s sc m :=
  Nat.mul_pos (by decide) (List.length_pos_iff.mpr h)

/-- Each of the six words is an exchange of the lane that R374 names. -/
theorem exchanges_of_laneSource {i : Instr} {d a : Nat} {src : Nat → Nat → Nat → Option Nat} (h : laneSource i = some (d, a, src)) :
    ∃ limit pick, Exchanges i d a src limit pick := by
  unfold laneSource at h
  split at h
  case h_1 f =>
    cases h
    refine ⟨_, _, fun _ => rfl, fun _ _ => rfl, fun s m _ => ?_⟩
    simp only [pickedLane, xor_one_eq_pair]
    rfl
  case h_2 f => cases h; exact ⟨_, _, fun _ => rfl, fun _ _ => rfl, fun _ _ _ => rfl⟩
  case h_3 f => cases h; exact ⟨_, _, fun _ => rfl, fun _ hk => laneLimit_pass hk, fun _ _ _ => rfl⟩
  case h_4 f => cases h; exact ⟨_, _, fun _ => rfl, fun _ hk => laneLimit_pass hk, fun _ _ _ => rfl⟩
  case h_5 f => cases h; exact ⟨_, _, fun _ => rfl, fun _ _ => rfl, fun _ _ _ => rfl⟩
  case h_6 f =>
    cases h
    refine ⟨_, _, fun _ => rfl, fun _ _ => rfl, fun s m hm => ?_⟩
    simp only [pickedLane, rotate_eq_sub_mod (exchangeSize_pos hm)]
    rfl
  case h_7 => cases h

/-! ### What an exchange does -/

section Exchange
variable {i : Instr} {d a : Nat} {src : Nat → Nat → Nat → Option Nat} {limit : State → Check}
  {pick : State → Nat × Nat → Nat → Nat → Option Nat} {s : State}
  (he : Exchanges i d a src limit pick) (hp : Passes i s)
  (hk : ∀ m ∈ s.cur.members, laneConstant i < 32 * (laneGroups s (wordInfo i).sc m).length)
include he hk

/-- The lanes that a guarded member reads in the state before the issue, as in the state in which older loads are cancelled. -/
theorem Exchanges.names_guarded {m : Nat × Nat} (hm : m ∈ guarded s (wordInfo i).pr) :
    pickedLane s (wordInfo i).sc (pick s) m = laneFrom s i src m ∧
    pickedLane (cancelDests s i) (wordInfo i).sc (pick (cancelDests s i)) m = laneFrom s i src m := by
  have hne : laneGroups s (wordInfo i).sc m ≠ [] := by
    intro h
    simpa [h] using hk m (List.mem_of_mem_filter hm)
  exact ⟨he.names s m hne, (he.names _ m (by rwa [cancelDests_laneGroups])).trans (cancelDests_laneFrom s i i src m)⟩

theorem Exchanges.readsBadLane_iff : ReadsBadLane s (wordInfo i).sc (wordInfo i).pr a (pick s) ↔
    ∃ m ∈ guarded s (wordInfo i).pr, ∃ n, laneFrom s i src m = some n ∧ a ∈ (s.srcThr n).bad :=
  exists_congr fun m => and_congr_right fun hm => by rw [(he.names_guarded hk hm).1]

include hp

/-- Where no lane read holds an error, every guarded lane takes the value of the lane named, and nothing else changes (R373, R374). -/
theorem Exchanges.writes (hgood : ∀ m ∈ guarded s (wordInfo i).pr, ∀ n, laneFrom s i src m = some n → a ∉ (s.srcThr n).bad) :
    ∃ t, exec i s = .next t ∧ RegsOnly (guarded s (wordInfo i).pr) [d] [] s t ∧
      ∀ m ∈ guarded s (wordInfo i).pr, (t.thr s.cur.blk m.1 m.2).rw d = (laneFrom s i src m).elim 0 (fun n => rdW s n a) := by
  have hsoft : laneSoft s (wordInfo i).sc (wordInfo i).pr a (pick s) = .pass :=
    laneSoft_of_good fun h => by
      obtain ⟨m, hm, n, hn, hbad⟩ := (he.readsBadLane_iff hk).mp h
      exact hgood m hm n hn hbad
  refine ⟨_, he.runs s, ?_⟩
  rw [exchangeWord, word_passes _ hp (by rw [he.limit_pass s hk]; exact hsoft), exchange_eq_lanesW]
  refine ⟨(cancelDests_frame _ [d] [] s i).trans (cancelDests_guarded s i _ ▸ lanesW_frame _ _ _ _), fun m hm => ?_⟩
  have hv := lanesW_value (cancelDests s i) (wordInfo i).pr d
    (fun m => (pickedLane (cancelDests s i) (wordInfo i).sc (pick (cancelDests s i)) m).elim 0 (fun n => rdW (cancelDests s i) n a))
    m (by rwa [cancelDests_guarded])
  simpa only [cancelDests_cur, (he.names_guarded hk hm).2, cancelDests_rdW] using hv

/-- Where a lane read holds an error, the word raises SOFTERR (R375). -/
theorem Exchanges.raises_softerr (hgo : s.cur.go = false)
    (hbad : ∃ m ∈ guarded s (wordInfo i).pr, ∃ n, laneFrom s i src m = some n ∧ a ∈ (s.srcThr n).bad) :
    exec i s = .next (raise s { cause := cSOFTERR, det := 1 }) := by
  obtain ⟨hstatic, hsrc⟩ := hp
  rw [he.runs s, exchangeWord, word, hgo, hstatic, hsrc, he.limit_pass s hk, laneSoft_of_bad ((he.readsBadLane_iff hk).mpr hbad)]
  rfl

end Exchange

/-! ### A constant beyond the lanes of a group -/

/-- A word without privilege, not at set scope, whose constant is refused raises ILL, for that or for its encoding (R122). -/
theorem staticTrap_of_late {i : Instr} {s : State} (hpriv : (privNeed s i).1 = 0) (hx : xregOk s i = true) (hsc : (wordInfo i).sc ≠ 2)
    (hlate : (wordInfo i).late = true) : ∃ c, staticTrap s i = some { cause := cILL, cls := c } := by
  cases hill : illStatic i with
  | true => exact ⟨1, by simp [staticTrap, hill]⟩
  | false => exact ⟨6, by simp [staticTrap, hill, hpriv, hx, hsc, hlate]⟩

/-- A word refused for its constant answers with that precise trap for the whole issue and has no effect. -/
theorem word_raises_ill_of_late {i : Instr} {s : State} (check : State → Check) (effect : State → State) (hgo : s.cur.go = false)
    (hpriv : (privNeed s i).1 = 0) (hx : xregOk s i = true) (hsc : (wordInfo i).sc ≠ 2) (hlate : (wordInfo i).late = true) :
    ∃ x, (.next (word i s check effect) : Out) = .next (raise s x) ∧ x.cause = cILL ∧ x.prec = true ∧ x.only = none := by
  obtain ⟨c, hc⟩ := staticTrap_of_late hpriv hx hsc hlate
  exact ⟨_, congrArg _ (word_traps effect hgo hc), rfl, rfl, rfl⟩

/-- Outside set scope N is 32, so LBCAST and LXOR have no lane of that number (R374). -/
theorem constant_raises_ill {f : WI} {i : Instr} {s : State} (hi : i = .lbcast f ∨ i = .lxor f) (hsc : f.sc.toNat < 2) (hk : 32 ≤ f.k.toNat)
    (hx : xregOk s i = true) (hgo : s.cur.go = false) :
    ∃ x, exec i s = .next (raise s x) ∧ x.cause = cILL ∧ x.prec = true ∧ x.only = none := by
  have hlate : decide (f.sc.toNat < 2 ∧ 31 < f.k.toNat) = true := decide_eq_true ⟨hsc, hk⟩
  obtain rfl | rfl := hi <;> exact word_raises_ill_of_late _ _ hgo rfl hx hsc.ne hlate

/-- Settles O7: each of the six words is an exchange of the lane that R374 names, whose value, frame and SOFTERR are those of every
exchange; a constant of 32 or more is refused before any of them. -/
theorem laneExchangeReadsTheNamedLane : Obligations.LaneExchangeReadsTheNamedLane := by
  refine ⟨fun i d a src s hsource hp hlanes => ?_, fun f i s hi hsc hk hx hgo => constant_raises_ill hi hsc hk hx hgo⟩
  obtain ⟨limit, pick, he⟩ := exchanges_of_laneSource hsource
  have hconst := fun m hm => (hlanes m hm).1
  refine ⟨fun hgood => ?_, fun hbad hgo => he.raises_softerr hp hconst hgo hbad⟩
  obtain ⟨t, hrun, hframe, hvalue⟩ := he.writes hp hconst hgood
  refine ⟨t, hrun, hframe, fun m hm => (hvalue m hm).trans ?_⟩
  cases laneFrom s i src m <;> rfl

end Sys2Proof.Proofs
